-- ==== Sys2Proof/Word.lean ====
section
/-! DEFINITION. The word types of the Dorhan 2408: the bytes of the management line and of the lanes (spec/13_formats.md). -/

namespace Sys2Proof

/-- One byte of a frame, a beacon or a reply body (R189). -/
abbrev Byte := BitVec 8

/-- A two-byte number, most significant byte first on the line (R189). -/
abbrev Half := BitVec 16

/-- A four-byte number: a chassis identity, a timestamp, an interval count (R189). -/
abbrev Word := BitVec 32

end Sys2Proof
end

