-- ==== Sys2Proof/Syntax.lean ====
section
/-! DEFINITION. The commands of the part: one constructor of Instr per row of spec/opcode_table.json. A host request carries its
fields as the wire carries them (R189, R195), in and out of their legal sets, so that the owner's own judging is part of its
meaning; a lane, timer or pin event names the port, lane or channel it reaches. -/

namespace Sys2Proof

/-- A port index 0..23. -/
abbrev PortIx := Fin 24

/-- A lane position 0..7, and a remote or logical lane number 0..7. -/
abbrev LanePos := Fin 8

/-- A sweep channel 0..3 (R117). -/
abbrev ChanIx := Fin 4

/-- A plan entry as a request body carries it (R193, R195): every field still to be judged by R39. The label is the characters
the body carries, absent where the length byte is 0xFF. -/
structure RawEntry where
  kind : Byte
  chassis : Word
  portNum : Half
  count : Byte
  width : Byte
  map : Byte
  polarity : Byte
  ask : Byte
  loop : Byte
  grade : Byte
  window : Half
  label : Option (List Byte)
  deriving DecidableEq, Repr

/-- A settings record as SETTINGS_WRITE carries it (R195). -/
structure RawSettings where
  discovery : Half
  consult : Byte
  farEndWait : Byte
  errThreshold : Half
  retrain : Byte
  sweepLimit : Byte
  sampling : Byte
  decimation : Byte
  attention : Byte
  deriving DecidableEq, Repr

/-- A lane control record as LANE_CONTROL carries it (R194). -/
structure RawControl where
  source : Byte
  pattern : Word
  flags : Byte
  check : Byte
  near : Byte
  far : Byte
  invert : Byte
  excluded : Byte
  deriving DecidableEq, Repr

/-- The body of LAYER_SET (R195): three enable flags, then three layer names, highest first. -/
structure RawLayers where
  base : Byte
  overlayA : Byte
  overlayB : Byte
  first : Byte
  second : Byte
  third : Byte
  deriving DecidableEq, Repr

/-- A figure of merit as the lane tap hands it on (R124): its value, and the number of the sweep whose request it answers, by which the
model ties the two (log entry 31). -/
structure Figure where
  sweep : Nat
  value : Byte
  deriving DecidableEq, Repr

/-- The commands: requests of the host, events of the lanes, expiries of timers, resets and bytes of the management line. -/
inductive Instr where
  -- resets and the management line
  | powerOn (rate1 rate0 : Bool)
  | pinReset (rate1 rate0 : Bool)
  | frameComplete (b : Byte)
  | gapTimerExpiry
  | replySent
  | unknownCode (code : Byte)
  -- requests owned by the management port
  | deviceInfo
  | setIdentity (chassis : Word) (base : Byte)
  | settingsWrite (r : RawSettings)
  | settingsRead
  -- requests owned by the Plan Store
  | planWrite (target port : Byte) (e : RawEntry)
  | backgroundWrite (e : RawEntry)
  | planFill (layer first count direction : Byte) (e : RawEntry)
  | planRead (target port : Byte)
  | layerSet (r : RawLayers)
  | layerRead
  | resolve (port : Byte)
  -- requests owned by a port controller or a lane engine
  | portStart (port mode : Byte)
  | portStep (port : Byte)
  | portStop (port : Byte)
  | portQuery (port : Byte)
  | laneQuery (port lane : Byte)
  | laneControl (port lane : Byte) (r : RawControl)
  | laneInject (port lane kind count : Byte)
  | consultAnswer (port : Byte) (chassis : Word) (portNum answer : Byte)
  -- counters and reports
  | counterRead (scope port lane : Byte)
  | counterWrite (scope port lane counter : Byte) (value : Word)
  | reportFetch (n : Byte)
  | reportMask (flags : Vector Byte 21)
  -- block resets and RESTART
  | planBlockReset
  | portBlockReset (port : Byte)
  | allPortsBlockReset
  | esuBlockReset
  | reportsBlockReset
  | countersBlockReset
  | restart
  -- events of the lanes and of the timers
  | beaconArrival (p : PortIx) (l : LanePos) (bytes : List Byte)
  | silenceTimerExpiry (p : PortIx) (l : LanePos)
  | discoveryTimerExpiry (p : PortIx)
  | consultTimerExpiry (p : PortIx)
  | farEndWaitExpiry (p : PortIx)
  | figureOfMerit (p : PortIx) (l : LanePos) (figure : Figure)
  | beaconTransmit (p : PortIx) (l : LanePos)
  | testBlockTransmit (p : PortIx) (l : LanePos)
  | watchdogExpiry (c : ChanIx)
  | patternLockLost (p : PortIx) (l : LanePos)
  | patternLockRegained (p : PortIx) (l : LanePos)
  | testBlockEnd (p : PortIx) (l : LanePos) (errors : Fin 1048577)
  | symbolError (p : PortIx) (l : LanePos)
  | monitorPeriodEnd
  | cleanRunExpiry (p : PortIx)
  | blockLockLost (p : PortIx) (l : LanePos)
  | blockLockRegained (p : PortIx) (l : LanePos)
  | recoveryTimerExpiry (p : PortIx) (l : LanePos)
  | intervalBoundary
  | managementByteReceived (b : Byte)
  deriving DecidableEq, Repr

end Sys2Proof
end

