-- ==== Sys2Proof/Decode.lean ====
section
/-! DEFINITION. The command a word spells by the bits of spec/opcode_table.json. -/

namespace Sys2Proof

/-- No row of spec/opcode_table.json gives bits (each row's "fields" is empty and none has a fixed pattern), so no word spells a
command by the table. The bytes of a host request are read by Machine/Requests.lean, from the layouts of R195. -/
def decodeTableWord (_nbits _w : Nat) : Option Instr := none

end Sys2Proof
end

