-- ==== Sys2Proof/Config.lean ====
section
/-! DEFINITION. What the spec fixes once for the part (its constants), and the values the spec leaves open (no body). -/

namespace Sys2Proof.Config

/-- The part code DEVICE_INFO returns (R178). -/
def partCode : Nat := 2408

/-- The revision number DEVICE_INFO returns (R178). -/
def revision : Nat := 1

/-- The silence timer of a listening lane, in ms (R7, R9). -/
def silenceMs : Nat := 20

/-- The recovery timer of a hunting lane, in ms (R156). -/
def recoveryMs : Nat := 100

/-- The watchdog of a sweep, in ms (R128). -/
def watchdogMs : Nat := 500

/-- The clean-run timer of an ACTIVE port, in ms (R154). -/
def cleanRunMs : Nat := 60000

/-- The inter-byte gap timer of the frame assembler, in ms (R170). -/
def gapMs : Nat := 10

/-- Pattern bits in one test block (R22). -/
def blockBits : Nat := 2 ^ 20

/-- Errors a SEARCHING block carries (R23). -/
def searchingErrors : Nat := 2 ^ 19

/-- The period of the PRBS (R22). -/
def prbsPeriod : Nat := 2 ^ 31 - 1

/-- Free value, log entry 4: the far-end flags byte of a LANE_QUERY reply on a lane that holds no far-end flags.
R194 gives the byte no presence mark and the spec gives it no value there. -/
opaque absentFarFlags : Nat → Byte

/-- Free value, log entry 5: which of several retrain triggers raised at one period end is taken first (R152: either may be). -/
opaque raceChoice : Nat → Nat

/-- Free value, log entry 28: the differences found in a test block within which the check correction changed. R24 reads the correction
afresh for every bit, and no rule says which bits of the block stood before the change. -/
opaque splitBlock : Nat → Nat

end Sys2Proof.Config
end

