-- ==== Sys2Proof/Machine/State.lean ====
section
/-! DEFINITION. The state of the part, as plain data, and its value after reset. Every enumeration lists its values in the order
its defining table names them, which is also the order of its codes on the wire (R189 item 2). -/

namespace Sys2Proof.Machine

/-! ### Enumerations -/

/-- A received or corrected polarity (R13, R18). -/
inductive Polarity | normal | inverted
  deriving DecidableEq, Repr

/-- The lane count L of a port or a beacon: 4 or 8 (R37, R1). -/
inductive LaneCount | four | eight
  deriving DecidableEq, Repr

/-- The stage codes, in the stage order DISC < WAIT < QUAL < READY (R4). -/
inductive Stage | disc | wait | qual | ready
  deriving DecidableEq, Repr

/-- The fault reasons of a port (R101, R189). -/
inductive FaultReason
  | noCable | unexpectedCable | splitCable | miswired | widthMismatch | dupLane | incomplete | mapDisallowed | polarity
  | rejected | consultTimeout | farEndStall | farEndFault | tuneFail | qualifyFail | unstable
  deriving DecidableEq, Repr

/-- The port states (R76, R189). -/
inductive PortState
  | idle | discover | dark | consult | verified | peerWait | awaitSlot | tune | qualify | handover | active | paused | manual
  | faulted
  deriving DecidableEq, Repr

/-- The modes of a port (R78). -/
inductive Mode | auto | step | verify | manual
  deriving DecidableEq, Repr

/-- The stages a paused port can have pending (R76, R83). -/
inductive PendingStage | peerWait | awaitSlot | qualify | handover
  deriving DecidableEq, Repr

/-- The cycle class of a port and of a queue entry (R100, R119). -/
inductive CycleClass | initial | retrain
  deriving DecidableEq, Repr

/-- The identity verdict (R66, R76). Its codes follow R76, which lists the values; the table of R66 names them in another order (log entry
39). -/
inductive Verdict | matching | mismatch | unplanned
  deriving DecidableEq, Repr

/-- The map class (R70). -/
inductive MapClass | straight | reversed | permuted
  deriving DecidableEq, Repr

/-- The width of a port (R69). -/
inductive Width | full | half
  deriving DecidableEq, Repr

/-- The kind of a plan entry (R37). -/
inductive EntryKind | empty | normal | unused | ask
  deriving DecidableEq, Repr

/-- The width policy of a plan entry (R37). -/
inductive WidthPolicy | fullOnly | halfOk
  deriving DecidableEq, Repr

/-- The map policy of a plan entry (R37). -/
inductive MapPolicy | straightOnly | reversalOk | anyOrder
  deriving DecidableEq, Repr

/-- The polarity policy of a plan entry (R37). -/
inductive PolarityPolicy | correct | refuse
  deriving DecidableEq, Repr

/-- The three plan layers (R41). -/
inductive LayerName | base | overlayA | overlayB
  deriving DecidableEq, Repr

/-- Where a resolved entry comes from (R49). -/
inductive Source | base | overlayA | overlayB | background
  deriving DecidableEq, Repr

/-- The owner of a lane (R17). -/
inductive Owner | part | switch
  deriving DecidableEq, Repr

/-- The receive states of a lane (R6). -/
inductive RxState | off | silent | locked | stable
  deriving DecidableEq, Repr

/-- The pattern lock states of a lane (R23). -/
inductive PatternLock | locked | searching
  deriving DecidableEq, Repr

/-- The transmit sources of a lane control record (R25). -/
inductive TxSource | beacon | prbs | pattern | quiet
  deriving DecidableEq, Repr

/-- The invert override of a lane control record (R18). -/
inductive InvertOverride | auto | forceNormal | forceInvert
  deriving DecidableEq, Repr

/-- The kinds of injection (R31). -/
inductive InjectKind | prbsErrors | badCheck
  deriving DecidableEq, Repr

/-- The result of a swept lane (R126). Its codes follow R122, which lists the values; the table of R126 names them in another order (log
entry 36). -/
inductive LaneResult | converged | edge | notConverged
  deriving DecidableEq, Repr

/-- The verdict of a qualify entry (R134, R141, R142). -/
inductive QualVerdict | pending | pass | fail
  deriving DecidableEq, Repr

/-- The sampling modes (R167). -/
inductive Sampling | live | sampled
  deriving DecidableEq, Repr

/-- The retrain window setting: OFF, 4, 5 or 6 (R176). -/
inductive RetrainWindow | off | four | five | six
  deriving DecidableEq, Repr

/-- The line rates in the order of the rate table (R195): 115200, 460800, 921600 and 3000000 bit/s. -/
inductive LineRate | r115200 | r460800 | r921600 | r3000000
  deriving DecidableEq, Repr

/-- The status codes of a reply (R189). -/
inductive Status
  | ok | badLength | unknownCode | badArgument | wrongState | layerEnabled | noIdentity | windowShort | notMatching | tooLate
  deriving DecidableEq, Repr

/-- The phases of the frame assembler (R170). -/
inductive AsmPhase | hunt | length | collect | check
  deriving DecidableEq, Repr

/-- The report kinds in the kind order of R189. -/
inductive ReportKind
  | portState | portFault | consult | consultWithdrawn | stagePause | laneSilent | identityChanged | neighbourChanged
  | loopEntered | loopLeft | planDrift | sweepDone | sweepTimeout | qualifyDone | widthReduced | retrain | lockBlip | linkLost
  | counterSaturated | intervalSummary | listOverflow
  deriving DecidableEq, Repr

/-- The events that withdraw a consult (R114). -/
inductive WithdrawEvent | silent | oneWay | excluded | identityChanged
  deriving DecidableEq, Repr

/-- The causes of a width reduction. R130 names SWEEP and R144 QUALIFY, and no one table both: the codes follow the rules' order (log
entry 40). -/
inductive WidthCause | sweep | qualify
  deriving DecidableEq, Repr

/-- The causes of a retrain (R153). -/
inductive RetrainCause | errorWindow | farEndRetrain
  deriving DecidableEq, Repr

/-- The outcomes of a qualification window (R145). -/
inductive QualOutcome | handover | halfHandover | failedAttempt
  deriving DecidableEq, Repr

/-! ### Lanes -/

/-- The identity a lane hears: the five identity fields of a beacon (Lane Signalling and Beacons, before R6). -/
structure Identity where
  chassis : Word
  portNum : Byte
  lane : LanePos
  count : LaneCount
  polarity : Polarity
  deriving DecidableEq, Repr

/-- The flags of a beacon other than FAULT, which stands with its reason (R1, R4). -/
structure BeaconFlags where
  hold : Bool
  retrain : Bool
  remoteFault : Bool
  loopReq : Bool
  deriving DecidableEq, Repr

/-- A far transmitter setting: the tap request part of a beacon (R1). -/
structure Taps where
  pre : Fin 8
  post : Fin 16
  deriving DecidableEq, Repr

/-- A beacon's fields. FAULT is set exactly when a reason is present (R2 item 4). -/
structure Beacon where
  chassis : Word
  portNum : Byte
  lane : LanePos
  count : LaneCount
  stage : Stage
  flags : BeaconFlags
  fault : Option FaultReason
  tap : Option Taps
  deriving DecidableEq, Repr

/-- The far-end stage, flags and fault reason a lane holds (R15). -/
structure FarEnd where
  stage : Stage
  flags : BeaconFlags
  fault : Option FaultReason
  deriving DecidableEq, Repr

/-- The receive record of a lane (Lane Signalling and Beacons, before R6), with the mark of a suspended receiver (R6). A timer
field holds the remaining ms of a running timer. -/
structure Receiver where
  state : RxState
  suspended : Bool
  goodRun : Nat
  badRun : Nat
  stabRun : Nat
  candidate : Option Identity
  lastStable : Option Identity
  silence : Option Nat
  far : Option FarEnd
  lockedFromSilent : Bool
  loopSeen : Bool
  loopRun : Nat
  noLoopRun : Nat
  deriving DecidableEq, Repr

/-- The lane control record (R25). -/
structure Control where
  source : TxSource
  pattern : Word
  sendLoopReq : Bool
  sendHold : Bool
  checkPrbs : Bool
  near : Bool
  far : Bool
  invert : InvertOverride
  excluded : Bool
  deriving DecidableEq, Repr

/-- The pending injection of a lane with its remaining count (R31). -/
structure Injection where
  kind : InjectKind
  remaining : Nat
  deriving DecidableEq, Repr

/-- The equalization settings of a lane (R34). -/
structure Equalization where
  gain : Fin 16
  pre : Fin 8
  post : Fin 16
  deriving DecidableEq, Repr

/-- Where the first pattern bit of a block in hand stands (R22, R23, log entry 33): still to come, behind the beacon that follows the
sender's block; behind a beacon heard on the line; at the beginning of a block the lane itself sent into its near-end loopback; or
astride, anywhere in what the sender sends, so that it may have come at once. -/
inductive BlockStart | between | line | loop | astride
  deriving DecidableEq, Repr

/-- The PRBS checker of a lane (R22, R23, R24): not counting; counting but still before the first interleaved beacon; or at a block to
be counted, with its start, the mark that pattern lock was SEARCHING at some moment since that start, and the check correction of
all its bits so far, or none where that has changed since. While the start is still to come, mark and correction run from the end of
the block before. -/
inductive Checker | off | waiting | block (start : BlockStart) (searching : Bool) (correction : Option Polarity)
  deriving DecidableEq, Repr

/-- The handover settings the lane engine last passed to the lane tap (R18). -/
structure Handover where
  logical : Option LanePos
  correction : Polarity
  eq : Equalization
  deriving DecidableEq, Repr

/-- A running recovery hunt: the recovery timer's remaining ms, and whether a beacon was heard during the hunt (R156, R159). -/
structure Hunt where
  remaining : Nat
  heard : Bool
  deriving DecidableEq, Repr

/-- The monitor record of a lane (R149). The history holds true for an errored period, newest first; the recovery state is
HUNTING exactly while a hunt is held. -/
structure Monitor where
  errors : Nat
  history : List Bool
  hunt : Option Hunt
  deriving DecidableEq, Repr

/-- A counter: its live value, its snapshot of the last boundary and its saturation mark (R163, R167). -/
structure Counter where
  live : Nat
  snap : Nat
  mark : Bool
  deriving DecidableEq, Repr

/-- A lane engine. `gen` is the place of the PRBS generator in its sequence while the lane transmits the PRBS (R22), `block` the
test block last begun and not yet checked through a near-end loop (true: its first bit was complemented, R32), `sent` the bytes
of the beacon last begun or looped on the line, `tap` what the lane tap was last given. The seven counters stand in the order of
R161. -/
structure Lane where
  owner : Owner
  rx : Receiver
  control : Control
  injection : Option Injection
  eq : Equalization
  patternLock : PatternLock
  checker : Checker
  autoLoop : Bool
  gen : Option Nat
  block : Option Bool
  sent : Option (List Byte)
  tap : Option Handover
  monitor : Monitor
  counters : Vector Counter 7
  deriving DecidableEq, Repr

/-! ### The plan -/

/-- A stored plan entry (R37). An absent expected chassis or port number is ANY. -/
structure PlanEntry where
  kind : EntryKind
  chassis : Option Word
  portNum : Option Byte
  count : LaneCount
  width : WidthPolicy
  map : MapPolicy
  polarity : PolarityPolicy
  ask : Bool
  loop : Bool
  grade : Nat
  window : Nat
  label : Option (List Byte)
  deriving DecidableEq, Repr

/-- One plan layer: an entry per port and the enable flag (R41). -/
structure Layer where
  entries : Vector PlanEntry 24
  enabled : Bool
  deriving DecidableEq, Repr

/-- The Plan Store: three layers, the layer order (highest first) and the background entry (R41, R42). -/
structure Plan where
  base : Layer
  overlayA : Layer
  overlayB : Layer
  order : List LayerName
  background : PlanEntry
  deriving DecidableEq, Repr

/-- A resolved entry with its source: a port's snapshot (R51). -/
structure Snapshot where
  entry : PlanEntry
  source : Source
  deriving DecidableEq, Repr

/-! ### Ports -/

/-- A neighbour: the remote (chassis identity, port number) (R65). -/
structure Neighbour where
  chassis : Word
  portNum : Byte
  deriving DecidableEq, Repr

/-- One lane map entry (R73). -/
structure MapEntry where
  remote : Option LanePos
  polarity : Polarity
  logical : Option LanePos
  deriving DecidableEq, Repr

/-- The stage timer while it is not none: its remaining ms, and whether it is halted (R77, R30). -/
structure StageTimer where
  remaining : Nat
  halted : Bool
  deriving DecidableEq, Repr

/-- One entry of the qualify record (R134). -/
structure QualEntry where
  pos : LanePos
  logical : LanePos
  blocks : Nat
  errors : Nat
  grade : Option Nat
  bound : Bool
  verdict : QualVerdict
  deriving DecidableEq, Repr

/-- The qualify record: the window-begun mark, and an entry per lane mapped at the entry into QUALIFY (R134). -/
structure QualRecord where
  begun : Bool
  entries : List QualEntry
  deriving DecidableEq, Repr

/-- One entry of the handover record: the READY run and the READY sent count of a mapped lane (R92). -/
structure HandEntry where
  pos : LanePos
  readyRun : Nat
  sent : Nat
  deriving DecidableEq, Repr

/-- The handover record (R92). -/
structure HandRecord where
  closing : Bool
  entries : List HandEntry
  deriving DecidableEq, Repr

/-- The port record (R76) with the port's eight lane engines. The three counters stand in the order of R162: ATTEMPTS, RETRAINS,
FAULTS. -/
structure Port where
  state : PortState
  mode : Mode
  pending : Option PendingStage
  fault : Option FaultReason
  snapshot : Option Snapshot
  neighbour : Option Neighbour
  verdict : Option Verdict
  accepted : Bool
  map : Vector MapEntry 8
  mapClass : Option MapClass
  width : Option Width
  cycle : CycleClass
  attempts : Nat
  unstable : Nat
  stageTimer : Option StageTimer
  cleanRun : Option Nat
  channel : Option ChanIx
  qualify : Option QualRecord
  handover : Option HandRecord
  counters : Vector Counter 3
  lanes : Vector Lane 8
  deriving DecidableEq, Repr

/-! ### The Equalization Sweep Unit -/

/-- A point of the sweep grid (R123). -/
structure Point where
  gain : Fin 16
  pre : Fin 8
  post : Fin 16
  deriving DecidableEq, Repr

/-- A best point with its figure of merit (R124). -/
structure Best where
  point : Point
  figure : Byte
  deriving DecidableEq, Repr

/-- Where a lane's walk stands (R123, R125): waiting for the settle beacon, waiting for the figure asked for, waiting for the
beacon that carries the best far setting, or finished. -/
inductive SweepPhase | settle | measure | closing | finished
  deriving DecidableEq, Repr

/-- One lane of a sweep record (R122). -/
structure SweepLane where
  pos : LanePos
  logical : LanePos
  phase : SweepPhase
  point : Point
  measured : Nat
  best : Option Best
  result : Option LaneResult
  deriving DecidableEq, Repr

/-- A sweep record, with the remaining ms of its channel's watchdog; the lanes in ascending logical lane (R122). `number` counts the
grants before it: a figure of merit answers a request of the sweep of that number (R124, log entry 31). -/
structure Sweep where
  number : Nat
  port : PortIx
  channel : ChanIx
  start : Word
  watchdog : Nat
  lanes : List SweepLane
  deriving DecidableEq, Repr

/-- An entry of the wait queue (R119). -/
structure QueueEntry where
  port : PortIx
  cycle : CycleClass
  deriving DecidableEq, Repr

/-- The ESU: four channels, busy exactly where a record is held, and the wait queue, head first (R117, R119). `grants` is the model's
own: the number of grants so far, which no reset takes back (log entry 31). -/
structure Esu where
  channels : Vector (Option Sweep) 4
  queue : List QueueEntry
  grants : Nat
  deriving DecidableEq, Repr

/-! ### Reports -/

/-- The detail of a report, one constructor per kind, in the kind order of R189. -/
inductive Detail where
  | portState (left entered : PortState) (pending : Option PendingStage) (fault : Option FaultReason) (cycle : CycleClass)
      (attempts : Nat)
  | portFault (reason : FaultReason) (left : PortState) (neighbour : Option Neighbour)
  | consult (neighbour : Option Neighbour) (verdict : Option Verdict) (source : Source) (label : Option (List Byte))
      (mapClass : Option MapClass) (width : Option Width) (inverted : Nat)
  | consultWithdrawn (event : WithdrawEvent) (neighbour : Option Neighbour)
  | stagePause (pending : PendingStage)
  | laneSilent
  | identityChanged (earlier new : Identity)
  | neighbourChanged (earlier new : Identity)
  | loopEntered
  | loopLeft
  | planDrift (darkness laneCount neighbourDrift : Bool) (old : Snapshot) (new : Snapshot) (state : PortState)
      (neighbour : Option Neighbour)
  | sweepDone (channel : ChanIx) (elapsed : Nat) (lanes : List SweepLane)
  | sweepTimeout (channel : ChanIx) (lanes : List SweepLane)
  | qualifyDone (deciding : Option (LanePos × LanePos)) (grade window ceiling : Nat) (cycle : CycleClass) (attempts : Nat)
      (entries : List QualEntry) (outcome : QualOutcome)
  | widthReduced (cause : WidthCause) (dropped : List LanePos)
  | retrain (cause : RetrainCause) (pos : LanePos) (logical : Option LanePos) (window : Option (RetrainWindow × List Bool))
      (unstable : Nat) (width : Option Width)
  | lockBlip (elapsed : Nat)
  | linkLost (lastStable : Option Identity) (others : List (LanePos × Bool)) (heard : Bool)
  | counterSaturated (counter : Nat) (marks : List Bool)
  | intervalSummary (interval : Word) (active faulted lanes : Nat)
  | listOverflow (dropped : Nat) (kind : ReportKind) (port : Option PortIx) (lane : Option LanePos)
  deriving DecidableEq, Repr

/-- A report as a block posts it: port and lane where it has them, and its detail, which fixes its kind (R181). -/
structure Report where
  port : Option PortIx
  lane : Option LanePos
  detail : Detail
  deriving DecidableEq, Repr

/-- A record of the report list: the report, the time it was entered and its repeat count (R181). -/
structure Record where
  report : Report
  time : Word
  count : Nat
  deriving DecidableEq, Repr

/-- The report list, oldest record first, and the mask in kind order (true: masked) (R181, R182). -/
structure ReportList where
  records : List Record
  mask : Vector Bool 21
  deriving DecidableEq, Repr

/-! ### The management port and the Time Base -/

/-- The frame assembler: its phase, the held length, the bytes stored since the length byte, and the gap timer's remaining ms
(R170). -/
structure Assembler where
  phase : AsmPhase
  length : Nat
  bytes : List Byte
  gap : Option Nat
  deriving DecidableEq, Repr

/-- How far a request in the buffer has come (R172): not yet handed on, with its owner, or answered. -/
inductive EntryPhase | waiting | handed | answered (status : Status) (body : List Byte)
  deriving DecidableEq, Repr

/-- A request in the request buffer (R172). -/
structure BufEntry where
  code : Byte
  tag : Byte
  body : List Byte
  phase : EntryPhase
  deriving DecidableEq, Repr

/-- A reply the MPT has begun to send (R172, R190). The tag is absent where the request reached its owner without a frame. -/
structure Reply where
  code : Byte
  tag : Option Byte
  status : Status
  overrun : Bool
  body : List Byte
  deriving DecidableEq, Repr

/-- The management port: assembler, request buffer (oldest first), overrun flag, the counters FRAMES_BAD and OVERRUNS, the line
rate sampled from the straps, and the reply last begun on MTXD. -/
structure Mpt where
  asm : Assembler
  buffer : List BufEntry
  overrun : Bool
  counters : Vector Counter 2
  rate : LineRate
  line : Option Reply
  deriving DecidableEq, Repr

/-- The settings record (R176). Timeouts in s. -/
structure Settings where
  discovery : Nat
  consult : Nat
  farEndWait : Nat
  errThreshold : Nat
  retrain : RetrainWindow
  sweepLimit : Nat
  sampling : Sampling
  decimation : Nat
  attention : Bool
  deriving DecidableEq, Repr

/-- The local identity (R175). -/
structure LocalId where
  chassis : Word
  base : Byte
  deriving DecidableEq, Repr

/-- The Time Base: the millisecond clock and the interval count (R166, The Time Base). -/
structure TimeBase where
  clock : Word
  interval : Word
  deriving DecidableEq, Repr

/-- The whole part, and the queue of commands that are waiting. `attn` is the attention pin (true: ATTN_N asserted, R187).
`countdown` is the summary countdown (R168). `deferred` is the model's own: the COUNTER_SATURATED reports of the event being
taken, posted after its other reports (R163), and empty between commands. `freeIx` is the model's own: the number of free values
used so far. `pending` is the command queue, front first. -/
structure State where
  ports : Vector Port 24
  plan : Plan
  esu : Esu
  reports : ReportList
  mpt : Mpt
  time : TimeBase
  settings : Settings
  identity : Option LocalId
  countdown : Nat
  attn : Bool
  deferred : List Report
  freeIx : Nat
  pending : List Instr
  deriving DecidableEq, Repr

/-! ### Stops -/

/-- The faults of a step. The spec gives every command of the table an effect in every state, so no step of this part faults. -/
inductive Fault
  deriving DecidableEq, Repr

/-- The refusals of a step. -/
inductive Refusal where
  /-- Raised by an arm of exec whose command has no meaning yet; no arm does. Safe: the run stops. -/
  | notModelled (mnemonic : String)
  deriving DecidableEq, Repr

/-! ### Reset values -/

/-- A cleared counter (R169). -/
def Counter.zero : Counter := { live := 0, snap := 0, mark := false }

/-- The receive record of a lane that is OFF (R6). -/
def Receiver.off : Receiver :=
  { state := .off, suspended := false, goodRun := 0, badRun := 0, stabRun := 0, candidate := none, lastStable := none,
    silence := none, far := none, lockedFromSilent := false, loopSeen := false, loopRun := 0, noLoopRun := 0 }

/-- The lane control record after power-on (R25). -/
def Control.reset : Control :=
  { source := .beacon, pattern := 0, sendLoopReq := false, sendHold := false, checkPrbs := false, near := false, far := false,
    invert := .auto, excluded := false }

/-- The equalization settings after power-on (R34). -/
def Equalization.reset : Equalization := { gain := 8, pre := 0, post := 0 }

/-- The monitor record in its cleared form (R149). -/
def Monitor.cleared : Monitor := { errors := 0, history := [], hunt := none }

/-- A lane engine after power-on (R6, R17, R23, R25, R31, R34, R149, R169). -/
def Lane.reset : Lane :=
  { owner := .part, rx := .off, control := .reset, injection := none, eq := .reset, patternLock := .searching, checker := .off,
    autoLoop := false, gen := none, block := none, sent := none, tap := none, monitor := .cleared,
    counters := Vector.replicate 7 .zero }

/-- An empty lane map entry (R56, R75). -/
def MapEntry.empty : MapEntry := { remote := none, polarity := .normal, logical := none }

/-- A port after power-on (R105, R75). -/
def Port.reset : Port :=
  { state := .idle, mode := .auto, pending := none, fault := none, snapshot := none, neighbour := none, verdict := none,
    accepted := false, map := Vector.replicate 8 .empty, mapClass := none, width := none, cycle := .initial, attempts := 0,
    unstable := 0, stageTimer := none, cleanRun := none, channel := none, qualify := none, handover := none,
    counters := Vector.replicate 3 .zero, lanes := Vector.replicate 8 .reset }

/-- The background entry of the reset plan (R55 item 4). -/
def PlanEntry.resetBackground : PlanEntry :=
  { kind := .ask, chassis := none, portNum := none, count := .eight, width := .fullOnly, map := .anyOrder, polarity := .correct,
    ask := false, loop := false, grade := 48, window := 4096, label := none }

/-- A layer entry of the reset plan: EMPTY, its other fields those of the background entry (R55). -/
def PlanEntry.resetEmpty : PlanEntry := { PlanEntry.resetBackground with kind := .empty }

/-- A layer of the reset plan (R55). -/
def Layer.reset : Layer := { entries := Vector.replicate 24 .resetEmpty, enabled := false }

/-- The reset plan (R55). -/
def Plan.reset : Plan :=
  { base := .reset, overlayA := .reset, overlayB := .reset, order := [.overlayB, .overlayA, .base],
    background := .resetBackground }

/-- The ESU after power-on (R117). -/
def Esu.reset : Esu := { channels := Vector.replicate 4 none, queue := [], grants := 0 }

/-- The report list after power-on (R188). -/
def ReportList.reset : ReportList := { records := [], mask := Vector.replicate 21 false }

/-- The frame assembler in HUNT (R170). -/
def Assembler.hunting : Assembler := { phase := .hunt, length := 0, bytes := [], gap := none }

/-- The management port after power-on at a line rate (R172, R173, R180). -/
def Mpt.reset (rate : LineRate) : Mpt :=
  { asm := .hunting, buffer := [], overrun := false, counters := Vector.replicate 2 .zero, rate := rate, line := none }

/-- The settings record after power-on (R176). -/
def Settings.reset : Settings :=
  { discovery := 10, consult := 30, farEndWait := 5, errThreshold := 16, retrain := .five, sweepLimit := 4, sampling := .live,
    decimation := 0, attention := true }

/-- The part after power-on with the straps at a line rate (R180), its command queue empty. -/
def State.powerOn (rate : LineRate) : State :=
  { ports := Vector.replicate 24 .reset, plan := .reset, esu := .reset, reports := .reset, mpt := .reset rate,
    time := { clock := 0, interval := 0 }, settings := .reset, identity := none, countdown := 0, attn := false, deferred := [],
    freeIx := 0, pending := [] }

/-- The machine right after reset. The straps' levels are the board's: RATE1 = RATE0 = 0 here (log entry 1). -/
def State.reset : State := State.powerOn .r115200

end Sys2Proof.Machine
end

