-- ==== Sys2Proof/Machine/Bytes.lean ====
section
/-! DEFINITION. Byte order, runs, optional fields and the CRC-16 of frames and beacons (R3, R189). -/

namespace Sys2Proof.Machine

/-- A number as one byte. -/
def byte (n : Nat) : Byte := BitVec.ofNat 8 n

/-- A number in two bytes, most significant first (R189 item 1). -/
def be16 (n : Nat) : List Byte := [byte (n / 256), byte n]

/-- A number in four bytes, most significant first (R189 item 1). -/
def be32 (n : Nat) : List Byte := be16 (n / 65536) ++ be16 n

/-- A number in eight bytes, most significant first (R189 item 1). -/
def be64 (n : Nat) : List Byte := be32 (n / 4294967296) ++ be32 n

/-- The number a run of bytes carries, most significant first (R189 item 1). -/
def ofBytes (bs : List Byte) : Nat := bs.foldl (fun n b => n * 256 + b.toNat) 0

/-- A yes or no field (R189 item 2). -/
def boolByte (b : Bool) : Byte := if b then 1 else 0

/-- An optional field: a presence byte, then the field where present (R189 item 4). -/
def optBytes {α : Type} (f : α → List Byte) : Option α → List Byte
  | none => [0]
  | some a => 1 :: f a

/-- A list of varying length: a count byte, then the entries (R189 item 5). -/
def listBytes {α : Type} (f : α → List Byte) (xs : List α) : List Byte := byte xs.length :: xs.flatMap f

/-- A label: its length byte and characters, or 0xFF where absent (R189 item 6). -/
def labelBytes : Option (List Byte) → List Byte
  | none => [0xFF]
  | some t => byte t.length :: t

/-- A run as it is shown: the count, stopping at 255 (R189 item 7). -/
def runByte (n : Nat) : Byte := byte (min n 255)

/-- One bit through the CRC-16 with polynomial x^16 + x^12 + x^5 + 1 (R3). -/
def crcBit (c : Half) (b : Bool) : Half := if c.msb ^^ b then (c <<< 1) ^^^ 0x1021 else c <<< 1

/-- One byte through the CRC, most significant bit first (R3). -/
def crcByte (c : Half) (x : Byte) : Half := [7, 6, 5, 4, 3, 2, 1, 0].foldl (fun c i => crcBit c (x.getLsbD i)) c

/-- The CRC-16 of a run of bytes, initial value 0xFFFF, no final inversion (R3). -/
def crc16 (bs : List Byte) : Half := bs.foldl crcByte 0xFFFF

/-- The two check bytes of a run, most significant first (R3). -/
def checkBytes (bs : List Byte) : List Byte := be16 (crc16 bs).toNat

end Sys2Proof.Machine
end

