-- ==== Sys2Proof/Machine/Ops.lean ====
section
/-! DEFINITION. The named operations over the state: reading and writing ports and lanes, posting reports (R182 to R184), counting
(R161 to R163), the attention pin (R187), and what every command does at its beginning and end. -/

namespace Sys2Proof.Machine

/-- What a step of this part answers. -/
abbrev Result := Host.Outcome State Fault Refusal

/-- The eight lane positions in ascending order. -/
def allLanes : List LanePos := [0, 1, 2, 3, 4, 5, 6, 7]

/-- The 24 port indexes in ascending order. -/
def allPorts : List PortIx := [0, 1, 2, 3, 4, 5, 6, 7, 8, 9, 10, 11, 12, 13, 14, 15, 16, 17, 18, 19, 20, 21, 22, 23]

/-! ### Ports and lanes -/

/-- The lane engine at a position of a port. -/
def Port.lane (x : Port) (l : LanePos) : Lane := x.lanes[l]

/-- The port with one lane engine replaced. -/
def Port.setLane (x : Port) (l : LanePos) (y : Lane) : Port := { x with lanes := x.lanes.set l y }

/-- The port with one lane engine changed. -/
def Port.modLane (x : Port) (l : LanePos) (f : Lane → Lane) : Port := x.setLane l (f (x.lane l))

/-- The port with every lane engine changed, each according to its position. -/
def Port.mapLanes (x : Port) (f : LanePos → Lane → Lane) : Port :=
  { x with lanes := Vector.ofFn fun l : LanePos => f l (x.lane l) }

/-- The record of a port. -/
def State.port (s : State) (p : PortIx) : Port := s.ports[p]

/-- The state with one port record replaced. -/
def State.setPort (s : State) (p : PortIx) (x : Port) : State := { s with ports := s.ports.set p x }

/-- The state with one port record changed. -/
def State.modPort (s : State) (p : PortIx) (f : Port → Port) : State := s.setPort p (f (s.port p))

/-- The state with every port record changed, each according to its index. -/
def State.mapPorts (s : State) (f : PortIx → Port → Port) : State :=
  { s with ports := Vector.ofFn fun p : PortIx => f p (s.port p) }

/-- The lane engine at a position of a port. -/
def State.lane (s : State) (p : PortIx) (l : LanePos) : Lane := (s.port p).lane l

/-- The state with one lane engine changed. -/
def State.modLane (s : State) (p : PortIx) (l : LanePos) (f : Lane → Lane) : State := s.modPort p (·.modLane l f)

/-- The state with the settings record replaced. -/
def State.setSettings (s : State) (x : Settings) : State := { s with settings := x }

/-- The state with the Plan Store replaced. -/
def State.setPlan (s : State) (x : Plan) : State := { s with plan := x }

/-- The state with the ESU replaced. -/
def State.setEsu (s : State) (x : Esu) : State := { s with esu := x }

/-- The state with the report list replaced. -/
def State.setReports (s : State) (x : ReportList) : State := { s with reports := x }

/-- The state with the management port replaced. -/
def State.setMpt (s : State) (x : Mpt) : State := { s with mpt := x }

/-! ### Reports -/

/-- The kind of a report, from its detail. -/
def Detail.kind : Detail → ReportKind
  | .portState .. => .portState
  | .portFault .. => .portFault
  | .consult .. => .consult
  | .consultWithdrawn .. => .consultWithdrawn
  | .stagePause .. => .stagePause
  | .laneSilent => .laneSilent
  | .identityChanged .. => .identityChanged
  | .neighbourChanged .. => .neighbourChanged
  | .loopEntered => .loopEntered
  | .loopLeft => .loopLeft
  | .planDrift .. => .planDrift
  | .sweepDone .. => .sweepDone
  | .sweepTimeout .. => .sweepTimeout
  | .qualifyDone .. => .qualifyDone
  | .widthReduced .. => .widthReduced
  | .retrain .. => .retrain
  | .lockBlip .. => .lockBlip
  | .linkLost .. => .linkLost
  | .counterSaturated .. => .counterSaturated
  | .intervalSummary .. => .intervalSummary
  | .listOverflow .. => .listOverflow

/-- The kind of a report. -/
def Report.kind (r : Report) : ReportKind := r.detail.kind

/-- The place of a kind in the kind order (R189). -/
def ReportKind.index : ReportKind → Fin 21
  | .portState => 0 | .portFault => 1 | .consult => 2 | .consultWithdrawn => 3 | .stagePause => 4 | .laneSilent => 5
  | .identityChanged => 6 | .neighbourChanged => 7 | .loopEntered => 8 | .loopLeft => 9 | .planDrift => 10 | .sweepDone => 11
  | .sweepTimeout => 12 | .qualifyDone => 13 | .widthReduced => 14 | .retrain => 15 | .lockBlip => 16 | .linkLost => 17
  | .counterSaturated => 18 | .intervalSummary => 19 | .listOverflow => 20

/-- Two reports of one kind, port and lane, which coalesce (R183). -/
def Report.sameKey (r q : Report) : Bool := decide (r.kind = q.kind ∧ r.port = q.port ∧ r.lane = q.lane)

/-- An ordinary record: any but LIST_OVERFLOW (R181). -/
def Record.ordinary (x : Record) : Bool := decide (x.report.kind ≠ .listOverflow)

/-- A kind is masked (R182). -/
def ReportList.masked (l : ReportList) (k : ReportKind) : Bool := l.mask[k.index]

/-- A record after a report has coalesced into it (R183). -/
def Record.absorb (x : Record) (r : Report) : Record :=
  { x with report := { x.report with detail := r.detail }, count := min (x.count + 1) 255 }

/-- The LIST_OVERFLOW report of a first loss (R184). -/
def overflowReport (dropped : Nat) (r : Report) : Report :=
  { port := none, lane := none, detail := .listOverflow dropped r.kind r.port r.lane }

/-- An overflow record after a further loss; any other record unchanged (R184). -/
def Record.addLoss (x : Record) (r : Report) : Record :=
  match x.report.detail with
  | .listOverflow d _ _ _ => { x with report := overflowReport (min (d + 1) 65535) r }
  | _ => x

/-- A report lost for want of room (R184). -/
def ReportList.lose (l : ReportList) (clock : Word) (r : Report) : ReportList :=
  if l.masked .listOverflow then l
  else if l.records.all Record.ordinary then
    { l with records := l.records ++ [{ report := overflowReport 1 r, time := clock, count := 1 }] }
  else { l with records := l.records.map (·.addLoss r) }

/-- A report that reaches the list: masked, coalesced, appended or lost (R182, R183, R184). -/
def ReportList.enter (l : ReportList) (clock : Word) (r : Report) : ReportList :=
  if l.masked r.kind then l
  else if l.records.any (fun x => x.ordinary && x.report.sameKey r) then
    { l with records := l.records.map fun x => if x.ordinary && x.report.sameKey r then x.absorb r else x }
  else if (l.records.filter Record.ordinary).length < 63 then
    { l with records := l.records ++ [{ report := r, time := clock, count := 1 }] }
  else l.lose clock r

/-- A block posts a report; the Report List stamps it with the clock (R181). -/
def State.post (s : State) (r : Report) : State := s.setReports (s.reports.enter s.time.clock r)

/-- A port's report without a lane. -/
def State.postPort (s : State) (p : PortIx) (d : Detail) : State := s.post { port := some p, lane := none, detail := d }

/-- A port's report with a lane. -/
def State.postLane (s : State) (p : PortIx) (l : LanePos) (d : Detail) : State :=
  s.post { port := some p, lane := some l, detail := d }

/-- A COUNTER_SATURATED report kept back until the other reports of its event have been posted (R163). Several of one event stand in the
order in which their counters counted (log entry 38). -/
def State.deferReport (s : State) (r : Report) : State := { s with deferred := s.deferred ++ [r] }

/-! ### Counters -/

/-- The maximum of a lane counter, in the order of R161. -/
def laneCounterMax (i : Fin 7) : Nat :=
  if i.val = 1 ∨ 5 ≤ i.val then 65535 else 4294967295

/-- The maximum of a port or management counter (R162). -/
def shortCounterMax : Nat := 65535

/-- The lane counters by name (R161). -/
def ctrBeaconGood : Fin 7 := 0
def ctrBeaconBad : Fin 7 := 1
def ctrPrbsErr : Fin 7 := 2
def ctrPrbsBlocks : Fin 7 := 3
def ctrSymbolErr : Fin 7 := 4
def ctrErrPeriods : Fin 7 := 5
def ctrLockLoss : Fin 7 := 6

/-- The port counters by name (R162). -/
def ctrAttempts : Fin 3 := 0
def ctrRetrains : Fin 3 := 1
def ctrFaults : Fin 3 := 2

/-- The management counters by name, numbered within their scope (R162, R195, log entry 42). -/
def ctrFramesBad : Fin 2 := 0
def ctrOverruns : Fin 2 := 1

/-- A counting event leaves this counter at its maximum with its mark clear (R163). -/
def Counter.saturates (c : Counter) (maximum amount : Nat) : Bool := decide (maximum ≤ c.live + amount) && !c.mark

/-- A counter after a counting event: it stops at its maximum and keeps or sets its mark (R163). -/
def Counter.bump (c : Counter) (maximum amount : Nat) : Counter :=
  { c with live := min maximum (c.live + amount), mark := c.mark || c.saturates maximum amount }

/-- A counter after COUNTER_WRITE (R165). -/
def Counter.write (v : Nat) : Counter := { live := v, snap := v, mark := false }

/-- A counter after an interval boundary (R167). -/
def Counter.sample (c : Counter) : Counter := { c with snap := c.live }

/-- A counting event on a lane counter, with its COUNTER_SATURATED report kept back (R161, R163). -/
def State.countLane (s : State) (p : PortIx) (l : LanePos) (i : Fin 7) (amount : Nat) : State :=
  let c := (s.lane p l).counters[i]
  let t := s.modLane p l fun x => { x with counters := x.counters.set i (c.bump (laneCounterMax i) amount) }
  if c.saturates (laneCounterMax i) amount then
    t.deferReport
      { port := some p, lane := some l, detail := .counterSaturated i.val ((t.lane p l).counters.toList.map Counter.mark) }
  else t

/-- A counting event on a port counter (R162, R163). -/
def State.countPort (s : State) (p : PortIx) (i : Fin 3) : State :=
  let c := (s.port p).counters[i]
  let t := s.modPort p fun x => { x with counters := x.counters.set i (c.bump shortCounterMax 1) }
  if c.saturates shortCounterMax 1 then
    t.deferReport { port := some p, lane := none, detail := .counterSaturated i.val ((t.port p).counters.toList.map Counter.mark) }
  else t

/-- A counting event on a management counter (R162, R163). Its report numbers the counter within its scope (log entry 42). -/
def State.countMpt (s : State) (i : Fin 2) : State :=
  let c := s.mpt.counters[i]
  let t := s.setMpt { s.mpt with counters := s.mpt.counters.set i (c.bump shortCounterMax 1) }
  if c.saturates shortCounterMax 1 then
    t.deferReport { port := none, lane := none, detail := .counterSaturated i.val (t.mpt.counters.toList.map Counter.mark) }
  else t

/-! ### The frame of every command -/

/-- The attention pin is to be asserted (R187). -/
def State.attention (s : State) : Bool := s.settings.attention && !s.reports.records.isEmpty

/-- The beginning of a command: no COUNTER_SATURATED report of an earlier event is kept back. -/
def State.opened (s : State) : State := { s with deferred := [] }

/-- The reports kept back are posted, after every other report of the event (R163), in the order they were kept back (log entry 38). -/
def State.flushed (s : State) : State := { s.deferred.foldl State.post s with deferred := [] }

/-- The attention pin follows the report list and the setting at once (R187). -/
def State.pinned (s : State) : State := { s with attn := s.attention }

/-- The end of a command. -/
def State.closed (s : State) : State := s.flushed.pinned

/-- A command whose whole effect is a change of the state. -/
def State.done (s : State) : Result := .next s.closed

/-- A free value's number is used up (log entries 4, 5 and 28). -/
def State.useFree (s : State) : State := { s with freeIx := s.freeIx + 1 }

end Sys2Proof.Machine
end

