-- ==== Sys2Proof/Machine/Operands.lean ====
section
/-! DEFINITION. Operand forms: the code of every enumerated value on the wire (R189 item 2), and the judging of the fields a request
carries against their legal sets (R25, R39, R40, R43, R48, R176). -/

namespace Sys2Proof.Machine

/-! ### Codes of enumerated values (R189 item 2) -/

/-- The code of a value on the wire. -/
def Polarity.code (x : Polarity) : Byte := byte x.ctorIdx

/-- The code of a value on the wire. -/
def Stage.code (x : Stage) : Byte := byte x.ctorIdx

/-- The code of a value on the wire. -/
def FaultReason.code (x : FaultReason) : Byte := byte x.ctorIdx

/-- The code of a value on the wire. -/
def PortState.code (x : PortState) : Byte := byte x.ctorIdx

/-- The code of a value on the wire. -/
def Mode.code (x : Mode) : Byte := byte x.ctorIdx

/-- The code of a value on the wire (R76). -/
def PendingStage.code (x : PendingStage) : Byte := byte x.ctorIdx

/-- The code of a value on the wire. -/
def CycleClass.code (x : CycleClass) : Byte := byte x.ctorIdx

/-- The code of a value on the wire. -/
def Verdict.code (x : Verdict) : Byte := byte x.ctorIdx

/-- The code of a value on the wire. -/
def MapClass.code (x : MapClass) : Byte := byte x.ctorIdx

/-- The code of a value on the wire. -/
def Width.code (x : Width) : Byte := byte x.ctorIdx

/-- The code of a value on the wire. -/
def EntryKind.code (x : EntryKind) : Byte := byte x.ctorIdx

/-- The code of a value on the wire. -/
def WidthPolicy.code (x : WidthPolicy) : Byte := byte x.ctorIdx

/-- The code of a value on the wire. -/
def MapPolicy.code (x : MapPolicy) : Byte := byte x.ctorIdx

/-- The code of a value on the wire. -/
def PolarityPolicy.code (x : PolarityPolicy) : Byte := byte x.ctorIdx

/-- The code of a value on the wire. -/
def LayerName.code (x : LayerName) : Byte := byte x.ctorIdx

/-- The code of a value on the wire. -/
def Source.code (x : Source) : Byte := byte x.ctorIdx

/-- The code of a value on the wire. -/
def Owner.code (x : Owner) : Byte := byte x.ctorIdx

/-- The code of a value on the wire. -/
def RxState.code (x : RxState) : Byte := byte x.ctorIdx

/-- The code of a value on the wire. -/
def PatternLock.code (x : PatternLock) : Byte := byte x.ctorIdx

/-- The code of a value on the wire. -/
def TxSource.code (x : TxSource) : Byte := byte x.ctorIdx

/-- The code of a value on the wire. -/
def InvertOverride.code (x : InvertOverride) : Byte := byte x.ctorIdx

/-- The code of a value on the wire. -/
def InjectKind.code (x : InjectKind) : Byte := byte x.ctorIdx

/-- The code of a value on the wire. -/
def LaneResult.code (x : LaneResult) : Byte := byte x.ctorIdx

/-- The code of a value on the wire (the order PENDING, PASS, FAIL is log entry 9). -/
def QualVerdict.code (x : QualVerdict) : Byte := byte x.ctorIdx

/-- The code of a value on the wire. -/
def Sampling.code (x : Sampling) : Byte := byte x.ctorIdx

/-- The code of a value on the wire. -/
def LineRate.code (x : LineRate) : Byte := byte x.ctorIdx

/-- The code of a value on the wire. -/
def Status.code (x : Status) : Byte := byte x.ctorIdx

/-- The code of a value on the wire. -/
def ReportKind.code (x : ReportKind) : Byte := byte x.ctorIdx

/-- The code of a value on the wire. -/
def WithdrawEvent.code (x : WithdrawEvent) : Byte := byte x.ctorIdx

/-- The code of a value on the wire. -/
def WidthCause.code (x : WidthCause) : Byte := byte x.ctorIdx

/-- The code of a value on the wire. -/
def RetrainCause.code (x : RetrainCause) : Byte := byte x.ctorIdx

/-- The code of a value on the wire. -/
def QualOutcome.code (x : QualOutcome) : Byte := byte x.ctorIdx

/-- The count a LaneCount stands for. -/
def LaneCount.toNat : LaneCount → Nat
  | .four => 4
  | .eight => 8

/-- The retrain window as a number, 0 for OFF (R176). -/
def RetrainWindow.toNat : RetrainWindow → Nat
  | .off => 0
  | .four => 4
  | .five => 5
  | .six => 6

/-- The value a code names in a list of values in order from 0 (R189 item 2). -/
def named {α : Type} (xs : List α) (b : Byte) : Option α := xs[b.toNat]?

/-- The port index a byte names, where it is 0..23. -/
def portOf (b : Byte) : Option PortIx := if h : b.toNat < 24 then some ⟨b.toNat, h⟩ else none

/-- The lane position a byte names, where it is 0..7. -/
def laneOf (b : Byte) : Option LanePos := if h : b.toNat < 8 then some ⟨b.toNat, h⟩ else none

/-- The lane a port byte and a lane byte name. -/
def portLaneOf (port lane : Byte) : Option (PortIx × LanePos) :=
  (portOf port).bind fun p => (laneOf lane).map fun l => (p, l)

/-- A yes, no, on or off field (R189 item 2). -/
def boolOf (b : Byte) : Option Bool := named [false, true] b

/-- A lane count field: 4 or 8 (R37, R2). -/
def countOf (b : Byte) : Option LaneCount :=
  if b = 4 then some .four else if b = 8 then some .eight else none

/-- The mode a code names (R78). -/
def modeOf (b : Byte) : Option Mode := named [.auto, .step, .verify, .manual] b

/-- The layer a code names (R195). -/
def layerOf (b : Byte) : Option LayerName := named [.base, .overlayA, .overlayB] b

/-- An expected chassis field: 0 is ANY (R189 item 3). -/
def chassisOf (w : Word) : Option Word := if w = 0 then none else some w

/-- An expected port number field: 0..255, or 0xFFFF for ANY (R189 item 3). The outer none is a value outside the set. -/
def portNumOf (h : Half) : Option (Option Byte) :=
  if h = 0xFFFF then some none else if h.toNat < 256 then some (some (byte h.toNat)) else none

/-- A label of at most 16 printable characters, or none (R39 item 7). -/
def labelOf : Option (List Byte) → Option (Option (List Byte))
  | none => some none
  | some t => if t.length ≤ 16 ∧ t.all (fun c => decide (0x20 ≤ c.toNat ∧ c.toNat ≤ 0x7E)) then some (some t) else none

/-- A grade T of 1..71 (R37). -/
def gradeOf (b : Byte) : Option Nat := if 1 ≤ b.toNat ∧ b.toNat ≤ 71 then some b.toNat else none

/-- A window Q of 1..65535 (R37). -/
def windowOf (h : Half) : Option Nat := if h = 0 then none else some h.toNat

/-- The field check of an entry (R39): the entry it stands for, or none where a field lies outside its set. -/
def judgeEntry (e : RawEntry) : Option PlanEntry := do
  let kind ← named [.empty, .normal, .unused, .ask] e.kind
  let portNum ← portNumOf e.portNum
  let count ← countOf e.count
  let width ← named [.fullOnly, .halfOk] e.width
  let map ← named [.straightOnly, .reversalOk, .anyOrder] e.map
  let polarity ← named [.correct, .refuse] e.polarity
  let ask ← boolOf e.ask
  let loop ← boolOf e.loop
  let grade ← gradeOf e.grade
  let window ← windowOf e.window
  let label ← labelOf e.label
  return { kind, chassis := chassisOf e.chassis, portNum, count, width, map, polarity, ask, loop, grade, window, label }

/-- The square of the bits of a window of Q blocks (R40). -/
def windowSquare (q : Nat) : Nat := (q * Config.blockBits) ^ 2

/-- A NORMAL or ASK entry whose grade its window cannot give (R40): 2^T exceeds (Q × 2^20)². -/
def PlanEntry.windowShort (e : PlanEntry) : Bool :=
  decide ((e.kind = .normal ∨ e.kind = .ask) ∧ windowSquare e.window < 2 ^ e.grade)

/-- Steps 3 and 4 of R43: the entry to store, or the refusal (R39 before R40). -/
def checkEntry (e : RawEntry) : Except Status PlanEntry :=
  match judgeEntry e with
  | none => .error .badArgument
  | some x => if x.windowShort then .error .windowShort else .ok x

/-- A number clamped to a range (R176). -/
def clamp (lo hi n : Nat) : Nat := max lo (min hi n)

/-- The retrain window a number sets: 0 is OFF, 1 to 3 become 4, 7 or more become 6 (R176). -/
def retrainOf (n : Nat) : RetrainWindow :=
  if n = 0 then .off else if n ≤ 4 then .four else if n = 5 then .five else .six

/-- The settings a write puts in effect: refused for a sampling mode or attention enable outside its set, every other value
clamped (R176). -/
def judgeSettings (r : RawSettings) : Option Settings := do
  let sampling ← named [.live, .sampled] r.sampling
  let attention ← boolOf r.attention
  return { discovery := clamp 1 600 r.discovery.toNat, consult := clamp 1 255 r.consult.toNat,
           farEndWait := clamp 1 60 r.farEndWait.toNat, errThreshold := clamp 1 65535 r.errThreshold.toNat,
           retrain := retrainOf r.retrain.toNat, sweepLimit := clamp 1 4 r.sweepLimit.toNat, sampling,
           decimation := clamp 0 15 r.decimation.toNat, attention }

/-- The lane control record a request carries, or none where a field lies outside its set or both loopbacks are on (R25). The
unused bits of the flags byte are ignored (R189 item 8). -/
def judgeControl (r : RawControl) : Option Control := do
  let source ← named [.beacon, .prbs, .pattern, .quiet] r.source
  let checkPrbs ← boolOf r.check
  let near ← boolOf r.near
  let far ← boolOf r.far
  let invert ← named [.auto, .forceNormal, .forceInvert] r.invert
  let excluded ← boolOf r.excluded
  if near && far then none
  else return { source, pattern := r.pattern, sendLoopReq := r.flags.getLsbD 0, sendHold := r.flags.getLsbD 1, checkPrbs, near, far,
                invert, excluded }

/-- The enable flags (BASE, OVERLAY_A, OVERLAY_B) and the order LAYER_SET carries, or none where a flag is neither on nor off or
the order is not a permutation of the three names (R48). -/
def judgeLayers (r : RawLayers) : Option ((Bool × Bool × Bool) × List LayerName) := do
  let a ← boolOf r.base
  let b ← boolOf r.overlayA
  let c ← boolOf r.overlayB
  let x ← layerOf r.first
  let y ← layerOf r.second
  let z ← layerOf r.third
  if [x, y, z].Nodup then return ((a, b, c), [x, y, z]) else none

end Sys2Proof.Machine
end

