-- ==== Sys2Proof/Machine/Grade.lean ====
section
/-! DEFINITION. The qualification arithmetic: the Q2 grade (R138) and the early-fail ceiling (R140), in integers. -/

namespace Sys2Proof.Machine

/-- The largest h up to a bound with a × 2^h ≤ b, or 0. -/
def largestPower (a b : Nat) : Nat → Nat
  | 0 => 0
  | h + 1 => if a * 2 ^ (h + 1) ≤ b then h + 1 else largestPower a b h

/-- The Q2 grade of window blocks and window errors (R138): the largest h with E'² × 2^h ≤ bits², at most 71, and 0 where there
is none. -/
def q2Grade (blocks errors : Nat) : Nat := largestPower (max errors 1 ^ 2) (windowSquare blocks) 71

/-- The largest E below 2^n above a start, bit by bit from the top, with E² × scale ≤ bound. -/
def largestRoot (scale bound : Nat) : Nat → Nat → Nat
  | 0, e => e
  | n + 1, e => if (e + 2 ^ n) ^ 2 * scale ≤ bound then largestRoot scale bound n (e + 2 ^ n) else largestRoot scale bound n e

/-- The early-fail ceiling E_max of a grade T and a window Q (R140): the largest E with E² × 2^T ≤ (Q × 2^20)². It is below 2^36,
since Q is below 2^16. -/
def earlyCeiling (grade window : Nat) : Nat := largestRoot (2 ^ grade) (windowSquare window) 36 0

end Sys2Proof.Machine
end

