-- ==== Sys2Proof/Machine/Flags.lean ====
section
/-! DEFINITION. What a port and its lanes show of themselves: mapped lanes, listening, transmit content, loopbacks, the stage code
and flags of beacons, the far-end stage, and the polarity corrections (R4, R5, R6, R14, R15, R18, R20, R21, R24, R27 to R29). -/

namespace Sys2Proof.Machine

/-! ### The snapshot's lane count and the map -/

/-- The snapshot's kind is UNUSED: a dark port (R38, R54). -/
def Port.darkSnap (x : Port) : Bool := x.snapshot.any fun n => decide (n.entry.kind = .unused)

/-- The snapshot is of kind NORMAL or ASK: discovery is cabled (R56). -/
def Port.cabled (x : Port) : Bool := x.snapshot.any fun n => decide (n.entry.kind ≠ .unused)

/-- L: 8 in MANUAL and for an UNUSED snapshot, else the snapshot's lane count (R1, R20, R38). -/
def Port.laneCount (x : Port) : LaneCount :=
  if x.state = .manual then .eight
  else match x.snapshot with
    | none => .eight
    | some n => if n.entry.kind = .unused then .eight else n.entry.count

/-- L as a number. -/
def Port.L (x : Port) : Nat := x.laneCount.toNat

/-- A lane is mapped: its map entry has a logical lane (R73). -/
def Port.mapped (x : Port) (l : LanePos) : Bool := x.map[l].logical.isSome

/-- The derivation found the lane usable: its map entry holds a remote lane index (R73). -/
def Port.found (x : Port) (l : LanePos) : Bool := x.map[l].remote.isSome

/-- The mapped lanes in ascending position. -/
def Port.mappedLanes (x : Port) : List LanePos := allLanes.filter x.mapped

/-- The mapped lanes as (position, logical lane), in ascending logical lane (R122, R134). -/
def Port.byLogical (x : Port) : List (LanePos × LanePos) :=
  allLanes.filterMap fun k => (allLanes.find? fun l => decide (x.map[l].logical = some k)).map fun l => (l, k)

/-- The port holds a lane map (R15): step 8 has written it and nothing has cleared it. -/
def Port.holdsMap (x : Port) : Bool := x.mapClass.isSome

/-! ### Listening and loopbacks -/

/-- A position listens under the port's state (R6). -/
def Port.listens (x : Port) (l : LanePos) : Bool :=
  match x.state with
  | .idle => false
  | .manual => true
  | _ => decide (l.val < x.L)

/-- A near-end loopback is in effect (R27). -/
def Port.nearEnd (x : Port) (l : LanePos) : Bool :=
  decide (x.state = .manual) && (x.lane l).control.near && !(x.lane l).control.excluded

/-- A manual far-end loopback is in effect (R28). -/
def Port.manualFar (x : Port) (l : LanePos) : Bool :=
  decide (x.state = .manual) && (x.lane l).control.far && !(x.lane l).control.excluded

/-- The lane's beacon receiver takes symbols from the line (R6, R19, R27). -/
def Port.receives (x : Port) (l : LanePos) : Bool :=
  decide ((x.lane l).rx.state ≠ .off) && !(x.lane l).rx.suspended && !x.nearEnd l

/-- The four conditions of automatic far-end loopback (R29). -/
def Port.loopHolds (x : Port) (l : LanePos) : Bool :=
  (decide (x.state = .discover) && x.cabled || decide (x.state = .faulted)) && x.snapshot.any (·.entry.loop) &&
    !(x.lane l).control.excluded && (x.lane l).rx.loopSeen

/-- Some lane of the port is in automatic far-end loopback (R30, R59). -/
def Port.looping (x : Port) : Bool := allLanes.any fun l => (x.lane l).autoLoop

/-- What a lane transmits, in the code order of R194. -/
inductive Content | off | quiet | beacon | prbs | pattern | looped
  deriving DecidableEq, Repr

/-- Which loopback is in effect, in the code order of R194. -/
inductive Loopback | none | nearEnd | manualFar | automaticFar
  deriving DecidableEq, Repr

/-- The content a state calls for on a lane that nothing overrides (R20). -/
def Port.stateContent (x : Port) (l : LanePos) : Content :=
  match x.state with
  | .idle => .off
  | .discover => if x.cabled then .beacon else .quiet
  | .dark => .quiet
  | .faulted | .consult | .verified => .beacon
  | .paused => if x.mapped l then .beacon else .quiet
  | .peerWait | .awaitSlot | .tune | .qualify | .handover => if x.mapped l then .prbs else .quiet
  | .active => .quiet
  | .manual =>
    match (x.lane l).control.source with
    | .beacon => .beacon
    | .prbs => .prbs
    | .pattern => .pattern
    | .quiet => .quiet

/-- What a lane transmits (R20, R21, R26, R28, R29): OFF where it does not listen, then quiet where excluded, then a loop, then
what the state or the control record calls for. A lane the switch owns sends nothing of the part's and shows QUIET (log entry 13).
The positions L..7, which R20 calls "OFF, quiet", and an excluded lane of an IDLE port show OFF (log entry 22). -/
def Port.content (x : Port) (l : LanePos) : Content :=
  if x.listens l = false then .off
  else if (x.lane l).owner = .switch ∨ (x.lane l).control.excluded then .quiet
  else if x.manualFar l ∨ (x.lane l).autoLoop then .looped
  else x.stateContent l

/-- The loopback in effect on a lane (R27, R28, R29). -/
def Port.loopback (x : Port) (l : LanePos) : Loopback :=
  if x.nearEnd l then .nearEnd else if x.manualFar l then .manualFar else if (x.lane l).autoLoop then .automaticFar else .none

/-- The lane sends beacons: at 1 ms, or one per test block (R5). -/
def Port.beacons (x : Port) (l : LanePos) : Bool := decide (x.content l = .beacon ∨ x.content l = .prbs)

/-! ### The checker -/

/-- The port's qualification window has begun. -/
def Port.windowBegun (x : Port) : Bool := decide (x.state = .qualify) && x.qualify.any (·.begun)

/-- The PRBS checker of a lane counts (R22). -/
def Port.counts (x : Port) (l : LanePos) : Bool :=
  x.windowBegun && x.mapped l || decide (x.state = .manual) && (x.lane l).control.checkPrbs

/-- The pattern lock state in effect (R23). -/
def Port.lock (x : Port) (l : LanePos) : PatternLock :=
  if x.nearEnd l then (if (x.lane l).control.source = .prbs then .locked else .searching) else (x.lane l).patternLock

/-- An invert override applied to a detected polarity (R18, R24). -/
def InvertOverride.apply (o : InvertOverride) (detected : Polarity) : Polarity :=
  match o with
  | .auto => detected
  | .forceNormal => .normal
  | .forceInvert => .inverted

/-- The correction given at handover (R18). -/
def Port.handoverCorrection (x : Port) (l : LanePos) : Polarity := (x.lane l).control.invert.apply x.map[l].polarity

/-- The check correction: the map's polarity while the port holds a map and is not in MANUAL, else that of the last stable
identity (R24). -/
def Port.checkCorrection (x : Port) (l : LanePos) : Polarity :=
  (x.lane l).control.invert.apply
    (if x.state ≠ .manual ∧ x.holdsMap then x.map[l].polarity
     else match (x.lane l).rx.lastStable with
       | none => .normal
       | some i => i.polarity)

/-- The correction the lane engine gives the lane tap for its pattern lock search: the check correction of every lane that listens
(R24). -/
def Port.searchCorrection (x : Port) (l : LanePos) : Option Polarity :=
  if x.listens l then some (x.checkCorrection l) else none

/-- The handover settings of a lane (R18). -/
def Port.handoverSettings (x : Port) (l : LanePos) : Handover :=
  { logical := x.map[l].logical, correction := x.handoverCorrection l, eq := (x.lane l).eq }

/-! ### Stage and flags sent (R4, R14) -/

/-- The stage code of a port's beacons (R4). -/
def Port.sentStage (x : Port) : Stage :=
  match x.state with
  | .consult | .verified | .paused | .peerWait | .awaitSlot | .tune => .wait
  | .qualify => .qual
  | .handover => .ready
  | _ => .disc

/-- HOLD is set: CONSULT, VERIFIED, PAUSED, and in MANUAL as the record asks while the source is BEACON (R4, R21). -/
def Port.sentHold (x : Port) (l : LanePos) : Bool :=
  match x.state with
  | .consult | .verified | .paused => true
  | .manual => decide ((x.lane l).control.source = .beacon) && (x.lane l).control.sendHold
  | _ => false

/-- RETRAIN is set: PAUSED, AWAIT_SLOT, TUNE and QUALIFY while the cycle class is RETRAIN (R4). -/
def Port.sentRetrain (x : Port) : Bool :=
  match x.state with
  | .paused | .awaitSlot | .tune | .qualify => decide (x.cycle = .retrain)
  | _ => false

/-- LOOP_REQ is set: in MANUAL as the record asks while the source is BEACON (R4, R21). -/
def Port.sentLoopReq (x : Port) (l : LanePos) : Bool :=
  decide (x.state = .manual) && decide ((x.lane l).control.source = .beacon) && (x.lane l).control.sendLoopReq

/-- The flags of a lane's beacons, REMOTE_FAULT while its own receiver is SILENT (R4, R14). -/
def Port.sentFlags (x : Port) (l : LanePos) : BeaconFlags :=
  { hold := x.sentHold l, retrain := x.sentRetrain, remoteFault := decide ((x.lane l).rx.state = .silent),
    loopReq := x.sentLoopReq l }

/-! ### The far end (R14, R15) -/

/-- A stage's place in the stage order. -/
def Stage.rank (g : Stage) : Nat := g.ctorIdx

/-- The lower of two far-end stages; absent where either is. -/
def Stage.lower (a b : Option Stage) : Option Stage :=
  a.bind fun x => b.map fun y => if x.rank ≤ y.rank then x else y

/-- A far-end stage is present and at least a given one (R15: an absent stage satisfies no such condition). -/
def stageAtLeast (g : Stage) (a : Option Stage) : Bool := a.any fun x => decide (g.rank ≤ x.rank)

/-- The far-end stage a lane holds. -/
def Lane.farStage (y : Lane) : Option Stage := y.rx.far.map FarEnd.stage

/-- The far-end flags a lane holds show FAULT. -/
def Lane.farFault (y : Lane) : Bool := y.rx.far.any fun f => f.fault.isSome

/-- A lane is one-way: STABLE, and the last good beacon carried REMOTE_FAULT (R14). -/
def Receiver.oneWay (r : Receiver) : Bool := decide (r.state = .stable) && r.far.any (·.flags.remoteFault)

/-- The lanes the far-end stage is taken over: the mapped lanes once the port holds a map, before that the STABLE lanes (R15). -/
def Port.farSet (x : Port) : List LanePos :=
  if x.holdsMap then x.mappedLanes else allLanes.filter fun l => decide ((x.lane l).rx.state = .stable)

/-- The lowest far-end stage of some lanes; absent for no lane or where a lane has none (R15). -/
def Port.lowestStage (x : Port) : List LanePos → Option Stage
  | [] => none
  | [l] => (x.lane l).farStage
  | l :: ls => Stage.lower (x.lane l).farStage (x.lowestStage ls)

/-- The port's far-end stage (R15). -/
def Port.farStage (x : Port) : Option Stage := x.lowestStage x.farSet

/-- The port sees a far-end FAULT (R15). -/
def Port.farFault (x : Port) : Bool := x.farSet.any fun l => (x.lane l).farFault

/-- The condition of PEER_WAIT (R89). -/
def Port.peerReady (x : Port) : Bool := stageAtLeast .wait x.farStage && !x.farFault

/-- A lane of a port in cabled discovery is usable (R58). -/
def Port.usable (x : Port) (l : LanePos) : Bool :=
  decide (l.val < x.L) && !(x.lane l).control.excluded && decide ((x.lane l).rx.state = .stable) && !(x.lane l).rx.oneWay

/-- Cabled discovery ends at once: every position 0..L − 1 is usable and no lane loops (R59). -/
def Port.discoveryDone (x : Port) : Bool :=
  allLanes.all (fun l => decide (x.L ≤ l.val) || x.usable l) && !x.looping

/-- A lane that is not excluded is LOCKED or STABLE: a cable on a dark port (R62, R88). -/
def Port.heardLock (x : Port) : Bool :=
  allLanes.any fun l =>
    !(x.lane l).control.excluded && decide ((x.lane l).rx.state = .locked ∨ (x.lane l).rx.state = .stable)

end Sys2Proof.Machine
end

