-- ==== Sys2Proof/Machine/Beacon.lean ====
section
/-! DEFINITION. The beacon: its bytes (R191), its check (R3), how a receiver classes it (R2, R13) and what a lane sends (R1). -/

namespace Sys2Proof.Machine

/-- The sync word in its normal form (R191). -/
def syncNormal : Nat := 0x3C5A96F1

/-- The sync word in its inverted form (R191). -/
def syncInverted : Nat := 0xC3A5690E

/-- The identity a beacon carries, heard under a polarity (Lane Signalling and Beacons, before R6; R13). -/
def Beacon.identity (b : Beacon) (pol : Polarity) : Identity :=
  { chassis := b.chassis, portNum := b.portNum, lane := b.lane, count := b.count, polarity := pol }

/-- The far-end stage, flags and reason a good beacon writes (R15). -/
def Beacon.farEnd (b : Beacon) : FarEnd := { stage := b.stage, flags := b.flags, fault := b.fault }

/-- Bits 0 to 4 of the flags byte (R191). -/
def flagBits (f : BeaconFlags) (fault : Bool) : Nat :=
  f.hold.toNat + 2 * f.retrain.toNat + 4 * fault.toNat + 8 * f.remoteFault.toNat + 16 * f.loopReq.toNat

/-- The far-end flags byte of a LANE_QUERY reply: bits 0 to 4 of the last good beacon (R191). -/
def FarEnd.flagByte (f : FarEnd) : Byte := byte (flagBits f.flags f.fault.isSome)

/-- The bytes of a beacon between the sync word and the check (R191). -/
def Beacon.middle (b : Beacon) : List Byte :=
  be32 b.chassis.toNat ++
    [b.portNum, byte b.lane.val, byte b.count.toNat, b.stage.code, byte (flagBits b.flags b.fault.isSome + 32 * b.tap.isSome.toNat)] ++
    (match b.fault with | none => [] | some r => [r.code]) ++
    (match b.tap with | none => [] | some t => [byte t.pre.val, byte t.post.val])

/-- The bytes of a beacon, its check as it is or with all 16 bits complemented (R191, R32). -/
def Beacon.bytes (b : Beacon) (badCheck : Bool) : List Byte :=
  be32 syncNormal ++ b.middle ++ (if badCheck then (checkBytes b.middle).map (~~~ ·) else checkBytes b.middle)

/-- What the receiver makes of arriving bytes (R2, R3): no beacon, a bad one, or a good one under the polarity of its sync word. -/
inductive Classed | nothing | bad | good (b : Beacon) (pol : Polarity)
  deriving DecidableEq, Repr

/-- The stage a code names (R191). -/
def stageOf (c : Byte) : Option Stage := named [.disc, .wait, .qual, .ready] c

/-- The fault reason a code names (R189). -/
def faultOf (c : Byte) : Option FaultReason :=
  named [.noCable, .unexpectedCable, .splitCable, .miswired, .widthMismatch, .dupLane, .incomplete, .mapDisallowed, .polarity,
    .rejected, .consultTimeout, .farEndStall, .farEndFault, .tuneFail, .qualifyFail, .unstable] c

/-- The fault reason part of a beacon, and the bytes after it (R191). -/
def takeFault (present : Bool) (bs : List Byte) : Option (Option FaultReason × List Byte) :=
  if present then
    match bs with
    | r :: rest => (faultOf r).map fun x => (some x, rest)
    | [] => none
  else some (none, bs)

/-- The tap request part of a beacon, and the bytes after it (R191, R2 item 5). -/
def takeTap (present : Bool) (bs : List Byte) : Option (Option Taps × List Byte) :=
  if present then
    match bs with
    | a :: b :: rest =>
      if h : a.toNat < 8 ∧ b.toNat < 16 then some (some { pre := ⟨a.toNat, h.1⟩, post := ⟨b.toNat, h.2⟩ }, rest) else none
    | _ => none
  else some (none, bs)

/-- The fields of a beacon's bytes between sync word and check, or none where one lies outside its set (R2). -/
def fieldsOf (bs : List Byte) : Option Beacon :=
  match bs with
  | c3 :: c2 :: c1 :: c0 :: port :: lane :: count :: stage :: flags :: rest => do
    let chassis : Word := BitVec.ofNat 32 (ofBytes [c3, c2, c1, c0])
    if chassis = 0 then none
    let lane ← laneOf lane
    let count ← countOf count
    let stage ← stageOf stage
    let (fault, rest) ← takeFault (flags.getLsbD 2) rest
    let (tap, _) ← takeTap (flags.getLsbD 5) rest
    return { chassis, portNum := port, lane, count, stage, fault, tap,
             flags := { hold := flags.getLsbD 0, retrain := flags.getLsbD 1, remoteFault := flags.getLsbD 3,
                        loopReq := flags.getLsbD 4 } }
  | _ => none

/-- How many bytes stand between sync word and check: the receiver reads the flags byte to find out (R191). -/
def middleLength (bs : List Byte) : Nat :=
  9 + (bs.getD 8 0 |>.getLsbD 2).toNat + 2 * (bs.getD 8 0 |>.getLsbD 5).toNat

/-- The bytes after the sync word, with the polarity undone: good or bad (R2, R3). -/
def classifyRest (pol : Polarity) (rest : List Byte) : Classed :=
  let n := middleLength rest
  if rest.length < n + 2 ∨ (rest.drop n).take 2 ≠ checkBytes (rest.take n) then .bad
  else match fieldsOf (rest.take n) with
    | none => .bad
    | some b => .good b pol

/-- How the receiver classes the bytes that arrive: by the form of the sync word, and on the inverted form every following bit is
complemented before R2 and R3 apply (R13). A sync word in neither form is no beacon (R3). -/
def classify (bs : List Byte) : Classed :=
  if ofBytes (bs.take 4) = syncNormal then classifyRest .normal (bs.drop 4)
  else if ofBytes (bs.take 4) = syncInverted then classifyRest .inverted ((bs.drop 4).map (~~~ ·))
  else .nothing

/-! ### What a lane sends -/

/-- The sweep record that serves a port in TUNE, with its channel. -/
def State.sweepOf (s : State) (p : PortIx) : Option (ChanIx × Sweep) :=
  (s.port p).channel.bind fun c => s.esu.channels[c].map fun w => (c, w)

/-- The record of a swept lane. -/
def State.sweepLane (s : State) (p : PortIx) (l : LanePos) : Option SweepLane :=
  (s.sweepOf p).bind fun w => w.2.lanes.find? fun y => decide (y.pos = l)

/-- The tap request part a lane sends: the far setting of the point it works while its sweep runs (R1, R35). -/
def State.sentTap (s : State) (p : PortIx) (l : LanePos) : Option Taps :=
  (s.sweepLane p l).map fun y => { pre := y.point.pre, post := y.point.post }

/-- The receive gain a lane works with (R34, R35): that of its current point while its sweep runs, else the stored gain. -/
def State.gainInUse (s : State) (p : PortIx) (l : LanePos) : Fin 16 :=
  match s.sweepLane p l with
  | some y => y.point.gain
  | none => (s.lane p l).eq.gain

/-- The number of the sweep for which a lane has asked its lane tap for a figure of merit that has not yet come (R35, R123 step 3). -/
def State.figureDue (s : State) (p : PortIx) (l : LanePos) : Option Nat :=
  (s.sweepOf p).bind fun w =>
    if w.2.lanes.any (fun y => decide (y.pos = l ∧ y.phase = .measure)) then some w.2.number else none

/-- The beacon a lane builds at the moment it is sent (R1). -/
def State.beaconOf (s : State) (p : PortIx) (l : LanePos) (me : LocalId) : Beacon :=
  { chassis := me.chassis, portNum := byte (me.base.toNat + p.val), lane := l, count := (s.port p).laneCount,
    stage := (s.port p).sentStage, flags := (s.port p).sentFlags l,
    fault := if (s.port p).state = .faulted then (s.port p).fault else none, tap := s.sentTap p l }

end Sys2Proof.Machine
end

