-- ==== Sys2Proof/Machine/Derive.lean ====
section
/-! DEFINITION. The derivation of the lane map (R64 to R73): eight questions to the usable lanes, in order. -/

namespace Sys2Proof.Machine

/-- A usable lane's position with the identity it is STABLE on. -/
abbrev Usable := LanePos × Identity

/-- The usable lanes of a port with their last stable identities, in ascending position (R58, R64). -/
def Port.usables (x : Port) : List Usable :=
  allLanes.filterMap fun l => if x.usable l then (x.lane l).rx.lastStable.map fun i => (l, i) else none

/-- The remote port an identity names. -/
def Identity.neighbour (i : Identity) : Neighbour := { chassis := i.chassis, portNum := i.portNum }

/-- Step 1: the one far port every lane carries (R65). -/
def sameRemote : List Usable → Option Neighbour
  | [] => none
  | u :: us => if us.all (fun v => decide (v.2.neighbour = u.2.neighbour)) then some u.2.neighbour else none

/-- An entry's expected fields agree with a neighbour; ANY agrees with all (R66, R54). -/
def PlanEntry.expects (e : PlanEntry) (n : Neighbour) : Bool :=
  e.chassis.all (fun c => decide (c = n.chassis)) && e.portNum.all (fun q => decide (q = n.portNum))

/-- Step 2: the identity verdict (R66). -/
def Snapshot.verdict (n : Snapshot) (nb : Neighbour) : Verdict :=
  if n.source = .background then .unplanned else if n.entry.expects nb then .matching else .mismatch

/-- Step 5: the width, or none where coverage fails (R69). -/
def coverage (e : PlanEntry) (us : List Usable) : Option Width :=
  let L := e.count.toNat
  if us.length = L then some .full
  else if e.width = .halfOk ∧ (List.range (L / 2)).all (fun k => us.any fun u => decide (u.2.lane.val = k)) then some .half
  else none

/-- Step 6: the map class over all usable lanes (R70). -/
def classOf (L : Nat) (us : List Usable) : MapClass :=
  if us.all (fun u => decide (u.2.lane.val = u.1.val)) then .straight
  else if us.all (fun u => decide (u.2.lane.val + u.1.val + 1 = L)) then .reversed
  else .permuted

/-- The map policy accepts a class (R70). -/
def MapPolicy.accepts (m : MapPolicy) (c : MapClass) : Bool :=
  match m, c with
  | .straightOnly, .straight => true
  | .straightOnly, _ => false
  | .reversalOk, .permuted => false
  | .reversalOk, _ => true
  | .anyOrder, _ => true

/-- The width count w: L for FULL and L/2 for HALF (R73). -/
def Width.count (w : Width) (L : Nat) : Nat :=
  match w with
  | .full => L
  | .half => L / 2

/-- The lane map of the usable lanes at a width (R73). -/
def buildMap (us : List Usable) (w : Nat) : Vector MapEntry 8 :=
  Vector.ofFn fun l : LanePos =>
    match us.find? fun u => decide (u.1 = l) with
    | none => .empty
    | some u => { remote := some u.2.lane, polarity := u.2.polarity, logical := if u.2.lane.val < w then some u.2.lane else none }

/-- What steps 3 to 7 find: the fault of the first step that fails, or the map, class and width (R67 to R71, R73). -/
def mapChecks (e : PlanEntry) (us : List Usable) : Except FaultReason (Vector MapEntry 8 × MapClass × Width) :=
  let L := e.count.toNat
  if us.any (fun u => decide (u.2.count ≠ e.count)) then .error .widthMismatch
  else if us.any (fun u => decide (L ≤ u.2.lane.val)) ∨ ¬ (us.map fun u => u.2.lane).Nodup then .error .dupLane
  else match coverage e us with
    | none => .error .incomplete
    | some w =>
      if e.map.accepts (classOf L us) = false then .error .mapDisallowed
      else if e.polarity = .refuse ∧ us.any (fun u => decide (u.2.polarity = .inverted)) then .error .polarity
      else .ok (buildMap us (w.count L), classOf L us, w)

/-- What the derivation writes and decides: the neighbour and verdict where found, and the fault or the map (R64). -/
structure Derived where
  neighbour : Option Neighbour
  verdict : Option Verdict
  outcome : Except FaultReason (Vector MapEntry 8 × MapClass × Width)

/-- Steps 1 to 7 of the derivation (R64 to R71). -/
def derive (n : Snapshot) (us : List Usable) : Derived :=
  match sameRemote us with
  | none => { neighbour := none, verdict := none, outcome := .error .splitCable }
  | some nb =>
    { neighbour := some nb, verdict := some (n.verdict nb)
      outcome := if n.verdict nb = .mismatch ∧ n.entry.ask = false then .error .miswired else mapChecks n.entry us }

end Sys2Proof.Machine
end

