-- ==== Sys2Proof/Machine/Plan.lean ====
section
/-! DEFINITION. The Plan Store: layers, resolution (R49), fills (R46) and the drift check (R53, R54). -/

namespace Sys2Proof.Machine

/-- A layer by name. -/
def Plan.layer (q : Plan) : LayerName → Layer
  | .base => q.base
  | .overlayA => q.overlayA
  | .overlayB => q.overlayB

/-- The plan with one layer replaced. -/
def Plan.setLayer (q : Plan) (n : LayerName) (y : Layer) : Plan :=
  match n with
  | .base => { q with base := y }
  | .overlayA => { q with overlayA := y }
  | .overlayB => { q with overlayB := y }

/-- The entry of a layer at a port index. -/
def Plan.entry (q : Plan) (n : LayerName) (p : PortIx) : PlanEntry := (q.layer n).entries[p]

/-- The plan with one entry of a layer replaced whole (R43). -/
def Plan.setEntry (q : Plan) (n : LayerName) (p : PortIx) (e : PlanEntry) : Plan :=
  q.setLayer n { q.layer n with entries := (q.layer n).entries.set p e }

/-- A layer's name as a source (R49). -/
def LayerName.source : LayerName → Source
  | .base => .base
  | .overlayA => .overlayA
  | .overlayB => .overlayB

/-- Resolution (R49): the highest enabled layer whose entry at the port is not EMPTY, else the background. -/
def Plan.resolve (q : Plan) (p : PortIx) : Snapshot :=
  match q.order.find? fun n => (q.layer n).enabled && decide ((q.entry n p).kind ≠ .empty) with
  | some n => { entry := q.entry n p, source := n.source }
  | none => { entry := q.background, source := .background }

/-- The plan with enable flags and order replaced together (R48). -/
def Plan.setLayers (q : Plan) (flags : Bool × Bool × Bool) (order : List LayerName) : Plan :=
  { q with base := { q.base with enabled := flags.1 }, overlayA := { q.overlayA with enabled := flags.2.1 },
           overlayB := { q.overlayB with enabled := flags.2.2 }, order := order }

/-- The expected port number of the k-th entry of a fill (R46): none where the stepped number falls outside 0..255. -/
def steppedPort (mirror : Bool) (k : Nat) : Option Byte → Option (Option Byte)
  | none => some none
  | some n =>
    if mirror then (if k ≤ n.toNat then some (some (byte (n.toNat - k))) else none)
    else (if n.toNat + k ≤ 255 then some (some (byte (n.toNat + k))) else none)

/-- The count of a fill after both clamps (R45). -/
def fillCount (first : PortIx) (count : Nat) : Nat := min (clamp 1 24 count) (24 - first.val)

/-- The entries of a fill from the k-th on, at most `left` of them: the plan after them and how many were written in all (R46). -/
def Plan.fillFrom (q : Plan) (n : LayerName) (first : PortIx) (mirror : Bool) (e : PlanEntry) : Nat → Nat → Plan × Nat
  | 0, k => (q, k)
  | left + 1, k =>
    match steppedPort mirror k e.portNum with
    | none => (q, k)
    | some num =>
      if h : first.val + k < 24 then
        (q.setEntry n ⟨first.val + k, h⟩ { e with portNum := num }).fillFrom n first mirror e left (k + 1)
      else (q, k)

/-! ### The drift check -/

/-- The states the drift check looks at (R53). -/
def PortState.drifts : PortState → Bool
  | .consult | .verified | .peerWait | .awaitSlot | .tune | .qualify | .handover | .active | .paused | .dark => true
  | .idle | .discover | .manual | .faulted => false

/-- A resolved entry is dark in the sense of R54. -/
def Snapshot.dark (n : Snapshot) : Bool := decide (n.entry.kind = .unused)

/-- DARKNESS holds (R54). -/
def driftDarkness (old new : Snapshot) : Bool := decide (old.dark ≠ new.dark)

/-- LANE_COUNT holds (R54). -/
def driftLaneCount (old new : Snapshot) : Bool := !old.dark && !new.dark && decide (old.entry.count ≠ new.entry.count)

/-- NEIGHBOUR holds (R54). -/
def driftNeighbour (old new : Snapshot) (nb : Option Neighbour) : Bool :=
  !old.dark && !new.dark && nb.any fun n => !new.entry.expects n

/-- The PLAN_DRIFT report of one port, where a condition holds (R54). -/
def driftDetail (x : Port) (new : Snapshot) : Option Detail :=
  x.snapshot.bind fun old =>
    if x.state.drifts && (driftDarkness old new || driftLaneCount old new || driftNeighbour old new x.neighbour) then
      some (.planDrift (driftDarkness old new) (driftLaneCount old new) (driftNeighbour old new x.neighbour) old new x.state
        x.neighbour)
    else none

/-- The drift check (R53): every port looked at, in ascending port index, against the plan as it now stands. -/
def State.driftCheck (s : State) : State :=
  allPorts.foldl (fun t p => match driftDetail (t.port p) (t.plan.resolve p) with
    | some d => t.postPort p d
    | none => t) s

end Sys2Proof.Machine
end

