-- ==== Sys2Proof/Machine/Lane.lean ====
section
/-! DEFINITION. The lane engine: the receive record under beacons, silence and the port's directions (R6 to R16), the handing of a
lane to the switch and back (R17), and what follows a change of transmit content or checker (R22, R23). -/

namespace Sys2Proof.Machine

/-- What a lane engine hands to its port about its receiver (R7 to R11, R58). -/
inductive LaneEvent
  | locked | stable | silent | identityChanged (earlier new : Identity) | oneWay | twoWay
  deriving DecidableEq, Repr

/-! ### The receive record -/

/-- A position that begins to listen: SILENT, all runs zero (R6). Its silence timer starts (log entry 6). -/
def Receiver.fresh : Receiver := { Receiver.off with state := .silent, silence := some Config.silenceMs }

/-- A receiver restarted in SILENT with all runs at zero, its last stable identity frozen (R6, R27). The candidate identity, of which
those rules say nothing, is kept (log entry 23). -/
def Receiver.restart (r : Receiver) : Receiver :=
  { Receiver.fresh with candidate := r.candidate, lastStable := r.lastStable, lockedFromSilent := r.lockedFromSilent }

/-- A receiver suspended at handover: silence timer stopped, far-end stage and flags absent, the rest kept (R6). -/
def Receiver.suspend (r : Receiver) : Receiver := { r with suspended := true, silence := none, far := none }

/-- The entry into SILENT from LOCKED or STABLE: the far end becomes absent and the loop request ends (R8, R9, R15, R16). The loop
request runs start again from zero on a NOT_SEEN lane too (log entry 21). -/
def Receiver.drop (r : Receiver) : Receiver :=
  { r with state := .silent, far := none, loopSeen := false, loopRun := 0, noLoopRun := 0 }

/-- The loop request runs and state after a good beacon (R16). -/
def Receiver.heardLoopReq (r : Receiver) (req : Bool) : Receiver :=
  { r with loopRun := if req then r.loopRun + 1 else 0
           noLoopRun := if req then 0 else r.noLoopRun + 1
           loopSeen := if r.loopSeen then req || decide (r.noLoopRun + 1 < 16) else req && decide (16 ≤ r.loopRun + 1) }

/-- What every good beacon does first: silence timer, bad run, far end, loop request runs (R7, R15, R16). -/
def Receiver.hear (r : Receiver) (b : Beacon) : Receiver :=
  { r with silence := some Config.silenceMs, badRun := 0, far := some b.farEnd }.heardLoopReq b.flags.loopReq

/-- The stability run after a good beacon of an identity (R7). -/
def Receiver.nextRun (r : Receiver) (i : Identity) : Nat := if r.candidate = some i then r.stabRun + 1 else 1

/-- ONE_WAY or TWO_WAY on an entry into STABLE (R58). -/
def wayEvent (remoteFault : Bool) : LaneEvent := if remoteFault then .oneWay else .twoWay

/-- The events of an entry into STABLE on an identity (R10): IDENTITY_CHANGED where LOCKED was entered from SILENT and the frozen
identity is another, else STABLE; then the way event. -/
def Receiver.stableEvents (r : Receiver) (i : Identity) (remoteFault : Bool) : List LaneEvent :=
  [match r.lastStable with
    | some old => if r.lockedFromSilent ∧ old ≠ i then .identityChanged old i else .stable
    | none => .stable,
   wayEvent remoteFault]

/-- The way event of a good beacon on a lane that stays STABLE (R58). -/
def Receiver.wayChange (r : Receiver) (remoteFault : Bool) : List LaneEvent :=
  if r.oneWay = remoteFault then [] else [wayEvent remoteFault]

/-- A good beacon on a listening lane, under the polarity of its sync word (R7, R10, R11). In STABLE the stability run moves only where
a bad beacon has cleared it: it starts again at 1 (R8). -/
def Receiver.good (r : Receiver) (b : Beacon) (pol : Polarity) : Receiver × List LaneEvent :=
  let i := b.identity pol
  match r.state with
  | .off => (r, [])
  | .silent =>
    if 2 ≤ r.goodRun + 1 then
      ({ r.hear b with goodRun := r.goodRun + 1, candidate := some i, stabRun := r.nextRun i, state := .locked,
                       lockedFromSilent := true }, [.locked])
    else ({ r.hear b with goodRun := r.goodRun + 1, candidate := some i, stabRun := r.nextRun i }, [])
  | .locked =>
    if 4 ≤ r.nextRun i then
      ({ r.hear b with candidate := some i, stabRun := r.nextRun i, state := .stable, lastStable := some i },
        r.stableEvents i b.flags.remoteFault)
    else ({ r.hear b with candidate := some i, stabRun := r.nextRun i }, [])
  | .stable =>
    match r.lastStable with
    | none => (r.hear b, [])
    | some old =>
      if old = i then
        ({ r.hear b with stabRun := if r.stabRun = 0 then 1 else r.stabRun }, r.wayChange b.flags.remoteFault)
      else ({ r.hear b with candidate := some i, stabRun := 1, state := .locked, lockedFromSilent := false },
        [.identityChanged old i])

/-- A bad beacon on a listening lane (R8). -/
def Receiver.bad (r : Receiver) : Receiver × List LaneEvent :=
  let hurt := { r with goodRun := 0, stabRun := 0, badRun := r.badRun + 1 }
  if (r.state = .locked ∨ r.state = .stable) ∧ 3 ≤ r.badRun + 1 then (hurt.drop, [.silent]) else (hurt, [])

/-- The expiry of a listening lane's silence timer (R9). The next good beacon starts it again (log entry 6). -/
def Receiver.expire (r : Receiver) : Receiver × List LaneEvent :=
  match r.state with
  | .off => (r, [])
  | .silent => ({ r with silence := none, goodRun := 0, stabRun := 0 }, [])
  | .locked | .stable => ({ r with silence := none, goodRun := 0, stabRun := 0, badRun := 0 }.drop, [.silent])

/-! ### What the port controller commands -/

/-- A lane set to listen or not as its port directs (R6); pattern lock is SEARCHING where the lane begins to listen (R23). -/
def Lane.listen (y : Lane) (on : Bool) : Lane :=
  if on = false then { y with rx := .off }
  else if y.rx.state = .off then { y with rx := .fresh, patternLock := .searching }
  else y

/-- Every position set to listen or not as the port's state calls for (R6). -/
def Port.relisten (x : Port) : Port := x.mapLanes fun l y => y.listen (x.listens l)

/-- A lane given to the switch (R17). -/
def Lane.give (y : Lane) (h : Handover) : Lane := { y with owner := .switch, rx := y.rx.suspend, tap := some h }

/-- A lane taken back from the switch, its recovery hunt and monitor period ended; a lane the part owns is unchanged (R17, R6,
R23, R149). The period history is kept until the next entry into ACTIVE, whether or not the lane stays mapped (log entry 26). -/
def Lane.takeBack (y : Lane) : Lane :=
  if y.owner = .switch then
    { y with owner := .part, rx := y.rx.restart, patternLock := .searching,
             monitor := { y.monitor with errors := 0, hunt := none } }
  else y

/-- The generator's place: kept while the lane sends the PRBS, loaded anew where it begins to, absent otherwise (R22). -/
def Lane.nextGen (y : Lane) (c : Content) : Option Nat := if c = .prbs then some (y.gen.getD 0) else none

/-- A checker at the first pattern bit of a block, or between two blocks: the mark and the correction are those of the moment (R22, R23,
R24). -/
def Checker.fresh (start : BlockStart) (lock : PatternLock) (correction : Polarity) : Checker :=
  .block start (decide (lock = .searching)) (some correction)

/-- A block in hand under a check correction: no one correction holds for all its bits once it has changed (R24). -/
def Checker.corrected (k : Checker) (correction : Polarity) : Checker :=
  match k with
  | .off => .off
  | .waiting => .waiting
  | .block start searching c => .block start searching (if c = some correction then c else none)

/-- A block in hand under a pattern lock state: it is a SEARCHING block once that was SEARCHING (R23). -/
def Checker.searched (k : Checker) (lock : PatternLock) : Checker :=
  match k with
  | .off => .off
  | .waiting => .waiting
  | .block start searching c => .block start (searching || decide (lock = .searching)) c

/-- The checker after a beacon (R22). A checker that waits has its interleaved beacon, and a block whose first bit is still to come has
it after this beacon, on the line at once and in a near-end loopback when the lane begins to send a block (log entry 33). On the line a
SEARCHING mark stays, since pattern lock moves by bits alone. A block that may have begun goes on. A bad beacon is a beacon here too
(log entry 14). -/
def Checker.interleaved (k : Checker) (near : Bool) (lock : PatternLock) (correction : Polarity) : Checker :=
  match k with
  | .off => .off
  | .waiting => .fresh (if near then .between else .line) lock correction
  | .block .between searching _ =>
    if near then .fresh .between lock correction else (Checker.block .line searching (some correction)).searched lock
  | .block .line searching c => (Checker.block .line searching c).corrected correction
  | .block .loop searching c => (Checker.block .loop searching c).corrected correction
  | .block .astride searching c => (Checker.block .astride searching c).corrected correction

/-- The checker of a near-end loopback when its lane begins to send a test block: the block in hand begins with it, unless it may have
begun before (R22, R27, log entry 33). -/
def Checker.looped (k : Checker) (lock : PatternLock) (correction : Polarity) : Checker :=
  match k with
  | .off => .off
  | .waiting => .waiting
  | .block .between _ _ => .fresh .loop lock correction
  | .block .line searching c => .block .line searching c
  | .block .loop searching c => .block .loop searching c
  | .block .astride searching c => .block .astride searching c

/-- The checker of a lane whose input is changed for another in the middle of a stream (R27): nothing ties a block in hand to the
sender's blocks any more (log entry 33). -/
def Checker.strayed (k : Checker) : Checker :=
  match k with
  | .off => .off
  | .waiting => .waiting
  | .block _ searching c => .block .astride searching c

/-- What stays of a block's start under the lane's input (R22, R27): a block of the line in a near-end loopback, an own block that the
lane no longer sends to itself, and any block under an own pattern word, whose bits come at once, stand astride (log entry 33). -/
def BlockStart.placed (start : BlockStart) (near : Bool) (content : Content) : BlockStart :=
  match start with
  | .between => if near = true ∧ content = .pattern then .astride else .between
  | .line => if near then .astride else .line
  | .loop => if near = true ∧ content = .prbs then .loop else .astride
  | .astride => .astride

/-- Where the block after a block begins (R22): between two of the sender's blocks where the block was one of those, which its own loop
shows or, on the line, pattern lock kept from its beacon on; else astride (log entry 33). -/
def BlockStart.next (start : BlockStart) (searching : Bool) : BlockStart :=
  match start with
  | .between => if searching then .astride else .between
  | .line => if searching then .astride else .between
  | .loop => .between
  | .astride => .astride

/-- The checker at the end of a block it has counted: at the next (R22, R23, R24). -/
def Checker.nextBlock (k : Checker) (near : Bool) (content : Content) (lock : PatternLock) (correction : Polarity) : Checker :=
  match k with
  | .off => .off
  | .waiting => .waiting
  | .block start searching _ => .fresh ((start.next searching).placed near content) lock correction

/-- The checker after a change around it (R22, R23): off where it does not count, waiting for an interleaved beacon where it begins
to, and a block in hand marked where pattern lock is SEARCHING and where the check correction is another than before (R24). -/
def Checker.follow (k : Checker) (counts near : Bool) (content : Content) (lock : PatternLock) (correction : Polarity) : Checker :=
  if counts = false then .off
  else match k with
    | .off => .waiting
    | .waiting => .waiting
    | .block start searching c => ((Checker.block (start.placed near content) searching c).corrected correction).searched lock

/-- A near-end loopback has ended: the receiver restarts, pattern lock is SEARCHING and the checker hears the line in the middle of its
stream (R27, R23). -/
def Lane.leaveNearEnd (y : Lane) : Lane :=
  { y with rx := y.rx.restart, patternLock := .searching, checker := y.checker.strayed }

/-- The lane engines follow the port's state, map, width and control records in transmit content and checker (R20, R22). -/
def Port.sync (x : Port) : Port :=
  x.mapLanes fun l y =>
    { y with gen := y.nextGen (x.content l), block := if x.content l = .prbs then y.block else none
             checker := y.checker.follow (x.counts l) (x.nearEnd l) (x.content l) (x.lock l) (x.checkCorrection l) }

/-- A lane follows a change of its own (R20, R22). -/
def State.syncPort (s : State) (p : PortIx) : State := s.modPort p Port.sync

/-! ### Automatic far-end loopback (R29, R30) -/

/-- A discovery timer started or restarted from zero with the timeout in effect, halted or not (R57, R30). -/
def Settings.discoveryTimer (g : Settings) (halted : Bool) : StageTimer := { remaining := g.discovery * 1000, halted := halted }

/-- The port controller takes loop-entered: the first looping lane halts a discovery timer (R30). -/
def Port.loopEntered (x : Port) : Port :=
  if x.state = .discover then { x with stageTimer := x.stageTimer.map fun t => { t with halted := true } } else x

/-- The port controller takes loop-left: when no lane loops any more, the discovery timer restarts from zero (R30). -/
def Port.loopLeft (x : Port) (g : Settings) : Port :=
  if x.state = .discover ∧ x.looping = false then { x with stageTimer := some (g.discoveryTimer false) } else x

/-- The lane's four conditions are judged: it enters or leaves automatic far-end loopback, with its report and its event (R29). -/
def State.judgeLoop (s : State) (p : PortIx) (l : LanePos) : State :=
  if (s.port p).loopHolds l = (s.lane p l).autoLoop then s
  else if (s.port p).loopHolds l then
    ((s.modLane p l fun y => { y with autoLoop := true }).postLane p l .loopEntered).modPort p Port.loopEntered
  else
    ((s.modLane p l fun y => { y with autoLoop := false }).postLane p l .loopLeft).modPort p fun x => x.loopLeft s.settings

/-- Every automatic loopback of a port ends, because its state changes (R29), in ascending lane position (log entry 34). -/
def State.endLoops (s : State) (p : PortIx) : State :=
  allLanes.foldl (fun t l =>
    if (t.lane p l).autoLoop then (t.modLane p l fun y => { y with autoLoop := false }).postLane p l .loopLeft else t) s

end Sys2Proof.Machine
end

