-- ==== Sys2Proof/Machine/Transitions.lean ====
section
/-! DEFINITION. Changes of a port's state: what leaving a state undoes (R94), what entering one does, the pauses of STEP mode (R83),
the grant of sweep channels (R121), failed attempts (R99), faults (R101) and the end of discovery (R59 to R64). -/

namespace Sys2Proof.Machine

/-! ### Leaving and entering a state -/

/-- What a port's record and lanes held for the state they leave (R94): among the lanes, those of ACTIVE are taken back (R17), and in
MANUAL a near-end loopback ends (R27, R23) and a pending injection goes (R31). -/
def Port.undo (x : Port) : Port :=
  Port.mapLanes
    { x with stageTimer := none, pending := none, fault := none, channel := none, handover := none, cleanRun := none,
             qualify := x.qualify.map fun q => { q with begun := false } }
    fun l y =>
      { (if x.nearEnd l then y.takeBack.leaveNearEnd else y.takeBack) with injection := if x.state = .manual then none else y.injection }

/-- The ESU with one channel freed and its record discarded (R117). -/
def Esu.free (e : Esu) (c : ChanIx) : Esu := { e with channels := e.channels.set c none }

/-- A port leaving TUNE has its sweep in flight aborted (R94, R131); the grant test follows once the port has moved. -/
def State.abortSweep (s : State) (p : PortIx) : State :=
  match s.sweepOf p with
  | some w => s.setEsu (s.esu.free w.1)
  | none => s

/-- A port leaving AWAIT_SLOT leaves the wait queue, from wherever it stands (R120). -/
def State.dequeue (s : State) (p : PortIx) : State :=
  s.setEsu { s.esu with queue := s.esu.queue.filter fun e => decide (e.port ≠ p) }

/-- What a port undoes when it leaves its state, whatever state it goes to (R94). -/
def State.undo (s : State) (p : PortIx) : State :=
  let t := match (s.port p).state with
    | .tune => s.abortSweep p
    | .awaitSlot => s.dequeue p
    | _ => s
  (t.endLoops p).modPort p Port.undo

/-- The detail of a PORT_STATE report (R103). -/
def Port.stateDetail (x : Port) (left : PortState) : Detail :=
  .portState left x.state x.pending x.fault x.cycle x.attempts

/-- Every lane's loopback conditions judged again (R29), in ascending lane position (log entry 34). -/
def State.judgeLoops (s : State) (p : PortIx) : State := allLanes.foldl (fun t l => t.judgeLoop p l) s

/-- A change of a port's state: the state left is undone, the record changed, the lanes set to listen, PORT_STATE posted, and
loopbacks, transmit content and checkers follow (R94, R103, R6, R20, R29). -/
def State.transition (s : State) (p : PortIx) (new : PortState) (f : Port → Port) : State :=
  let left := (s.port p).state
  let t := (s.undo p).modPort p fun x => Port.relisten { f x with state := new }
  ((t.postPort p ((t.port p).stateDetail left)).judgeLoops p).syncPort p

/-! ### The wait queue and the grant -/

/-- A port placed at the tail of its class: RETRAIN entries stand ahead of INITIAL ones (R119). -/
def queueJoin (q : List QueueEntry) (e : QueueEntry) : List QueueEntry :=
  match e.cycle with
  | .retrain => q.takeWhile (fun x => decide (x.cycle = .retrain)) ++ e :: q.dropWhile fun x => decide (x.cycle = .retrain)
  | .initial => q ++ [e]

/-- The number of busy channels (R117). -/
def Esu.busy (e : Esu) : Nat := (e.channels.toList.filter Option.isSome).length

/-- The free channel with the lowest number (R121). -/
def Esu.firstFree (e : Esu) : Option ChanIx := ([0, 1, 2, 3] : List ChanIx).find? fun c => e.channels[c].isNone

/-- A lane's record at the grant: the walk stands at the first far setting (R122, R123). -/
def SweepLane.start (m : LanePos × LanePos) : SweepLane :=
  { pos := m.1, logical := m.2, phase := .settle, point := { gain := 0, pre := 0, post := 0 }, measured := 0, best := none,
    result := none }

/-- The sweep record created at a grant (R122). -/
def State.newSweep (s : State) (p : PortIx) (c : ChanIx) : Sweep :=
  { number := s.esu.grants, port := p, channel := c, start := s.time.clock, watchdog := Config.watchdogMs,
    lanes := (s.port p).byLogical.map SweepLane.start }

/-- One grant (R121): the head leaves the queue, the lowest free channel takes a record, the port enters TUNE. -/
def State.grantTo (s : State) (p : PortIx) (c : ChanIx) : State :=
  (s.setEsu { channels := s.esu.channels.set c (some (s.newSweep p c)), queue := s.esu.queue.tail
              grants := s.esu.grants + 1 }).transition p .tune
    fun x => { x with channel := some c }

/-- A grant where the three conditions hold (R121). -/
def State.grant (s : State) : State :=
  if s.esu.busy < s.settings.sweepLimit then
    match s.esu.queue, s.esu.firstFree with
    | e :: _, some c => s.grantTo e.port c
    | _, _ => s
  else s

/-- The grant test: as many grants in a row as the conditions allow, and there are four channels (R121). -/
def State.grantTest (s : State) : State := s.grant.grant.grant.grant

/-- The grant test that follows the abort of a sweep (R131). -/
def State.afterAbort (s : State) (left : PortState) : State := if left = .tune then s.grantTest else s

/-! ### Entering the stages -/

/-- A stage timer of some seconds, running (R77). -/
def secondsTimer (n : Nat) : Option StageTimer := some { remaining := n * 1000, halted := false }

/-- The entry into PAUSED with a stage pending (R83). -/
def State.enterPaused (s : State) (p : PortIx) (g : PendingStage) : State :=
  (s.postPort p (.stagePause g)).transition p .paused fun x => { x with pending := some g }

/-- A port joins the wait queue at the tail of its class (R119). -/
def State.joinQueue (s : State) (p : PortIx) : State :=
  s.setEsu { s.esu with queue := queueJoin s.esu.queue { port := p, cycle := (s.port p).cycle } }

/-- ATTEMPTS counts an entry into AWAIT_SLOT of a first cycle (R91). -/
def State.countAttempt (s : State) (p : PortIx) : State :=
  if (s.port p).cycle = .initial then s.countPort p ctrAttempts else s

/-- The entry into AWAIT_SLOT (R91), followed at once by the grant test (R119). -/
def State.enterAwaitSlot (s : State) (p : PortIx) : State :=
  (((s.transition p .awaitSlot id).joinQueue p).countAttempt p).grantTest

/-- The way into AWAIT_SLOT, paused in STEP mode (R83). -/
def State.toAwaitSlot (s : State) (p : PortIx) : State :=
  if (s.port p).mode = .step then s.enterPaused p .awaitSlot else s.enterAwaitSlot p

/-- The test of PEER_WAIT's condition (R89). -/
def State.peerTest (s : State) (p : PortIx) : State :=
  if (s.port p).state = .peerWait ∧ (s.port p).peerReady then s.toAwaitSlot p else s

/-- The entry into PEER_WAIT (R89). -/
def State.enterPeerWait (s : State) (p : PortIx) : State :=
  (s.transition p .peerWait fun x => { x with stageTimer := secondsTimer s.settings.farEndWait }).peerTest p

/-- The way into PEER_WAIT, paused in STEP mode (R83). -/
def State.toPeerWait (s : State) (p : PortIx) : State :=
  if (s.port p).mode = .step then s.enterPaused p .peerWait else s.enterPeerWait p

/-- A new entry of the qualify record (R134). -/
def QualEntry.start (m : LanePos × LanePos) : QualEntry :=
  { pos := m.1, logical := m.2, blocks := 0, errors := 0, grade := none, bound := false, verdict := .pending }

/-- The window begins: the timer is cancelled, the mark set, the checkers commanded to count (R135). -/
def Port.beginWindow (x : Port) : Port :=
  { x with stageTimer := none, qualify := x.qualify.map fun q => { q with begun := true } }

/-- The window-start test (R135). -/
def State.windowTest (s : State) (p : PortIx) : State :=
  if (s.port p).state = .qualify ∧ (s.port p).windowBegun = false ∧ stageAtLeast .qual (s.port p).farStage then
    (s.modPort p Port.beginWindow).syncPort p
  else s

/-- The entry into QUALIFY (R134). -/
def State.enterQualify (s : State) (p : PortIx) : State :=
  (s.transition p .qualify fun x =>
    { x with stageTimer := secondsTimer s.settings.farEndWait,
             qualify := some { begun := false, entries := x.byLogical.map QualEntry.start } }).windowTest p

/-- The way into QUALIFY, paused in STEP mode (R83). -/
def State.toQualify (s : State) (p : PortIx) : State :=
  if (s.port p).mode = .step then s.enterPaused p .qualify else s.enterQualify p

/-- The entry into HANDOVER (R92): the record's entries in ascending lane position (log entry 35). -/
def State.enterHandover (s : State) (p : PortIx) : State :=
  s.transition p .handover fun x =>
    { x with stageTimer := secondsTimer s.settings.farEndWait,
             handover := some { closing := false, entries := x.mappedLanes.map fun l => { pos := l, readyRun := 0, sent := 0 } } }

/-- The way into HANDOVER, paused in STEP mode (R83). -/
def State.toHandover (s : State) (p : PortIx) : State :=
  if (s.port p).mode = .step then s.enterPaused p .handover else s.enterHandover p

/-- The mapped lanes given to the switch, the monitor records cleared (R93, R17, R149). -/
def Port.giveLanes (x : Port) : Port :=
  x.mapLanes fun l y =>
    { (if x.mapped l then y.give (x.handoverSettings l) else y) with monitor := .cleared }

/-- The entry into ACTIVE (R93). -/
def State.enterActive (s : State) (p : PortIx) : State :=
  s.transition p .active fun x => Port.giveLanes { x with attempts := 0, cleanRun := some Config.cleanRunMs }

/-- The entry into FAULTED (R101). -/
def State.enterFaulted (s : State) (p : PortIx) (r : FaultReason) : State :=
  let left := (s.port p).state
  (((s.postPort p (.portFault r left (s.port p).neighbour)).transition p .faulted fun x => { x with fault := some r }).countPort p
    ctrFaults).afterAbort left

/-- A failed attempt (R99): the count goes up; at 3 the port faults with the given reason, else it queues again. -/
def State.failedAttempt (s : State) (p : PortIx) (r : FaultReason) : State :=
  let t := s.modPort p fun x => { x with attempts := x.attempts + 1 }
  if 3 ≤ (t.port p).attempts then t.enterFaulted p r else t.toAwaitSlot p

/-- A width reduction to HALF (R130, R144): logical lanes L/2 and above become unused. -/
def Port.halve (x : Port) : Port :=
  { x with width := some .half
           map := Vector.ofFn fun l : LanePos =>
             { x.map[l] with logical := x.map[l].logical.filter fun k => decide (k.val < x.L / 2) } }

/-- The positions a reduction drops (R130, R144), in ascending lane position (log entry 24). -/
def Port.dropped (x : Port) : List LanePos :=
  allLanes.filter fun l => x.map[l].logical.any fun k => decide (x.L / 2 ≤ k.val)

/-- A width reduction with its report (R130, R144). -/
def State.reduceWidth (s : State) (p : PortIx) (c : WidthCause) : State :=
  ((s.postPort p (.widthReduced c (s.port p).dropped)).modPort p Port.halve).syncPort p

/-! ### Discovery -/

/-- The entry into VERIFIED (R85). -/
def State.enterVerified (s : State) (p : PortIx) : State := s.transition p .verified id

/-- The lanes found usable whose polarity is INVERTED (R107). -/
def Port.invertedCount (x : Port) : Nat :=
  (allLanes.filter fun l => x.found l && decide (x.map[l].polarity = .inverted)).length

/-- The detail of a CONSULT report (R107). -/
def Port.consultDetail (x : Port) (n : Snapshot) : Detail :=
  .consult x.neighbour x.verdict n.source n.entry.label x.mapClass x.width x.invertedCount

/-- The entry into CONSULT (R106). -/
def State.enterConsult (s : State) (p : PortIx) (n : Snapshot) : State :=
  (s.postPort p ((s.port p).consultDetail n)).transition p .consult fun x =>
    { x with accepted := false, stageTimer := secondsTimer s.settings.consult }

/-- The mode rule of step 8 (R72, R110). -/
def State.byMode (s : State) (p : PortIx) : State :=
  if (s.port p).mode = .verify then s.enterVerified p else s.toPeerWait p

/-- Step 8 (R72): the map is written, and the port goes to the host or on by its mode. -/
def State.decide8 (s : State) (p : PortIx) (n : Snapshot) (v : Option Verdict)
    (m : Vector MapEntry 8 × MapClass × Width) : State :=
  let t := s.modPort p fun x => { x with map := m.1, mapClass := some m.2.1, width := some m.2.2 }
  if n.entry.kind = .ask ∨ v = some .mismatch then t.enterConsult p n else t.byMode p

/-- The derivation of the lane map (R64). -/
def State.derivation (s : State) (p : PortIx) : State :=
  match (s.port p).snapshot with
  | none => s
  | some n =>
    let d := derive n (s.port p).usables
    let t := s.modPort p fun x => { x with neighbour := d.neighbour, verdict := d.verdict }
    match d.outcome with
    | .error r => t.enterFaulted p r
    | .ok m => t.decide8 p n d.verdict m

/-- The test that ends cabled discovery at once (R59). -/
def State.discoveryTest (s : State) (p : PortIx) : State :=
  if (s.port p).state = .discover ∧ (s.port p).cabled ∧ (s.port p).discoveryDone then s.derivation p else s

/-- The test of a dark port (R62, R88). -/
def State.darkTest (s : State) (p : PortIx) : State :=
  if ((s.port p).state = .dark ∨ (s.port p).state = .discover ∧ (s.port p).darkSnap) ∧ (s.port p).heardLock then
    s.enterFaulted p .unexpectedCable
  else s

/-- What the entry into DISCOVER writes into the record (R56, R95): a new snapshot, the results of earlier discoveries cleared, the
discovery timer started. -/
def Port.toDiscover (x : Port) (n : Snapshot) (g : Settings) : Port :=
  { x with snapshot := some n, neighbour := none, verdict := none, accepted := false, map := Vector.replicate 8 .empty,
           mapClass := none, width := none, qualify := none, attempts := 0, cycle := .initial,
           stageTimer := some (g.discoveryTimer false) }

/-- The entry into DISCOVER (R56), with the tests made at the entry (R59, R62). -/
def State.enterDiscover (s : State) (p : PortIx) : State :=
  let left := (s.port p).state
  (((s.transition p .discover fun x => x.toDiscover (s.plan.resolve p) s.settings).afterAbort left).discoveryTest p).darkTest p

/-- What PORT_STOP clears in the record (R81, R75). -/
def Port.stopped (x : Port) : Port :=
  { x with neighbour := none, verdict := none, accepted := false, map := Vector.replicate 8 .empty, mapClass := none,
           width := none, qualify := none, attempts := 0 }

/-- A port stopped (R81), without the grant test that may follow; a port in IDLE is unchanged. -/
def State.stopPort (s : State) (p : PortIx) : State :=
  if (s.port p).state = .idle then s else s.transition p .idle Port.stopped

/-- What a PORT(n) block reset does to the record after the stop (R105, R149, R169). -/
def Port.blockReset (x : Port) : Port :=
  Port.mapLanes
    { x with mode := .auto, snapshot := none, cycle := .initial, attempts := 0, unstable := 0,
             counters := Vector.replicate 3 .zero }
    fun _ y => { y with monitor := .cleared, counters := Vector.replicate 7 .zero }

/-- A PORT(n) block reset (R105), without the grant test that may follow. -/
def State.resetPort (s : State) (p : PortIx) : State := (s.stopPort p).modPort p Port.blockReset

end Sys2Proof.Machine
end

