-- ==== Sys2Proof/Machine/Sweep.lean ====
section
/-! DEFINITION. The Equalization Sweep Unit: a lane's walk (R123 to R126), the ends of a sweep (R127, R128), its outcome (R129), and
the ESU block reset (R132). -/

namespace Sys2Proof.Machine

/-! ### A lane's walk -/

/-- The tie order of points: gain, then pre-cursor, then post-cursor, the lower first (R124). -/
def Point.before (a b : Point) : Bool :=
  decide (a.gain < b.gain ∨ a.gain = b.gain ∧ (a.pre < b.pre ∨ a.pre = b.pre ∧ a.post < b.post))

/-- The best point after a figure measured at a point (R124). -/
def bestAfter (best : Option Best) (at_ : Point) (figure : Byte) : Best :=
  match best with
  | none => { point := at_, figure := figure }
  | some b =>
    if b.figure < figure ∨ figure = b.figure ∧ at_.before b.point then { point := at_, figure := figure } else b

/-- The result of a finished lane (R126): NOT_CONVERGED below 32 or without any figure, EDGE at the top of a range. -/
def resultOf (best : Option Best) : LaneResult :=
  match best with
  | none => .notConverged
  | some b =>
    if b.figure < 32 then .notConverged
    else if b.point.gain = 15 ∨ b.point.pre = 7 ∨ b.point.post = 15 then .edge else .converged

/-- The far setting after one, in the order of R123: post-cursors under a pre-cursor, then the next pre-cursor. -/
def Point.nextFar (p : Point) : Option Point :=
  if h : p.post.val + 1 < 16 then some { p with post := ⟨p.post.val + 1, h⟩ }
  else if h : p.pre.val + 1 < 8 then some { p with pre := ⟨p.pre.val + 1, h⟩, post := 0 }
  else none

/-- A swept lane has sent a beacon carrying its far setting (R123 step 2, R125). -/
def SweepLane.beaconSent (y : SweepLane) : SweepLane :=
  match y.phase with
  | .settle => { y with phase := .measure, point := { y.point with gain := 0 } }
  | .closing => { y with phase := .finished, result := some (resultOf y.best) }
  | .measure | .finished => y

/-- The walk after the figure of the current point (R123, R125): the next gain, the next far setting, or the best point. -/
def SweepLane.advance (y : SweepLane) (best : Best) : SweepLane :=
  if h : y.point.gain.val + 1 < 16 then { y with point := { y.point with gain := ⟨y.point.gain.val + 1, h⟩ } }
  else match y.point.nextFar with
    | some q => { y with point := q, phase := .settle }
    | none => { y with point := best.point, phase := .closing }

/-- A figure of merit arrives for a lane that has asked for one (R124). -/
def SweepLane.figureArrived (y : SweepLane) (figure : Byte) : SweepLane :=
  if y.phase = .measure then
    { y with measured := y.measured + 1, best := some (bestAfter y.best y.point figure) }.advance (bestAfter y.best y.point figure)
  else y

/-- A sweep record with one lane's record changed. -/
def Sweep.modLane (w : Sweep) (l : LanePos) (f : SweepLane → SweepLane) : Sweep :=
  { w with lanes := w.lanes.map fun y => if y.pos = l then f y else y }

/-- Every lane of the record is finished (R127). -/
def Sweep.complete (w : Sweep) : Bool := w.lanes.all fun y => decide (y.phase = .finished)

/-- The state with a channel's record replaced. -/
def State.setSweep (s : State) (c : ChanIx) (w : Sweep) : State :=
  s.setEsu { s.esu with channels := s.esu.channels.set c (some w) }

/-! ### How a sweep ends -/

/-- A lane of a record is NOT_CONVERGED. -/
def SweepLane.failed (y : SweepLane) : Bool := decide (y.result = some .notConverged ∨ y.result = none)

/-- A failed lane that half width spares: its logical lane is L/2 or above (R129). -/
def SweepLane.spared (y : SweepLane) (L : Nat) : Bool := decide (L / 2 ≤ y.logical.val)

/-- The port may go on at HALF: FULL now, and its policy HALF_OK (R129, R143). -/
def Port.mayHalve (x : Port) : Bool :=
  decide (x.width = some .full) && x.snapshot.any fun n => decide (n.entry.width = .halfOk)

/-- The outcome of a sweep over the lanes of its record (R129, R130). -/
def State.sweepOutcome (s : State) (p : PortIx) (ys : List SweepLane) : State :=
  if ys.all (fun y => !y.failed) then s.toQualify p
  else if (s.port p).mayHalve ∧ ys.all (fun y => !y.failed || y.spared (s.port p).L) then
    (s.reduceWidth p .sweep).toQualify p
  else s.failedAttempt p .tuneFail

/-- The end of a sweep that delivers an outcome: the channel is freed, the report posted, the outcome given, and a grant tested for
(R127 steps 3 to 6, R128 steps 3 to 6). -/
def State.endSweep (s : State) (c : ChanIx) (w : Sweep) (d : Detail) : State :=
  (((s.setEsu (s.esu.free c)).postPort w.port d).sweepOutcome w.port w.lanes).grantTest

/-- The best gain of every lane of a record, written into the stored settings (R127 step 2). -/
def State.writeGains (s : State) (w : Sweep) : State :=
  w.lanes.foldl (fun t y => match y.best with
    | some b => t.modLane w.port y.pos fun z => { z with eq := { z.eq with gain := b.point.gain } }
    | none => t) s

/-- The time since a grant (R133). -/
def State.since (s : State) (start : Word) : Nat := (s.time.clock - start).toNat

/-- A sweep completes (R127). -/
def State.completeSweep (s : State) (c : ChanIx) (w : Sweep) : State :=
  (s.writeGains w).endSweep c w (.sweepDone c (s.since w.start) w.lanes)

/-- A lane that had not finished when the watchdog expired (R128 step 1). -/
def SweepLane.timedOut (y : SweepLane) : SweepLane :=
  if y.phase = .finished then y else { y with result := some .notConverged }

/-- The watchdog of a busy channel expires (R128). -/
def State.watchdog (s : State) (c : ChanIx) : State :=
  match s.esu.channels[c] with
  | none => s
  | some w =>
    let v : Sweep := { w with lanes := w.lanes.map SweepLane.timedOut }
    s.endSweep c v (.sweepTimeout c v.lanes)

/-- A beacon sent by a lane of a port in TUNE acts on its sweep (R123, R125, R127). -/
def State.sweepBeacon (s : State) (p : PortIx) (l : LanePos) : State :=
  match s.sweepOf p with
  | none => s
  | some (c, w) =>
    let v := w.modLane l SweepLane.beaconSent
    if v.complete then s.completeSweep c v else s.setSweep c v

/-- A figure of merit, the answer to a request of the sweep of a number, reaches the ESU. One that no request of the running sweep has
asked for is late and is dropped (R19, R124). -/
def State.sweepFigure (s : State) (p : PortIx) (l : LanePos) (number : Nat) (figure : Byte) : State :=
  match s.sweepOf p with
  | none => s
  | some (c, w) => if s.figureDue p l = some number then s.setSweep c (w.modLane l (·.figureArrived figure)) else s

/-! ### The ESU block reset (R132) -/

/-- The ports in TUNE, in ascending port index. -/
def State.tuning (s : State) : List PortIx := allPorts.filter fun p => decide ((s.port p).state = .tune)

/-- A port sent back toward AWAIT_SLOT, outside the ordinary entry: no attempt, no ATTEMPTS (R132 step 2). -/
def State.sendBack (s : State) (p : PortIx) : State :=
  if (s.port p).mode = .step then s.enterPaused p .awaitSlot else s.transition p .awaitSlot id

/-- The queue with the returning ports at the front of their classes (R132 step 2). -/
def queueReturn (back : List QueueEntry) (q : List QueueEntry) : List QueueEntry :=
  back.filter (fun e => decide (e.cycle = .retrain)) ++ q.filter (fun e => decide (e.cycle = .retrain)) ++
    back.filter (fun e => decide (e.cycle = .initial)) ++ q.filter fun e => decide (e.cycle = .initial)

/-- The entries of the ports that rejoin the queue: those not in STEP mode (R132 step 2). -/
def State.returning (s : State) (ps : List PortIx) : List QueueEntry :=
  (ps.filter fun p => decide ((s.port p).mode ≠ .step)).map fun p => { port := p, cycle := (s.port p).cycle }

/-- BLOCK_RESET of the ESU (R132): sweeps aborted, ports in TUNE sent back, the limit 4, then the grant test. -/
def State.esuReset (s : State) : State :=
  let back := s.tuning
  let t := back.foldl State.sendBack (s.setEsu { s.esu with channels := Vector.replicate 4 none })
  let u := t.setEsu { t.esu with queue := queueReturn (t.returning back) t.esu.queue }
  (u.setSettings { u.settings with sweepLimit := 4 }).grantTest

end Sys2Proof.Machine
end

