-- ==== Sys2Proof/Machine/React.lean ====
section
/-! DEFINITION. How a port takes the events of its lanes: silence, identity changes, the far end, beacons in HANDOVER and during a
recovery hunt (R61, R62, R85, R88, R89, R92, R95 to R98, R113, R114, R135, R146, R152, R157 to R159). -/

namespace Sys2Proof.Machine

/-! ### Retraining -/

/-- A retrain trigger or a join is taken by an ACTIVE port (R152, R158): UNSTABLE at count 3, else a retrain. -/
def State.takeRetrain (s : State) (p : PortIx) (l : LanePos) (cause : RetrainCause)
    (window : Option (RetrainWindow × List Bool)) : State :=
  if 3 ≤ (s.port p).unstable then s.enterFaulted p .unstable
  else
    let t := (s.modPort p fun x => { x with unstable := x.unstable + 1 }).countPort p ctrRetrains
    let u := t.postPort p
      (.retrain cause l (t.port p).map[l].logical window (t.port p).unstable (t.port p).width)
    (u.modPort p fun x => { x with cycle := .retrain, attempts := 0 }).toAwaitSlot p

/-! ### Lane events -/

/-- An IDENTITY_CHANGED in cabled discovery restarts the timer with the timeout in effect; a halted timer stays halted
(R57, R30). -/
def Port.restartDiscovery (x : Port) (g : Settings) : Port :=
  { x with stageTimer := x.stageTimer.map fun t => g.discoveryTimer t.halted }

/-- A position 0..L − 1 that is not excluded (R57, R113). -/
def Port.counted (x : Port) (l : LanePos) : Bool := decide (l.val < x.L) && !(x.lane l).control.excluded

/-- A lane event in cabled discovery (R61). -/
def State.discoverEvent (s : State) (p : PortIx) (l : LanePos) : LaneEvent → State
  | .stable | .twoWay => s.discoveryTest p
  | .identityChanged _ _ => if (s.port p).counted l then s.modPort p (·.restartDiscovery s.settings) else s
  | .locked | .silent | .oneWay => s

/-- A lane event on a port in dark discovery or DARK (R62, R88). -/
def State.darkEvent (s : State) (p : PortIx) (l : LanePos) : LaneEvent → State
  | .locked => if (s.lane p l).control.excluded then s else s.enterFaulted p .unexpectedCable
  | _ => s

/-- A consult is withdrawn (R114). -/
def State.withdraw (s : State) (p : PortIx) (l : LanePos) (e : WithdrawEvent) : State :=
  (s.postLane p l (.consultWithdrawn e (s.port p).neighbour)).enterDiscover p

/-- A lane event in CONSULT (R113). -/
def State.consultEvent (s : State) (p : PortIx) (l : LanePos) : LaneEvent → State
  | .silent => if (s.port p).found l then s.withdraw p l .silent else s
  | .oneWay => if (s.port p).found l then s.withdraw p l .oneWay else s
  | .identityChanged _ _ => if (s.port p).counted l then s.withdraw p l .identityChanged else s
  | .locked | .stable | .twoWay => s

/-- A lane the port relies on fell silent or changed identity (R85, R95, R96). -/
def State.lostEvent (s : State) (p : PortIx) (l : LanePos) : LaneEvent → State
  | .silent => (s.postLane p l .laneSilent).enterDiscover p
  | .identityChanged a b => (s.postLane p l (.neighbourChanged a b)).enterDiscover p
  | .locked | .stable | .oneWay | .twoWay => s

/-- A lane event of a hunting lane on an ACTIVE port: only IDENTITY_CHANGED moves the port by itself (R157, R159), whether R10 or R11
hands it (log entry 27). -/
def State.huntEvent (s : State) (p : PortIx) (l : LanePos) : LaneEvent → State
  | .identityChanged a b => (s.postLane p l (.neighbourChanged a b)).enterDiscover p
  | _ => s

/-- The port takes a lane event according to its state. -/
def State.laneEvent (s : State) (p : PortIx) (l : LanePos) (e : LaneEvent) : State :=
  match (s.port p).state with
  | .discover => if (s.port p).cabled then s.discoverEvent p l e else s.darkEvent p l e
  | .dark => s.darkEvent p l e
  | .consult => s.consultEvent p l e
  | .verified => if (s.port p).found l then s.lostEvent p l e else s
  | .peerWait | .awaitSlot | .tune | .qualify | .handover | .paused =>
    if (s.port p).mapped l then s.lostEvent p l e else s
  | .active => if (s.lane p l).monitor.hunt.isSome then s.huntEvent p l e else s
  | .idle | .manual | .faulted => s

/-! ### The far end (R89, R92, R97, R98, R135, R157) -/

/-- The READY run of a lane in the handover record set to a value computed from it (R92). -/
def HandRecord.setRun (h : HandRecord) (l : LanePos) (f : Nat → Nat) : HandRecord :=
  { h with entries := h.entries.map fun e => if e.pos = l then { e with readyRun := f e.readyRun } else e }

/-- The closing mark, once every lane's READY run is 2 or more; the sent counts start again from 0 (R92). -/
def HandRecord.close (h : HandRecord) : HandRecord :=
  if !h.closing && h.entries.all (fun e => decide (2 ≤ e.readyRun)) then
    { closing := true, entries := h.entries.map fun e => { e with sent := 0 } }
  else h

/-- A beacon received on a mapped lane in HANDOVER: a good READY counts, anything else clears the run (R92). -/
def Port.readyHeard (x : Port) (l : LanePos) (ready : Bool) : Port :=
  { x with handover := x.handover.map fun h => (h.setRun l fun n => if ready then n + 1 else 0).close }

/-- The far-end stage has become WAIT with this beacon (R98 item 2, R146; log entry 12). -/
def fellToWait (before now : Option Stage) : Bool := decide (before ≠ some .wait ∧ now = some .wait)

/-- A good beacon on a mapped lane acts on a port from PEER_WAIT through HANDOVER and in PAUSED (R89, R92, R97, R98, R135). -/
def State.farEndEvent (s : State) (p : PortIx) (l : LanePos) (b : Beacon) (before : Option Stage) : State :=
  let x := s.port p
  if b.fault.isSome then s.enterFaulted p .farEndFault
  else match x.state with
    | .peerWait => s.peerTest p
    | .awaitSlot | .tune => if b.stage = .disc then s.enterDiscover p else s
    | .paused => if b.stage = .disc ∧ x.pending ≠ some .peerWait then s.enterDiscover p else s
    | .qualify =>
      if b.stage = .disc then s.enterDiscover p
      else if x.windowBegun then (if fellToWait before x.farStage then s.failedAttempt p .qualifyFail else s)
      else s.windowTest p
    | .handover =>
      if b.stage = .disc then s.enterDiscover p
      else if fellToWait before x.farStage then s.failedAttempt p .qualifyFail
      else s.modPort p (·.readyHeard l (decide (b.stage = .ready)))
    | _ => s

/-- What a good beacon's stage and flags do to the port (R89, R97, R98, R135), or to the hunt of an ACTIVE lane (R157 row 2). -/
def State.farTests (s : State) (p : PortIx) (l : LanePos) (b : Beacon) (before : Option Stage) : State :=
  match (s.port p).state with
  | .peerWait | .awaitSlot | .tune | .qualify | .handover | .paused =>
    if (s.port p).mapped l then s.farEndEvent p l b before else s
  | .active =>
    if (s.lane p l).monitor.hunt.isSome ∧ (s.lane p l).rx.state = .stable ∧ b.flags.retrain then
      s.takeRetrain p l .farEndRetrain none
    else s
  | _ => s

/-! ### Receiving -/

/-- The port's state honours tap requests (R33). -/
def Port.honoursTaps (x : Port) : Bool :=
  match x.state with
  | .peerWait | .awaitSlot | .tune | .paused => true
  | .qualify => !x.windowBegun
  | _ => false

/-- An honoured tap request writes the transmitter's cursors (R33). -/
def Lane.honour (y : Lane) : Option Taps → Lane
  | some t => { y with eq := { y.eq with pre := t.pre, post := t.post } }
  | none => y

/-- A lane's check correction once its receive record is another (R24: in MANUAL it is that of the last stable identity). -/
def Port.correctionAfter (x : Port) (l : LanePos) (r : Receiver) : Polarity :=
  (x.modLane l fun y => { y with rx := r }).checkCorrection l

/-- A lane after the receiver has taken a beacon: its record, its checker, and the hunt's mark that a beacon was heard. A bad beacon is
a beacon here too (log entry 14). -/
def Lane.received (y : Lane) (r : Receiver) (near : Bool) (lock : PatternLock) (correction : Polarity) : Lane :=
  { y with rx := r, checker := y.checker.interleaved near lock correction
           monitor := { y.monitor with hunt := y.monitor.hunt.map fun h => { h with heard := true } } }

/-- The lane engine's own report of an identity change (R10, R11). -/
def State.reportChange (s : State) (p : PortIx) (l : LanePos) : LaneEvent → State
  | .identityChanged a b => s.postLane p l (.identityChanged a b)
  | _ => s

/-- The lane's loop conditions are judged, and a loop-left event tests the end of discovery (R29, R30, R59). -/
def State.loopCheck (s : State) (p : PortIx) (l : LanePos) : State :=
  if (s.lane p l).autoLoop ∧ ((s.judgeLoop p l).lane p l).autoLoop = false then (s.judgeLoop p l).discoveryTest p
  else s.judgeLoop p l

/-- The lane engine hands its events on: its own report first, then loopback, then the port (R10, R11, R29). -/
def State.handEvents (s : State) (p : PortIx) (l : LanePos) (es : List LaneEvent) : State :=
  es.foldl (fun t e => t.laneEvent p l e) ((es.foldl (fun t e => t.reportChange p l e) s).loopCheck p l)

/-- A good beacon (R2, R7): counted, its tap request honoured where the port's state says so, the receive record and its events,
then the far-end stage and flags, where the events left the port in its state. -/
def State.receiveGood (s : State) (p : PortIx) (l : LanePos) (b : Beacon) (pol : Polarity) : State :=
  let x := s.port p
  let out := (x.lane l).rx.good b pol
  let t := (s.countLane p l ctrBeaconGood 1).modLane p l fun y =>
    (if x.honoursTaps then y.honour b.tap else y).received out.1 (x.nearEnd l) (x.lock l) (x.correctionAfter l out.1)
  let u := t.handEvents p l out.2
  if (u.port p).state = x.state then u.farTests p l b x.farStage else u

/-- A bad beacon on a mapped lane of a port in HANDOVER clears the READY run (R92). -/
def State.readyLost (s : State) (p : PortIx) (l : LanePos) : State :=
  if (s.port p).state = .handover ∧ (s.port p).mapped l then s.modPort p (·.readyHeard l false) else s

/-- A bad beacon (R2, R8): counted, nothing taken from it. -/
def State.receiveBad (s : State) (p : PortIx) (l : LanePos) : State :=
  let x := s.port p
  let out := (x.lane l).rx.bad
  let t := (s.countLane p l ctrBeaconBad 1).modLane p l fun y => y.received out.1 (x.nearEnd l) (x.lock l) (x.correctionAfter l out.1)
  (t.readyLost p l).handEvents p l out.2

/-- The receiver takes what it hears (R2). -/
def State.receive (s : State) (p : PortIx) (l : LanePos) : Classed → State
  | .nothing => s
  | .bad => s.receiveBad p l
  | .good b pol => s.receiveGood p l b pol

/-- The silence timer of a listening lane expires (R9). -/
def State.silence (s : State) (p : PortIx) (l : LanePos) : State :=
  let out := (s.lane p l).rx.expire
  (s.modLane p l fun y => { y with rx := out.1 }).handEvents p l out.2

end Sys2Proof.Machine
end

