-- ==== Sys2Proof/Machine/Monitor.lean ====
section
/-! DEFINITION. Time and active monitoring: the millisecond that passes, monitor periods and retrain triggers (R149 to R152), lock
loss and recovery (R156 to R159), and the interval boundary (R166 to R168). -/

namespace Sys2Proof.Machine

/-! ### A millisecond passes (log entry 3) -/

/-- A lane's timers a millisecond later. -/
def Lane.tick (y : Lane) : Lane :=
  { y with rx := { y.rx with silence := y.rx.silence.map (· - 1) }
           monitor := { y.monitor with hunt := y.monitor.hunt.map fun h => { h with remaining := h.remaining - 1 } } }

/-- A stage timer a millisecond later; a halted timer stands (R30). -/
def StageTimer.tick (t : StageTimer) : StageTimer := if t.halted then t else { t with remaining := t.remaining - 1 }

/-- A port's timers a millisecond later. -/
def Port.tick (x : Port) : Port :=
  Port.mapLanes { x with stageTimer := x.stageTimer.map StageTimer.tick, cleanRun := x.cleanRun.map (· - 1) } fun _ y => y.tick

/-- A sweep's watchdog a millisecond later. -/
def Sweep.tick (w : Sweep) : Sweep := { w with watchdog := w.watchdog - 1 }

/-- The ESU's watchdogs a millisecond later. -/
def Esu.tick (e : Esu) : Esu := { e with channels := Vector.ofFn fun c : ChanIx => e.channels[c].map Sweep.tick }

/-- The assembler's gap timer a millisecond later. -/
def Mpt.tick (m : Mpt) : Mpt := { m with asm := { m.asm with gap := m.asm.gap.map (· - 1) } }

/-- The state with the Time Base replaced. -/
def State.setTime (s : State) (t : TimeBase) : State := { s with time := t }

/-- The clock goes on by one millisecond, and with it every running timer. -/
def State.tick (s : State) : State :=
  (((s.mapPorts fun _ x => x.tick).setEsu s.esu.tick).setMpt s.mpt.tick).setTime { s.time with clock := s.time.clock + 1 }

/-! ### Monitor periods -/

/-- The maximum of a period's error count (R150). -/
def periodErrorsMax : Nat := 65535

/-- A symbol error in the current period (R150). -/
def Monitor.addError (m : Monitor) : Monitor := { m with errors := min periodErrorsMax (m.errors + 1) }

/-- A period is errored: its error count is the threshold or more (R150). -/
def Monitor.errored (m : Monitor) (threshold : Nat) : Bool := decide (threshold ≤ m.errors)

/-- The record after a period's end: the result at the front of a history of at most six, a new count (R150). -/
def Monitor.endPeriod (m : Monitor) (threshold : Nat) : Monitor :=
  { m with errors := 0, history := (m.errored threshold :: m.history).take 6 }

/-- The retrain window holds two errored periods or more (R151). -/
def Monitor.triggers (m : Monitor) (w : RetrainWindow) : Bool :=
  decide (w ≠ .off) && decide (2 ≤ ((m.history.take w.toNat).filter id).length)

/-- A lane is monitored: its port is ACTIVE and the switch owns it (R149, R17). -/
def State.monitored (s : State) (p : PortIx) (l : LanePos) : Bool :=
  decide ((s.port p).state = .active) && decide ((s.lane p l).owner = .switch)

/-- Every lane of the part as (port, position), in ascending order. -/
def everyLane : List (PortIx × LanePos) := allPorts.flatMap fun p => allLanes.map fun l => (p, l)

/-- A monitored lane judges its period (R150). -/
def State.judgePeriod (s : State) (p : PortIx) (l : LanePos) : State :=
  if s.monitored p l then
    let m := (s.lane p l).monitor
    let t := s.modLane p l fun y => { y with monitor := m.endPeriod s.settings.errThreshold }
    if m.errored s.settings.errThreshold then t.countLane p l ctrErrPeriods 1 else t
  else s

/-- The lanes that raise a trigger at this period end (R151). -/
def State.triggered (s : State) : List (PortIx × LanePos) :=
  everyLane.filter fun k => s.monitored k.1 k.2 && (s.lane k.1 k.2).monitor.triggers s.settings.retrain

/-- A trigger reaches its port controller: taken in ACTIVE, else nothing (R152). -/
def State.takeTrigger (s : State) (p : PortIx) (l : LanePos) : State :=
  if (s.port p).state = .active then
    s.takeRetrain p l .errorWindow (some (s.settings.retrain, (s.lane p l).monitor.history))
  else s

/-- The triggers of one period end, taken in an order that the spec leaves open (R152, log entry 5). -/
def State.takeTriggers : Nat → List (PortIx × LanePos) → State → State
  | 0, _, s => s
  | _ + 1, [], s => s
  | _ + 1, [k], s => s.takeTrigger k.1 k.2
  | n + 1, a :: b :: ks, s =>
    let i := Config.raceChoice s.freeIx % (a :: b :: ks).length
    let k := ((a :: b :: ks)[i]?).getD a
    (s.useFree.takeTrigger k.1 k.2).takeTriggers n ((a :: b :: ks).eraseIdx i)
  termination_by structural n => n

/-- The end of the 1 ms monitor period: time goes on, every lane judges its period, and the triggers are taken (R150 to R152). The lanes
judge in ascending port and position, and their COUNTER_SATURATED reports follow in that order (log entry 30). -/
def State.periodEnd (s : State) : State :=
  let t := everyLane.foldl (fun t k => t.judgePeriod k.1 k.2) s.tick
  State.takeTriggers t.triggered.length t.triggered t

/-! ### Lock loss and recovery -/

/-- A hunt begins: the timer at 100 ms, the receiver restarted (R156). -/
def Lane.startHunt (y : Lane) : Lane :=
  { y with rx := y.rx.restart, monitor := { y.monitor with hunt := some { remaining := Config.recoveryMs, heard := false } } }

/-- A hunt ends with block lock regained: the receiver is suspended again (R157). -/
def Lane.endHunt (y : Lane) : Lane := { y with rx := y.rx.suspend, monitor := { y.monitor with hunt := none } }

/-- The recovery state of every other mapped lane (R159), in ascending lane position (log entry 37). -/
def Port.otherHunts (x : Port) (l : LanePos) : List (LanePos × Bool) :=
  (x.mappedLanes.filter fun k => decide (k ≠ l)).map fun k => (k, (x.lane k).monitor.hunt.isSome)

/-- A link is given up: LINK_LOST, then discovery (R159). -/
def State.linkLost (s : State) (p : PortIx) (l : LanePos) (h : Hunt) : State :=
  (s.postLane p l (.linkLost (s.lane p l).rx.lastStable ((s.port p).otherHunts l) h.heard)).enterDiscover p

/-! ### The interval boundary -/

/-- The lanes whose SYMBOL_ERR rose in the interval just ended (R168). -/
def State.errorLanes (s : State) : Nat :=
  (everyLane.filter fun k =>
    decide ((s.lane k.1 k.2).counters[ctrSymbolErr].snap < (s.lane k.1 k.2).counters[ctrSymbolErr].live)).length

/-- Every counter's snapshot takes its live value (R167). -/
def State.sampleAll (s : State) : State :=
  let t := s.mapPorts fun _ x =>
    Port.mapLanes { x with counters := Vector.ofFn fun i : Fin 3 => x.counters[i].sample } fun _ y =>
      { y with counters := Vector.ofFn fun i : Fin 7 => y.counters[i].sample }
  t.setMpt { t.mpt with counters := Vector.ofFn fun i : Fin 2 => t.mpt.counters[i].sample }

/-- The number of ports in a state (R168). -/
def State.portsIn (s : State) (z : PortState) : Nat := (allPorts.filter fun p => decide ((s.port p).state = z)).length

/-- The state with the summary countdown replaced. -/
def State.setCountdown (s : State) (n : Nat) : State := { s with countdown := n }

/-- The summary countdown at a boundary (R168). -/
def State.summary (s : State) (lanes : Nat) : State :=
  if s.settings.sampling = .live ∨ s.settings.decimation = 0 then s
  else if s.countdown - 1 = 0 then
    (s.post { port := none, lane := none,
              detail := .intervalSummary s.time.interval (s.portsIn .active) (s.portsIn .faulted) lanes }).setCountdown
      s.settings.decimation
  else s.setCountdown (s.countdown - 1)

/-- An interval boundary (R166 to R168). -/
def State.boundary (s : State) : State :=
  ((s.setTime { s.time with interval := s.time.interval + 1 }).sampleAll).summary s.errorLanes

end Sys2Proof.Machine
end

