-- ==== Sys2Proof/Machine/Formats.lean ====
section
/-! DEFINITION. The byte layouts of report records, reply bodies and reply frames (R190, R192 to R195). The layouts of details that
R192 leaves to "the fields of the posting rule" are log entry 8. -/

namespace Sys2Proof.Machine

/-! ### Fields -/

/-- A field that its rule always gives, in a record that could lack it: zeros stand in where it does. -/
def fixedBytes {α : Type} (n : Nat) (f : α → List Byte) : Option α → List Byte
  | none => List.replicate n 0
  | some a => f a

/-- A lane position, remote lane or logical lane in one byte. -/
def laneByte (l : LanePos) : Byte := byte l.val

/-- A port index in one byte. -/
def portByte (p : PortIx) : Byte := byte p.val

/-- A set of named things as flags, the first in bit 0 (log entry 8). -/
def flagsByte : List Bool → Nat
  | [] => 0
  | b :: bs => b.toNat + 2 * flagsByte bs

/-- A neighbour: chassis 4, port number 1 (R193). -/
def Neighbour.bytes (n : Neighbour) : List Byte := be32 n.chassis.toNat ++ [n.portNum]

/-- An identity in 8 bytes (R194). -/
def Identity.bytes (i : Identity) : List Byte :=
  be32 i.chassis.toNat ++ [i.portNum, laneByte i.lane, byte i.count.toNat, i.polarity.code]

/-- A plan entry in 17 to 33 bytes (R193). -/
def PlanEntry.bytes (e : PlanEntry) : List Byte :=
  [e.kind.code] ++ be32 ((e.chassis.map BitVec.toNat).getD 0) ++ be16 ((e.portNum.map BitVec.toNat).getD 0xFFFF) ++
    [byte e.count.toNat, e.width.code, e.map.code, e.polarity.code, boolByte e.ask, boolByte e.loop, byte e.grade] ++
    be16 e.window ++ labelBytes e.label

/-- A snapshot: source, then the entry (R193, R195). -/
def Snapshot.bytes (n : Snapshot) : List Byte := n.source.code :: n.entry.bytes

/-- An entry of the qualify record in 11 or 12 bytes (R192). -/
def QualEntry.bytes (e : QualEntry) : List Byte :=
  [laneByte e.pos, laneByte e.logical] ++ be16 e.blocks ++ be32 e.errors ++ optBytes (fun g => [byte g]) e.grade ++
    [boolByte e.bound, e.verdict.code]

/-- A best point with its figure: gain, pre-cursor, post-cursor, figure (R133). -/
def Best.bytes (b : Best) : List Byte := [byte b.point.gain.val, byte b.point.pre.val, byte b.point.post.val, b.figure]

/-- A lane of a SWEEP_DONE report (R133). -/
def SweepLane.doneBytes (y : SweepLane) : List Byte :=
  [laneByte y.pos, laneByte y.logical] ++ fixedBytes 4 Best.bytes y.best ++ fixedBytes 1 (fun r => [r.code]) y.result

/-- A lane of a SWEEP_TIMEOUT report (R133). -/
def SweepLane.timeoutBytes (y : SweepLane) : List Byte :=
  [laneByte y.pos, laneByte y.logical, boolByte (decide (y.phase = .finished))] ++ be16 y.measured ++ optBytes Best.bytes y.best ++
    fixedBytes 1 (fun r => [r.code]) y.result

/-! ### Report records (R192) -/

/-- The detail of a report: the fields of the posting rule, in the order that rule lists them (R192). -/
def Detail.bytes : Detail → List Byte
  | .portState left entered pending fault cycle attempts =>
    [left.code, entered.code] ++ optBytes (fun g => [g.code]) pending ++ optBytes (fun r => [r.code]) fault ++
      [cycle.code, byte attempts]
  | .portFault reason left nb => [reason.code, left.code] ++ optBytes Neighbour.bytes nb
  | .consult nb verdict source label mapClass width inverted =>
    fixedBytes 5 Neighbour.bytes nb ++ fixedBytes 1 (fun v => [v.code]) verdict ++ [source.code] ++ labelBytes label ++
      fixedBytes 1 (fun c => [c.code]) mapClass ++ fixedBytes 1 (fun w => [w.code]) width ++ [byte inverted]
  | .consultWithdrawn event nb => event.code :: fixedBytes 5 Neighbour.bytes nb
  | .stagePause pending => [pending.code]
  | .laneSilent => []
  | .identityChanged earlier new => earlier.bytes ++ new.bytes
  | .neighbourChanged earlier new => earlier.bytes ++ new.bytes
  | .loopEntered => []
  | .loopLeft => []
  | .planDrift darkness laneCount neighbour old new state nb =>
    [byte (flagsByte [darkness, laneCount, neighbour]), old.entry.kind.code, old.source.code, new.entry.kind.code,
      new.source.code] ++ labelBytes new.entry.label ++ [state.code] ++ optBytes Neighbour.bytes nb
  | .sweepDone channel elapsed lanes => [byte channel.val] ++ be16 elapsed ++ listBytes SweepLane.doneBytes lanes
  | .sweepTimeout channel lanes => [byte channel.val] ++ listBytes SweepLane.timeoutBytes lanes
  | .qualifyDone deciding grade window ceiling cycle attempts entries outcome =>
    [boolByte deciding.isSome] ++ optBytes (fun d => [laneByte d.1, laneByte d.2]) deciding ++ [byte grade] ++ be16 window ++
      be64 ceiling ++ [cycle.code, byte attempts] ++ listBytes QualEntry.bytes entries ++ [outcome.code]
  | .widthReduced cause dropped => [cause.code, Width.full.code, Width.half.code] ++ listBytes (fun l => [laneByte l]) dropped
  | .retrain cause pos logical window unstable width =>
    [cause.code, laneByte pos] ++ fixedBytes 1 (fun k => [laneByte k]) logical ++
      optBytes (fun w => byte w.1.toNat :: listBytes (fun e => [boolByte (!e)]) w.2) window ++ [byte unstable] ++
      fixedBytes 1 (fun w => [w.code]) width
  | .lockBlip elapsed => [byte elapsed]
  | .linkLost lastStable others heard =>
    fixedBytes 8 Identity.bytes lastStable ++ listBytes (fun o => [laneByte o.1, boolByte o.2]) others ++ [boolByte heard]
  | .counterSaturated counter marks => [byte counter, byte (flagsByte marks)]
  | .intervalSummary interval active faulted lanes => be32 interval.toNat ++ [byte active, byte faulted, byte lanes]
  | .listOverflow dropped kind port lane =>
    be16 dropped ++ [kind.code] ++ optBytes (fun p => [portByte p]) port ++ optBytes (fun l => [laneByte l]) lane

/-- A report record as a fetch carries it (R192). -/
def Record.bytes (x : Record) : List Byte :=
  [x.report.kind.code] ++ optBytes (fun p => [portByte p]) x.report.port ++ optBytes (fun l => [laneByte l]) x.report.lane ++
    be32 x.time.toNat ++ [byte x.count] ++ listBytes (fun b => [b]) x.report.detail.bytes

/-! ### PORT_QUERY (R193) -/

/-- A lane map entry (R193). -/
def MapEntry.bytes (m : MapEntry) : List Byte :=
  optBytes (fun l => [laneByte l]) m.remote ++ [m.polarity.code] ++ optBytes (fun k => [laneByte k]) m.logical

/-- The stage timer: condition NONE, RUNNING or HALTED, then the remaining time (R193). -/
def stageTimerBytes : Option StageTimer → List Byte
  | none => 0 :: be32 0
  | some t => (if t.halted then 2 else 1) :: be32 t.remaining

/-- The qualify record (R193). -/
def QualRecord.bytes (q : QualRecord) : List Byte := boolByte q.begun :: listBytes QualEntry.bytes q.entries

/-- The handover record (R193); its counts are shown as runs (R189 item 7). -/
def HandRecord.bytes (h : HandRecord) : List Byte :=
  boolByte h.closing :: listBytes (fun e => [laneByte e.pos, runByte e.readyRun, runByte e.sent]) h.entries

/-- The body of an OK reply to PORT_QUERY (R104, R193). Of the far end it shows the stage and whether FAULT is seen, not the other flags
that R4 speaks of (log entry 41). -/
def Port.bytes (x : Port) : List Byte :=
  [x.state.code, x.mode.code] ++ optBytes (fun g => [g.code]) x.pending ++ optBytes (fun r => [r.code]) x.fault ++
    optBytes Snapshot.bytes x.snapshot ++ optBytes Neighbour.bytes x.neighbour ++ optBytes (fun v => [v.code]) x.verdict ++
    [boolByte x.accepted] ++ (allLanes.flatMap fun l => x.map[l].bytes) ++ optBytes (fun c => [c.code]) x.mapClass ++
    optBytes (fun w => [w.code]) x.width ++ [x.cycle.code, byte x.attempts, byte x.unstable] ++ stageTimerBytes x.stageTimer ++
    optBytes be32 x.cleanRun ++ optBytes (fun c => [byte c.val]) x.channel ++ optBytes QualRecord.bytes x.qualify ++
    optBytes HandRecord.bytes x.handover ++ optBytes (fun g => [g.code]) x.farStage ++ [boolByte x.farFault]

/-! ### LANE_QUERY (R194) -/

/-- The lane control record in 11 bytes (R194). -/
def Control.bytes (c : Control) : List Byte :=
  [c.source.code] ++ be32 c.pattern.toNat ++
    [byte (flagsByte [c.sendLoopReq, c.sendHold]), boolByte c.checkPrbs, boolByte c.near, boolByte c.far, c.invert.code,
      boolByte c.excluded]

/-- The receive record and the far end's part of it (R194). `open_` is the far-end flags byte where the lane holds none, but
for its unused bits, which are 0 (R189 item 8). -/
def Receiver.bytes (r : Receiver) (open_ : Byte) : List Byte :=
  [r.state.code, runByte r.goodRun, runByte r.badRun] ++ optBytes Identity.bytes r.candidate ++ [runByte r.stabRun] ++
    optBytes Identity.bytes r.lastStable ++ optBytes (fun g => [g.code]) (r.far.map FarEnd.stage) ++
    [(r.far.map FarEnd.flagByte).getD (open_ &&& 0x1F)] ++ optBytes (fun f => [f.code]) (r.far.bind FarEnd.fault) ++
    [boolByte (!r.loopSeen), runByte r.loopRun, runByte r.noLoopRun]

/-- The monitor record (R149, R194); the history's results are errored, then clean (log entry 8). -/
def Monitor.bytes (m : Monitor) : List Byte :=
  be16 m.errors ++ listBytes (fun e => [boolByte (!e)]) m.history ++ [boolByte m.hunt.isSome] ++
    optBytes (fun h => [byte h.remaining]) m.hunt

/-- The body of an OK reply to LANE_QUERY (R36, R194). -/
def Port.laneBytes (x : Port) (l : LanePos) (open_ : Byte) : List Byte :=
  let y := x.lane l
  [y.owner.code, byte (x.content l).ctorIdx, byte (x.loopback l).ctorIdx] ++ y.rx.bytes open_ ++
    [(x.lock l).code, boolByte (x.counts l)] ++ y.control.bytes ++
    optBytes (fun i => [i.kind.code, byte i.remaining]) y.injection ++
    [byte y.eq.gain.val, byte y.eq.pre.val, byte y.eq.post.val] ++ y.monitor.bytes

/-! ### Other reply bodies (R195) -/

/-- The settings record (R195). -/
def Settings.bytes (g : Settings) : List Byte :=
  be16 g.discovery ++ [byte g.consult, byte g.farEndWait] ++ be16 g.errThreshold ++
    [byte g.retrain.toNat, byte g.sweepLimit, g.sampling.code, byte g.decimation, boolByte g.attention]

/-- The local identity (R195). -/
def LocalId.bytes (i : LocalId) : List Byte := be32 i.chassis.toNat ++ [i.base]

/-- The enable flags and the layer order (R195). -/
def Plan.layerBytes (q : Plan) : List Byte :=
  [boolByte q.base.enabled, boolByte q.overlayA.enabled, boolByte q.overlayB.enabled] ++ q.order.map LayerName.code

/-- The value a read shows: live, or the snapshot of the last boundary (R164, R167). -/
def Counter.shown (c : Counter) (m : Sampling) : Nat :=
  match m with
  | .live => c.live
  | .sampled => c.snap

/-- A counter in a reply: its value in the bytes its width takes, then its mark (R195). -/
def Counter.bytes (c : Counter) (m : Sampling) (wide : Bool) : List Byte :=
  (if wide then be32 (c.shown m) else be16 (c.shown m)) ++ [boolByte c.mark]

/-- The head of a COUNTER_READ body: sampling mode and interval count (R164, R195). -/
def State.counterHead (s : State) : List Byte := s.settings.sampling.code :: be32 s.time.interval.toNat

/-- The lane counters in a reply (R161, R195). -/
def State.laneCounterBytes (s : State) (p : PortIx) (l : LanePos) : List Byte :=
  s.counterHead ++ (List.finRange 7).flatMap fun i =>
    (s.lane p l).counters[i].bytes s.settings.sampling (decide (laneCounterMax i ≠ 65535))

/-- The port counters in a reply (R162, R195). -/
def State.portCounterBytes (s : State) (p : PortIx) : List Byte :=
  s.counterHead ++ (List.finRange 3).flatMap fun i => (s.port p).counters[i].bytes s.settings.sampling false

/-- FRAMES_BAD and OVERRUNS with their marks (R178, R195). -/
def State.mptCounters (s : State) : List Byte :=
  (List.finRange 2).flatMap fun i => s.mpt.counters[i].bytes s.settings.sampling false

/-- The body of an OK reply to DEVICE_INFO (R178, R195). -/
def State.infoBytes (s : State) : List Byte :=
  be16 Config.partCode ++ [byte Config.revision, 24, 8, s.mpt.rate.code, boolByte s.identity.isSome] ++
    optBytes LocalId.bytes s.identity ++ be32 s.time.interval.toNat ++ s.mptCounters

/-! ### Frames (R190) -/

/-- The start byte of every frame (R190). -/
def startByte : Byte := 0xC5

/-- A frame of a code, a tag and a body (R190). -/
def frameBytes (code tag : Byte) (body : List Byte) : List Byte :=
  let inner := byte (2 + body.length) :: code :: tag :: body
  startByte :: inner ++ checkBytes inner

/-- The frame of a reply: its header, then the reply body (R190). -/
def Reply.bytes (r : Reply) : List Byte := frameBytes r.code (r.tag.getD 0) (r.status.code :: boolByte r.overrun :: r.body)

end Sys2Proof.Machine
end

