-- ==== Sys2Proof/Machine/Requests.lean ====
section
/-! DEFINITION. The management port: what a frame's code and body ask for (R174, R190, R195), the frame assembler (R170, R171), the
request buffer, hand-on and replies (R172, R173). -/

namespace Sys2Proof.Machine

/-! ### Reading a request body (R195) -/

/-- A two-byte number. -/
def half (a b : Byte) : Half := BitVec.ofNat 16 (ofBytes [a, b])

/-- A four-byte number. -/
def word (a b c d : Byte) : Word := BitVec.ofNat 32 (ofBytes [a, b, c, d])

/-- A label and nothing after it (R189 item 6). A length byte of 17..254 that agrees with the body is read, and R39 item 7 then refuses
the label with BAD_ARGUMENT (log entry 32). -/
def readLabel : List Byte → Option (Option (List Byte))
  | n :: t => if n = 0xFF then (if t = [] then some none else none) else if t.length = n.toNat then some (some t) else none
  | [] => none

/-- A plan entry of 17 bytes or more, and nothing after it (R193). -/
def readEntry : List Byte → Option RawEntry
  | k :: c3 :: c2 :: c1 :: c0 :: n1 :: n0 :: cnt :: w :: m :: pol :: a :: lp :: g :: q1 :: q0 :: lbl =>
    (readLabel lbl).map fun t =>
      { kind := k, chassis := word c3 c2 c1 c0, portNum := half n1 n0, count := cnt, width := w, map := m, polarity := pol, ask := a,
        loop := lp, grade := g, window := half q1 q0, label := t }
  | _ => none

/-- The flags of a REPORT_MASK body: all 21 (R189). -/
def readMask (bs : List Byte) : Option (Vector Byte 21) :=
  if bs.length = 21 then some (Vector.ofFn fun i : Fin 21 => bs.getD i.val 0) else none

/-- What a BLOCK_RESET body names (R179, R195). -/
def readBlock (block port : Byte) : Except Status Instr :=
  match named [Instr.planBlockReset, .portBlockReset port, .allPortsBlockReset, .esuBlockReset, .reportsBlockReset,
    .countersBlockReset] block with
  | some i => .ok i
  | none => .error .badArgument

/-- A request, or BAD_LENGTH where the body could not be read. -/
def orBadLength (i : Option Instr) : Except Status Instr :=
  match i with
  | some j => .ok j
  | none => .error .badLength

/-- A PLAN_WRITE to a layer or to the background (R43, R44, R195). -/
def planTarget (target port : Byte) (e : RawEntry) : Instr := if target = 3 then .backgroundWrite e else .planWrite target port e

/-- The request that a code and a body make, in the order of R174: an unknown code, a body of the wrong length, else the request for
its owner to judge. The codes stand in the order of the table of R174 (R190). -/
def parseRequest (code : Byte) (body : List Byte) : Except Status Instr :=
  match code.toNat, body with
  | 0x01, [] => .ok .deviceInfo
  | 0x02, [a, b, c, d, base] => .ok (.setIdentity (word a b c d) base)
  | 0x03, [d1, d0, c, f, e1, e0, w, l, m, n, a] =>
    .ok (.settingsWrite { discovery := half d1 d0, consult := c, farEndWait := f, errThreshold := half e1 e0, retrain := w,
                          sweepLimit := l, sampling := m, decimation := n, attention := a })
  | 0x04, [] => .ok .settingsRead
  | 0x05, target :: port :: e => orBadLength ((readEntry e).map (planTarget target port))
  | 0x06, layer :: first :: count :: direction :: e => orBadLength ((readEntry e).map (.planFill layer first count direction))
  | 0x07, [target, port] => .ok (.planRead target port)
  | 0x08, [a, b, c, x, y, z] => .ok (.layerSet { base := a, overlayA := b, overlayB := c, first := x, second := y, third := z })
  | 0x09, [] => .ok .layerRead
  | 0x0A, [port] => .ok (.resolve port)
  | 0x0B, [port, mode] => .ok (.portStart port mode)
  | 0x0C, [port] => .ok (.portStep port)
  | 0x0D, [port] => .ok (.portStop port)
  | 0x0E, [port] => .ok (.portQuery port)
  | 0x0F, [port, lane] => .ok (.laneQuery port lane)
  | 0x10, [port, lane, src, p3, p2, p1, p0, fl, chk, nr, fr, inv, exc] =>
    .ok (.laneControl port lane { source := src, pattern := word p3 p2 p1 p0, flags := fl, check := chk, near := nr, far := fr,
                                  invert := inv, excluded := exc })
  | 0x11, [port, lane, kind, n] => .ok (.laneInject port lane kind n)
  | 0x12, [port, c3, c2, c1, c0, num, answer] => .ok (.consultAnswer port (word c3 c2 c1 c0) num answer)
  | 0x13, [scope, port, lane] => .ok (.counterRead scope port lane)
  | 0x14, [scope, port, lane, counter, v3, v2, v1, v0] => .ok (.counterWrite scope port lane counter (word v3 v2 v1 v0))
  | 0x15, [n] => .ok (.reportFetch n)
  | 0x16, flags => orBadLength ((readMask flags).map .reportMask)
  | 0x17, [block, port] => readBlock block port
  | 0x18, [] => .ok .restart
  | n, _ => if 1 ≤ n ∧ n ≤ 0x18 then .error .badLength else .ok (.unknownCode code)

/-- The message code of a request (R190); 0 for a command that is no request of the table. -/
def requestCode : Instr → Byte
  | .unknownCode code => code
  | .deviceInfo => 0x01 | .setIdentity .. => 0x02 | .settingsWrite .. => 0x03 | .settingsRead => 0x04
  | .planWrite .. => 0x05 | .backgroundWrite .. => 0x05 | .planFill .. => 0x06 | .planRead .. => 0x07 | .layerSet .. => 0x08
  | .layerRead => 0x09 | .resolve .. => 0x0A | .portStart .. => 0x0B | .portStep .. => 0x0C | .portStop .. => 0x0D
  | .portQuery .. => 0x0E | .laneQuery .. => 0x0F | .laneControl .. => 0x10 | .laneInject .. => 0x11
  | .consultAnswer .. => 0x12 | .counterRead .. => 0x13 | .counterWrite .. => 0x14 | .reportFetch .. => 0x15
  | .reportMask .. => 0x16 | .planBlockReset => 0x17 | .portBlockReset .. => 0x17 | .allPortsBlockReset => 0x17
  | .esuBlockReset => 0x17 | .reportsBlockReset => 0x17 | .countersBlockReset => 0x17 | .restart => 0x18
  | .powerOn .. | .pinReset .. | .frameComplete .. | .gapTimerExpiry | .replySent => 0
  | .beaconArrival .. | .silenceTimerExpiry .. | .discoveryTimerExpiry .. | .consultTimerExpiry .. | .farEndWaitExpiry .. => 0
  | .figureOfMerit .. | .beaconTransmit .. | .testBlockTransmit .. | .watchdogExpiry .. => 0
  | .patternLockLost .. | .patternLockRegained .. | .testBlockEnd .. | .symbolError .. => 0
  | .monitorPeriodEnd | .cleanRunExpiry .. | .blockLockLost .. | .blockLockRegained .. | .recoveryTimerExpiry .. => 0
  | .intervalBoundary | .managementByteReceived .. => 0

/-! ### The request buffer (R172) -/

/-- The entry has been answered by its owner, or by the MPT. -/
def BufEntry.answered (e : BufEntry) : Bool :=
  match e.phase with
  | .answered _ _ => true
  | .waiting | .handed => false

/-- The entry asks for this request. -/
def BufEntry.asks (e : BufEntry) (i : Instr) : Bool :=
  match parseRequest e.code e.body with
  | .ok j => decide (j = i)
  | .error _ => false

/-- RESTART has been taken, and the part resets once its reply has been sent (R180). -/
def BufEntry.restarts (e : BufEntry) : Bool :=
  decide (e.code = 0x18) && (match e.phase with | .answered .ok _ => true | _ => false)

/-- A RESTART has been taken and its reply is still to be sent whole (R180). -/
def Mpt.restarting (m : Mpt) : Bool := m.buffer.any BufEntry.restarts

/-- Hand-on: the oldest request not yet handed on goes to its owner once every request before it has been answered. BAD_LENGTH, and the
BAD_ARGUMENT of a BLOCK_RESET that names no block, are answered here, before any owner; an unknown code stands in the MPT's own hand
until the command UNKNOWN_CODE answers it (R172, R174, log entry 2). A request behind a RESTART that has been taken is not handed on:
the reset discards it (R180). -/
def handOn : List BufEntry → List BufEntry
  | [] => []
  | e :: es =>
    match e.phase with
    | .answered _ _ => e :: (if e.restarts then es else handOn es)
    | .handed => e :: es
    | .waiting =>
      match parseRequest e.code e.body with
      | .error st => { e with phase := .answered st [] } :: handOn es
      | .ok _ => { e with phase := .handed } :: es

/-- The buffer once the owner of the request in hand has answered, where that request is this one. -/
def answerIn (i : Instr) (st : Status) (body : List Byte) : List BufEntry → Option (List BufEntry)
  | [] => none
  | e :: es =>
    match e.phase with
    | .answered _ _ => (answerIn i st body es).map (e :: ·)
    | .handed => if e.asks i then some ({ e with phase := .answered st body } :: es) else none
    | .waiting => none

/-- The head of the buffer is answered, so that its reply can be sent. -/
def headAnswered (b : List BufEntry) : Bool := b.head?.any (·.answered)

/-- A reply begins: it carries the overrun flag as it stands, and clears it (R173). -/
def Mpt.send (m : Mpt) (code : Byte) (tag : Option Byte) (st : Status) (body : List Byte) : Mpt :=
  { m with overrun := false, line := some { code := code, tag := tag, status := st, overrun := m.overrun, body := body } }

/-- The reply of an answered head begins. -/
def Mpt.sendHead (m : Mpt) : Mpt :=
  match m.buffer with
  | { code, tag, body := _, phase := .answered st body } :: _ => m.send code (some tag) st body
  | _ => m

/-- The buffer replaced, then the next request handed on, then the reply of a head that has become answered begun (R172). -/
def Mpt.turn (m : Mpt) (b : List BufEntry) (sending : Bool) : Mpt :=
  let n : Mpt := { m with buffer := handOn b }
  if !sending && headAnswered (handOn b) then n.sendHead else n

/-- The owner answers a request (R172). The request in hand is answered in the buffer; one that reached its owner without a frame is
answered by a reply without a tag (log entry 2). -/
def Mpt.answer (m : Mpt) (i : Instr) (st : Status) (body : List Byte) : Mpt :=
  match answerIn i st body m.buffer with
  | some b => m.turn b (headAnswered m.buffer)
  | none => m.send (requestCode i) none st body

/-- The owner's answer: a status, and a body where the status is OK (R174). -/
def State.answer (s : State) (i : Instr) (st : Status) (body : List Byte) : State := s.setMpt (s.mpt.answer i st body)

/-- A refusal: no body (R174). -/
def State.refuse (s : State) (i : Instr) (st : Status) : State := s.answer i st []

/-- An OK answer with its body. -/
def State.accept (s : State) (i : Instr) (body : List Byte) : State := s.answer i .ok body

/-- The reply of the head has been sent whole: its request leaves, and the next moves on (R172). -/
def Mpt.sent (m : Mpt) : Mpt :=
  if headAnswered m.buffer then m.turn m.buffer.tail false else m

/-! ### The frame assembler (R170, R171) -/

/-- A frame error: FRAMES_BAD counts, the assembler hunts (R171). -/
def State.frameError (s : State) : State := (s.setMpt { s.mpt with asm := .hunting }).countMpt ctrFramesBad

/-- A good frame joins the buffer, or is an overrun (R172, R173). -/
def State.takeFrame (s : State) (code tag : Byte) (body : List Byte) : State :=
  if s.mpt.buffer.length < 2 then
    s.setMpt (s.mpt.turn (s.mpt.buffer ++ [{ code := code, tag := tag, body := body, phase := .waiting }]) (headAnswered s.mpt.buffer))
  else (s.setMpt { s.mpt with overrun := true }).countMpt ctrOverruns

/-- A complete frame is judged: its length byte, its bytes, and the check it came with (R170, R171). -/
def State.judgeFrame (s : State) (length : Nat) (bytes : List Byte) : State :=
  let t := s.setMpt { s.mpt with asm := .hunting }
  if bytes.drop length = checkBytes (byte length :: bytes.take length) then
    match bytes.take length with
    | code :: tag :: body => t.takeFrame code tag body
    | _ => t.countMpt ctrFramesBad
  else t.countMpt ctrFramesBad

/-- The gap timer restarted (R170). -/
def gapRunning : Option Nat := some Config.gapMs

/-- A received byte acts on the assembler (R170). -/
def State.receiveByte (s : State) (b : Byte) : State :=
  let a := s.mpt.asm
  match a.phase with
  | .hunt =>
    if b = startByte then s.setMpt { s.mpt with asm := { phase := .length, length := 0, bytes := [], gap := gapRunning } } else s
  | .length =>
    if 2 ≤ b.toNat ∧ b.toNat ≤ 250 then
      s.setMpt { s.mpt with asm := { phase := .collect, length := b.toNat, bytes := [], gap := gapRunning } }
    else s.frameError
  | .collect =>
    s.setMpt { s.mpt with asm := { phase := if a.bytes.length + 1 < a.length then .collect else .check, length := a.length,
                                   bytes := a.bytes ++ [b], gap := gapRunning } }
  | .check =>
    if a.bytes.length + 1 < a.length + 2 then
      s.setMpt { s.mpt with asm := { phase := .check, length := a.length, bytes := a.bytes ++ [b], gap := gapRunning } }
    else s.judgeFrame a.length (a.bytes ++ [b])

/-- The assembler waits for the second check byte of a frame (R170). -/
def Assembler.lastByte (a : Assembler) : Bool := decide (a.phase = .check ∧ a.length + 1 ≤ a.bytes.length)

end Sys2Proof.Machine
end

