-- ==== Sys2Proof/Machine/CounterRequests.lean ====
section
/-! DEFINITION. Meanings: counter reads and writes (R164, R165) and the COUNTERS block reset (R169). -/

namespace Sys2Proof.Machine

/-- The counters of one scope and index (R164). -/
inductive Scope where
  | lane (p : PortIx) (l : LanePos)
  | port (p : PortIx)
  | management
  deriving DecidableEq, Repr

/-- The scope a request names; an index its scope does not use is ignored (R164, R195). -/
def scopeOf (scope port lane : Byte) : Option Scope :=
  if scope = 0 then (portLaneOf port lane).map fun k => .lane k.1 k.2
  else if scope = 1 then (portOf port).map .port
  else if scope = 2 then some .management
  else none

/-- The counters of a scope as a reply gives them (R164, R195). -/
def State.scopeBytes (s : State) : Scope → List Byte
  | .lane p l => s.laneCounterBytes p l
  | .port p => s.portCounterBytes p
  | .management => s.counterHead ++ s.mptCounters

/-- COUNTER_READ (R164). -/
def execCounterRead (scope port lane : Byte) (s : State) : Result :=
  State.done (match scopeOf scope port lane with
   | none => s.opened.refuse (.counterRead scope port lane) .badArgument
   | some k => s.opened.accept (.counterRead scope port lane) (s.scopeBytes k))

/-- A counter of a scope written; PRBS_ERR clears PRBS_BLOCKS with it (R165). None where the counter does not belong to the scope or
the value is above its maximum. -/
def State.writeCounter (s : State) (k : Scope) (n : Byte) (v : Nat) : Option State :=
  match k with
  | .lane p l =>
    if h : n.toNat < 7 then
      let i : Fin 7 := ⟨n.toNat, h⟩
      if laneCounterMax i < v then none
      else
        let t := s.modLane p l fun y => { y with counters := y.counters.set i (.write v) }
        some (if i = ctrPrbsErr then t.modLane p l fun y => { y with counters := y.counters.set ctrPrbsBlocks (.write 0) } else t)
    else none
  | .port p =>
    if h : n.toNat < 3 then
      if shortCounterMax < v then none
      else some (s.modPort p fun x => { x with counters := x.counters.set (⟨n.toNat, h⟩ : Fin 3) (.write v) })
    else none
  | .management =>
    if h : n.toNat < 2 then
      if shortCounterMax < v then none
      else some (s.setMpt { s.mpt with counters := s.mpt.counters.set (⟨n.toNat, h⟩ : Fin 2) (.write v) })
    else none

/-- COUNTER_WRITE (R165). -/
def execCounterWrite (scope port lane counter : Byte) (value : Word) (s : State) : Result :=
  State.done (match scopeOf scope port lane with
   | none => s.opened.refuse (.counterWrite scope port lane counter value) .badArgument
   | some k =>
     match s.opened.writeCounter k counter value.toNat with
     | none => s.opened.refuse (.counterWrite scope port lane counter value) .badArgument
     | some t => t.accept (.counterWrite scope port lane counter value) (t.scopeBytes k))

/-- Every counter of the part cleared, with its snapshot and mark (R169). -/
def State.clearCounters (s : State) : State :=
  let t := s.mapPorts fun _ x =>
    Port.mapLanes { x with counters := Vector.replicate 3 .zero } fun _ y => { y with counters := Vector.replicate 7 .zero }
  t.setMpt { t.mpt with counters := Vector.replicate 2 .zero }

/-- COUNTERS block reset (R169). -/
def execCountersBlockReset (s : State) : Result := ((s.opened.clearCounters).accept .countersBlockReset []).done

end Sys2Proof.Machine
end

