-- ==== Sys2Proof/Machine/Qualify.lean ====
section
/-! DEFINITION. Qualification: a counted block in the qualify record (R137 to R139), early fail (R140, R141), the end of the window
(R142) and its outcome (R143 to R145). -/

namespace Sys2Proof.Machine

/-! ### One entry -/

/-- The maximum of the window errors (R137). -/
def windowErrorsMax : Nat := 4294967295

/-- An entry that takes blocks: PENDING, with fewer than Q blocks (R137). -/
def QualEntry.counting (e : QualEntry) (window : Nat) : Bool := decide (e.verdict = .pending ∧ e.blocks < window)

/-- An entry that is closed: it has Q blocks, or its verdict is FAIL (R137, R142). -/
def QualEntry.closed (e : QualEntry) (window : Nat) : Bool := decide (window ≤ e.blocks ∨ e.verdict = .fail)

/-- A block added to an entry: blocks, saturating errors, grade and bound flag (R137, R138, R139). -/
def QualEntry.addBlock (e : QualEntry) (errors : Nat) : QualEntry :=
  { e with blocks := e.blocks + 1, errors := min windowErrorsMax (e.errors + errors)
           grade := some (q2Grade (e.blocks + 1) (min windowErrorsMax (e.errors + errors)))
           bound := decide (min windowErrorsMax (e.errors + errors) = 0) }

/-- The early-fail test of an entry (R141). -/
def QualEntry.earlyFail (e : QualEntry) (ceiling : Nat) : QualEntry :=
  if ceiling < e.errors then { e with verdict := .fail } else e

/-- The verdict a pending entry receives at the end of a full window (R142). -/
def QualEntry.judge (e : QualEntry) (grade : Nat) : QualEntry :=
  if e.verdict = .pending then { e with verdict := if e.grade.any (fun g => decide (grade ≤ g)) then .pass else .fail } else e

/-! ### The record -/

/-- The record with the entry of one position replaced. -/
def QualRecord.setEntry (q : QualRecord) (l : LanePos) (e : QualEntry) : QualRecord :=
  { q with entries := q.entries.map fun d => if d.pos = l then e else d }

/-- The record with every pending entry judged (R142). -/
def QualRecord.judge (q : QualRecord) (grade : Nat) : QualRecord := { q with entries := q.entries.map (·.judge grade) }

/-- The port with its qualify record replaced. -/
def Port.setQualify (x : Port) (q : QualRecord) : Port := { x with qualify := some q }

/-- A failed lane decides the port (R141): its logical lane is below L/2, or the width is HALF, or the policy FULL_ONLY. -/
def Port.decides (x : Port) (e : QualEntry) : Bool :=
  decide (e.logical.val < x.L / 2) || decide (x.width = some .half) ||
    x.snapshot.any fun n => decide (n.entry.width = .fullOnly)

/-- The outcome of a window over the entries of its record (R143). -/
def Port.qualOutcome (x : Port) (es : List QualEntry) : QualOutcome :=
  if es.all (fun e => decide (e.verdict = .pass)) then .handover
  else if x.mayHalve && es.all (fun e => decide (e.verdict ≠ .fail) || decide (x.L / 2 ≤ e.logical.val)) then .halfHandover
  else .failedAttempt

/-- The port acts on the outcome of its window (R143, R144). -/
def State.takeOutcome (s : State) (p : PortIx) : QualOutcome → State
  | .handover => s.toHandover p
  | .halfHandover => (s.reduceWidth p .qualify).toHandover p
  | .failedAttempt => s.failedAttempt p .qualifyFail

/-- The window has ended: QUALIFY_DONE, then the outcome with its own reports (R143, R145). -/
def State.endWindow (s : State) (p : PortIx) (n : PlanEntry) (q : QualRecord) (deciding : Option (LanePos × LanePos)) : State :=
  let x := s.port p
  (s.postPort p (.qualifyDone deciding n.grade n.window (earlyCeiling n.grade n.window) x.cycle x.attempts q.entries
    (x.qualOutcome q.entries))).takeOutcome p (x.qualOutcome q.entries)

/-- An entry with a block just added: the early-fail test, then the test for the end of the window (R137, R141, R142). -/
def State.afterBlock (s : State) (p : PortIx) (n : PlanEntry) (q : QualRecord) (e : QualEntry) : State :=
  if e.verdict = .fail ∧ (s.port p).decides e then (s.modPort p (·.setQualify q)).endWindow p n q (some (e.pos, e.logical))
  else if q.entries.all (·.closed n.window) then
    (s.modPort p (·.setQualify (q.judge n.grade))).endWindow p n (q.judge n.grade) none
  else s.modPort p (·.setQualify q)

/-- A counted block of a lane reaches the qualify record of an open window (R137). -/
def State.qualifyBlock (s : State) (p : PortIx) (l : LanePos) (errors : Nat) : State :=
  match (s.port p).snapshot, (s.port p).qualify with
  | some n, some q =>
    match q.entries.find? fun e => decide (e.pos = l) with
    | some e =>
      if e.counting n.entry.window then
        let d := (e.addBlock errors).earlyFail (earlyCeiling n.entry.grade n.entry.window)
        s.afterBlock p n.entry (q.setEntry l d) d
      else s
    | none => s
  | _, _ => s

end Sys2Proof.Machine
end

