-- ==== Sys2Proof/Machine/LaneEvents.lean ====
section
/-! DEFINITION. Meanings: the events of a lane's line and of its lane tap while the part owns it (R2, R5, R9, R19, R22, R23, R32,
R92, R124). An event that the table of R19, or the rule that owns it, does not take is dropped and changes nothing. -/

namespace Sys2Proof.Machine

/-! ### The pseudo-random sequence (R22) -/

/-- The 31 stages of the generator after its load: all ones (R22). -/
def prbsLoad : BitVec 31 := BitVec.allOnes 31

/-- One pattern bit further: stages 31 and 28 feed the new bit (R22). -/
def prbsStep (r : BitVec 31) : BitVec 31 := (r.setWidth 30 ++ BitVec.ofBool (r.getLsbD 30 ^^ r.getLsbD 27)).cast rfl

/-- The generator's stages a number of pattern bits after the load. -/
def prbsAt : Nat → BitVec 31
  | 0 => prbsLoad
  | n + 1 => prbsStep (prbsAt n)

/-- The pattern bit the line carries at a place of the sequence (R22): the last of the 31 stages (log entry 25). -/
def prbsBit (place : Nat) : Bool := (prbsAt place).getLsbD 30

/-- The generator's place after a test block: the sequence repeats after 2^31 − 1 bits (R22). -/
def nextPlace (place : Nat) : Nat := (place + Config.blockBits) % Config.prbsPeriod

/-! ### Receiving -/

/-- A lane in far-end loopback puts what arrives back on its line (R28, R29). -/
def State.loopBack (s : State) (p : PortIx) (l : LanePos) (bytes : List Byte) : State :=
  if (s.port p).content l = .looped then s.modLane p l fun y => { y with sent := some bytes } else s

/-- BEACON_ARRIVAL (R2, R3, R13, R19). -/
def execBeaconArrival (p : PortIx) (l : LanePos) (bytes : List Byte) (s : State) : Result :=
  State.done (if (s.port p).receives l then (s.opened.loopBack p l bytes).receive p l (classify bytes)
    else s.opened.loopBack p l bytes)

/-- A lane's silence timer runs: the lane listens and is not suspended (R9). -/
def Receiver.timed (r : Receiver) : Bool := decide (r.state ≠ .off) && !r.suspended && r.silence.isSome

/-- SILENCE_TIMER_EXPIRY (R9). -/
def execSilenceTimerExpiry (p : PortIx) (l : LanePos) (s : State) : Result :=
  State.done (if (s.lane p l).rx.timed then s.opened.silence p l else s.opened)

/-- The lane takes pattern lock events (R19). -/
def Port.takesLock (x : Port) (l : LanePos) : Bool :=
  decide ((x.lane l).owner = .part) && decide ((x.lane l).rx.state ≠ .off) && !x.nearEnd l

/-- The pattern lock state of a lane set, and a block in hand marked where it is SEARCHING (R23). -/
def State.setLock (s : State) (p : PortIx) (l : LanePos) (k : PatternLock) : State :=
  (s.modLane p l fun y => { y with patternLock := k }).syncPort p

/-- PATTERN_LOCK_LOST (R23). -/
def execPatternLockLost (p : PortIx) (l : LanePos) (s : State) : Result :=
  State.done (if (s.port p).takesLock l then s.opened.setLock p l .searching else s.opened)

/-- PATTERN_LOCK_REGAINED (R23). -/
def execPatternLockRegained (p : PortIx) (l : LanePos) (s : State) : Result :=
  State.done (if (s.port p).takesLock l then s.opened.setLock p l .locked else s.opened)

/-- FIGURE_OF_MERIT (R19, R35, R124): the answer to a request of the sweep of a number (log entry 31). -/
def execFigureOfMerit (p : PortIx) (l : LanePos) (figure : Figure) (s : State) : Result :=
  State.done (if (s.port p).state = .tune then s.opened.sweepFigure p l figure.sweep figure.value else s.opened)

/-! ### Sending -/

/-- An injection after one more of its blocks or beacons has begun (R32). -/
def Injection.spend (i : Injection) : Option Injection :=
  if i.remaining ≤ 1 then none else some { i with remaining := i.remaining - 1 }

/-- The lane has an injection of a kind pending. -/
def Lane.injects (y : Lane) (k : InjectKind) : Bool := y.injection.any fun i => decide (i.kind = k)

/-- The lane after a block or beacon that a pending injection of its kind acts on (R32). -/
def Lane.spend (y : Lane) (k : InjectKind) : Lane := if y.injects k then { y with injection := y.injection.bind Injection.spend } else y

/-- The handover record after a lane has sent a beacon (R92). -/
def HandRecord.addSent (h : HandRecord) (l : LanePos) : HandRecord :=
  { h with entries := h.entries.map fun e => if e.pos = l then { e with sent := e.sent + 1 } else e }

/-- The handover is complete: the closing mark is set and every lane has sent 2 more beacons (R92). -/
def HandRecord.complete (h : HandRecord) : Bool := h.closing && h.entries.all fun e => decide (2 ≤ e.sent)

/-- A beacon sent in HANDOVER counts, and the last one takes the port to ACTIVE (R92, R93). -/
def State.handBeacon (s : State) (p : PortIx) (l : LanePos) : State :=
  let t := s.modPort p fun x => { x with handover := x.handover.map (·.addSent l) }
  if (t.port p).handover.any HandRecord.complete then t.enterActive p else t

/-- What a beacon does by being sent, whatever its bytes: the walk of a sweep (R123, R125), the sent count of HANDOVER (R92). -/
def State.afterBeacon (s : State) (p : PortIx) (l : LanePos) : State :=
  match (s.port p).state with
  | .tune => s.sweepBeacon p l
  | .handover => s.handBeacon p l
  | _ => s

/-- A near-end loopback gives the lane's own beacon to its receiver (R27, log entry 7). -/
def State.hearOwn (s : State) (p : PortIx) (l : LanePos) (bytes : List Byte) : State :=
  if (s.port p).nearEnd l ∧ (s.lane p l).rx.state ≠ .off then s.receive p l (classify bytes) else s

/-- A lane begins to send a beacon (R1, R32). -/
def State.sendBeacon (s : State) (p : PortIx) (l : LanePos) (me : LocalId) : State :=
  let bytes := (s.beaconOf p l me).bytes ((s.lane p l).injects .badCheck)
  let t := s.modLane p l fun y => { y.spend .badCheck with sent := some bytes }
  (t.afterBeacon p l).hearOwn p l bytes

/-- BEACON_TRANSMIT (R1, R5). A lane whose content calls for no beacons sends none. -/
def execBeaconTransmit (p : PortIx) (l : LanePos) (s : State) : Result :=
  State.done (match s.identity with
    | some me => if (s.port p).beacons l then s.opened.sendBeacon p l me else s.opened
    | none => s.opened)

/-- A lane that begins to send a test block (R22, R32): the generator runs on, and a pending injection flips the block's first bit. In a
near-end loopback the lane's own checker receives the block (R27). -/
def Port.blockBegun (x : Port) (l : LanePos) : Port :=
  x.modLane l fun y =>
    { y.spend .prbsErrors with
      gen := y.gen.map nextPlace, block := some (y.injects .prbsErrors)
      checker := if x.nearEnd l then y.checker.looped (x.lock l) (x.checkCorrection l) else y.checker }

/-- TEST_BLOCK_TRANSMIT (R22, R32). -/
def execTestBlockTransmit (p : PortIx) (l : LanePos) (s : State) : Result :=
  State.done (if (s.port p).content l = .prbs then s.opened.modPort p (·.blockBegun l) else s.opened)

/-! ### Checking -/

/-- The bits of a block that differ from the predicted ones before any correction: as they came from the line, or those of the block the
lane itself sent where the block in hand began with it in a near-end loopback (R27, R32, log entry 7). -/
def Port.rawDifferences (x : Port) (l : LanePos) (start : BlockStart) (line : Nat) : Nat :=
  match x.nearEnd l, start, (x.lane l).block with
  | true, .loop, some flipped => flipped.toNat
  | _, _, _ => line

/-- The differences that remain where every bit of a block is corrected alike (R24): with INVERTED each bit is complemented first. -/
def Polarity.differences (correction : Polarity) (raw : Nat) : Nat :=
  match correction with
  | .normal => raw
  | .inverted => Config.blockBits - raw

/-- The differences of a block whose correction changed within it: which of its bits came before the change is not known, so the number
is a free value of 0..2^20 (R23, R24, log entry 28). -/
def State.splitDifferences (s : State) : Nat := Config.splitBlock s.freeIx % (Config.blockBits + 1)

/-- The error count a block carries (R23, R24). -/
def State.blockErrors (s : State) (p : PortIx) (l : LanePos) (start : BlockStart) (searching : Bool) (correction : Option Polarity)
    (line : Nat) : Nat :=
  if searching then Config.searchingErrors
  else match correction with
    | some c => c.differences ((s.port p).rawDifferences l start line)
    | none => s.splitDifferences

/-- The block's error count has used up a free value (log entry 28). -/
def blockIsSplit (searching : Bool) (correction : Option Polarity) : Bool := !searching && correction.isNone

/-- The lane after a counted block: the checker is at the next, and a block of its own loop is used up (R22, R23, R24). -/
def Port.nextBlock (x : Port) (l : LanePos) : Port :=
  x.modLane l fun y =>
    { y with checker := y.checker.nextBlock (x.nearEnd l) (x.content l) (x.lock l) (x.checkCorrection l)
             block := if x.nearEnd l then none else y.block }

/-- A counted block goes to the lane's counters, its errors before its count (log entry 29), and in QUALIFY to the qualify record (R23,
R137, R161). -/
def State.countBlock (s : State) (p : PortIx) (l : LanePos) (errors : Nat) : State :=
  let t := ((s.modPort p (·.nextBlock l)).countLane p l ctrPrbsErr errors).countLane p l ctrPrbsBlocks 1
  if (s.port p).windowBegun then t.qualifyBlock p l errors else t

/-- TEST_BLOCK_END (R22, R23, R24): the operand is the number of received bits that differ from the predicted ones before the check
correction. A checker that does not count, or still waits for its first interleaved beacon, hands no block on. -/
def execTestBlockEnd (p : PortIx) (l : LanePos) (errors : Fin 1048577) (s : State) : Result :=
  State.done (match (s.port p).counts l, (s.lane p l).checker with
    | true, .block start searching c =>
      (if blockIsSplit searching c then s.opened.useFree else s.opened).countBlock p l
        (s.blockErrors p l start searching c errors.val)
    | _, _ => s.opened)

end Sys2Proof.Machine
end

