-- ==== Sys2Proof/Machine/LaneRequests.lean ====
section
/-! DEFINITION. Meanings: the requests a lane engine owns (R25, R26, R31, R36). -/

namespace Sys2Proof.Machine

/-! ### LANE_QUERY -/

/-- LANE_QUERY (R36, R194). The far-end flags byte of a lane that holds none is a free value (log entry 4). -/
def execLaneQuery (port lane : Byte) (s : State) : Result :=
  State.done (match portLaneOf port lane with
   | none => s.opened.refuse (.laneQuery port lane) .badArgument
   | some (p, l) =>
     let body := (s.port p).laneBytes l (Config.absentFarFlags s.freeIx)
     (if (s.lane p l).rx.far.isSome then s.opened else s.opened.useFree).accept (.laneQuery port lane) body)

/-! ### LANE_CONTROL -/

/-- A lane with a new control record: a change of transmit source discards a pending injection (R25, R31). -/
def Lane.setControl (y : Lane) (c : Control) : Lane :=
  { y with control := c, injection := if y.control.source = c.source then y.injection else none }

/-- A lane the switch owns has its correction passed to the lane tap again (R18). -/
def Lane.retap (y : Lane) (correction : Polarity) : Lane :=
  if y.owner = .switch then { y with tap := y.tap.map fun h => { h with correction := correction } } else y

/-- What a change of near-end loopback does to the lane (R27): a loop that ends, and one that begins while the lane sends the PRBS, whose
block is then under way for the checker (log entry 33). -/
def Port.turnNearEnd (x z : Port) (l : LanePos) : Port :=
  if x.nearEnd l && !z.nearEnd l then z.modLane l Lane.leaveNearEnd
  else if !x.nearEnd l && z.nearEnd l && decide (x.content l = .prbs ∧ z.content l = .prbs) then
    z.modLane l fun y => { y with checker := y.checker.strayed }
  else z

/-- The record is stored, and acts at once on the lane itself (R18, R25, R27, R31). -/
def Port.storeControl (x : Port) (l : LanePos) (c : Control) : Port :=
  let w := x.turnNearEnd (x.modLane l fun y => y.setControl c) l
  w.modLane l fun y => y.retap (w.handoverCorrection l)

/-- What newly setting a lane's exclusion does to the port: a consult over that lane is withdrawn (R113). -/
def State.afterExclude (s : State) (p : PortIx) (l : LanePos) : State :=
  if (s.port p).state = .consult ∧ (s.port p).found l then s.withdraw p l .excluded else s

/-- What clearing a lane's exclusion does to the port: discovery and a dark port are tested (R59, R62, R88). -/
def State.afterInclude (s : State) (p : PortIx) : State :=
  if (s.port p).state = .discover ∧ (s.port p).cabled then s.discoveryTest p else s.darkTest p

/-- The record is stored and everything that follows from it is done (R25, R26, R29). -/
def State.storeControl (s : State) (p : PortIx) (l : LanePos) (c : Control) : State :=
  let was := (s.lane p l).control.excluded
  let t := ((s.modPort p (·.storeControl l c)).loopCheck p l).syncPort p
  if c.excluded && !was then t.afterExclude p l
  else if was && !c.excluded then t.afterInclude p
  else t

/-- LANE_CONTROL (R25). -/
def execLaneControl (port lane : Byte) (r : RawControl) (s : State) : Result :=
  State.done (match portLaneOf port lane, judgeControl r with
   | some (p, l), some c => (s.opened.storeControl p l c).accept (.laneControl port lane r) c.bytes
   | _, _ => s.opened.refuse (.laneControl port lane r) .badArgument)

/-! ### LANE_INJECT -/

/-- The kind a code names (R31). -/
def injectKindOf (b : Byte) : Option InjectKind := named [.prbsErrors, .badCheck] b

/-- The transmit source a kind of injection needs (R31). -/
def InjectKind.source : InjectKind → TxSource
  | .prbsErrors => .prbs
  | .badCheck => .beacon

/-- LANE_INJECT (R31). -/
def execLaneInject (port lane kind count : Byte) (s : State) : Result :=
  State.done (match portLaneOf port lane, injectKindOf kind with
   | some (p, l), some k =>
     if count = 0 then s.opened.refuse (.laneInject port lane kind count) .badArgument
     else if (s.port p).state ≠ .manual then s.opened.refuse (.laneInject port lane kind count) .wrongState
     else if (s.lane p l).control.source ≠ k.source then s.opened.refuse (.laneInject port lane kind count) .badArgument
     else (s.opened.modLane p l fun y => { y with injection := some { kind := k, remaining := count.toNat } }).accept
       (.laneInject port lane kind count) [k.code, count]
   | _, _ => s.opened.refuse (.laneInject port lane kind count) .badArgument)

end Sys2Proof.Machine
end

