-- ==== Sys2Proof/Machine/Management.lean ====
section
/-! DEFINITION. Meanings: resets of the whole part (R180), the management line (R170 to R173), and the requests the management port
owns (R174 to R178). -/

namespace Sys2Proof.Machine

/-! ### Power-on, pin reset, RESTART -/

/-- The line rate the straps select (Pins and electrical summary). -/
def strapRate (rate1 rate0 : Bool) : LineRate :=
  match rate1, rate0 with
  | false, false => .r115200
  | false, true => .r460800
  | true, false => .r921600
  | true, true => .r3000000

/-- The whole part at its power-on values at a line rate (R180); the command queue and the counts of free values and of grants go
on. -/
def State.powered (s : State) (rate : LineRate) : State :=
  { State.powerOn rate with
    pending := s.pending, freeIx := s.freeIx, esu := { Esu.reset with grants := s.esu.grants } }

/-- POWER_ON (R180): every block takes its power-on values, the straps sampled. -/
def execPowerOn (rate1 rate0 : Bool) (s : State) : Result := (s.powered (strapRate rate1 rate0)).done

/-- PIN_RESET (R180): acts as power-on, the straps sampled when it ends. -/
def execPinReset (rate1 rate0 : Bool) (s : State) : Result := (s.powered (strapRate rate1 rate0)).done

/-- The state after RESTART's reply: power-on values, the line rate and what was sent on the line kept (R180). -/
def State.restarted (s : State) : State :=
  let t := s.powered s.mpt.rate
  t.setMpt { t.mpt with line := s.mpt.line }

/-- RESTART (R180): the reply first. A RESTART from the buffer is answered in its turn, and the part resets when that reply has been
sent; one that reached the part without a frame has its reply begun and the part reset at once (log entry 2). -/
def execRestart (s : State) : Result :=
  State.done (if (answerIn .restart .ok [] s.mpt.buffer).isSome then s.opened.accept .restart []
    else (s.opened.accept .restart []).restarted)

/-! ### The management line -/

/-- MANAGEMENT_BYTE_RECEIVED (R170). A byte that comes between a RESTART and the end of its reset is not assembled (R180). -/
def execManagementByteReceived (b : Byte) (s : State) : Result :=
  State.done (if s.mpt.restarting then s.opened else s.opened.receiveByte b)

/-- FRAME_COMPLETE (R170, R171, R172): the second check byte of a frame. Where the assembler awaits another byte, no frame is complete
and nothing happens; nor between a RESTART and the end of its reset (R180). -/
def execFrameComplete (b : Byte) (s : State) : Result :=
  State.done (if s.mpt.asm.lastByte ∧ s.mpt.restarting = false then s.opened.receiveByte b else s.opened)

/-- GAP_TIMER_EXPIRY (R171): an unfinished frame is discarded as a frame error. -/
def execGapTimerExpiry (s : State) : Result :=
  State.done (if s.mpt.asm.phase = .hunt then s.opened else s.opened.frameError)

/-- REPLY_SENT (R172): the request whose reply has been sent leaves the buffer. Where that request is a RESTART, the whole part now
resets, without sampling the straps (R180). -/
def execReplySent (s : State) : Result :=
  State.done (if s.mpt.buffer.head?.any BufEntry.restarts then s.opened.restarted else s.opened.setMpt s.mpt.sent)

/-- UNKNOWN_CODE (R174): answered without reaching an owner. A code that names a request makes no such command. -/
def execUnknownCode (code : Byte) (s : State) : Result :=
  State.done (if 1 ≤ code.toNat ∧ code.toNat ≤ 0x18 then s.opened else s.opened.refuse (.unknownCode code) .unknownCode)

/-! ### Requests the management port owns -/

/-- DEVICE_INFO (R178). -/
def execDeviceInfo (s : State) : Result := (s.opened.accept .deviceInfo s.infoBytes).done

/-- A port in this state lets the local identity be written (R175). -/
def PortState.allowsIdentity : PortState → Bool
  | .idle | .dark | .faulted => true
  | .discover | .consult | .verified | .peerWait | .awaitSlot | .tune | .qualify | .handover | .active | .paused | .manual => false

/-- Every port lets the local identity be written (R175). -/
def State.identityOpen (s : State) : Bool := allPorts.all fun p => (s.port p).state.allowsIdentity

/-- The state with the local identity set (R175). -/
def State.setIdentity (s : State) (i : LocalId) : State := { s with identity := some i }

/-- SET_IDENTITY (R175). -/
def execSetIdentity (chassis : Word) (base : Byte) (s : State) : Result :=
  State.done (if chassis = 0 ∨ 232 < base.toNat then s.opened.refuse (.setIdentity chassis base) .badArgument
   else if s.identityOpen = false then s.opened.refuse (.setIdentity chassis base) .wrongState
   else (s.opened.setIdentity { chassis := chassis, base := base }).accept (.setIdentity chassis base)
     (LocalId.bytes { chassis := chassis, base := base }))

/-- A settings write loads the summary countdown (R168, R177). -/
def Settings.loads (old new : Settings) : Bool :=
  decide (old.decimation ≠ new.decimation) || decide (old.sampling = .live ∧ new.sampling = .sampled)

/-- The settings in effect are replaced, and act on the blocks that use them (R177, R118, R168). -/
def State.putSettings (s : State) (g : Settings) : State :=
  let t := s.setSettings g
  let u := if s.settings.loads g then t.setCountdown g.decimation else t
  if s.settings.sweepLimit < g.sweepLimit then u.grantTest else u

/-- SETTINGS_WRITE (R176, R177). -/
def execSettingsWrite (r : RawSettings) (s : State) : Result :=
  State.done (match judgeSettings r with
   | none => s.opened.refuse (.settingsWrite r) .badArgument
   | some g => (s.opened.putSettings g).accept (.settingsWrite r) g.bytes)

/-- SETTINGS_READ (R176). -/
def execSettingsRead (s : State) : Result := (s.opened.accept .settingsRead s.settings.bytes).done

end Sys2Proof.Machine
end

