-- ==== Sys2Proof/Machine/MonitorEvents.lean ====
section
/-! DEFINITION. Meanings: the events of an ACTIVE port's lanes (R150, R156, R157, R159), the end of the monitor period (R150 to R152),
the clean-run timer (R154) and the interval boundary (R166). -/

namespace Sys2Proof.Machine

/-- SYMBOL_ERROR (R150): taken while the switch owns the lane (R19). -/
def execSymbolError (p : PortIx) (l : LanePos) (s : State) : Result :=
  State.done (if (s.lane p l).owner = .switch then
      (s.opened.modLane p l fun y => { y with monitor := y.monitor.addError }).countLane p l ctrSymbolErr 1
    else s.opened)

/-- MONITOR_PERIOD_END (R150 to R152). -/
def execMonitorPeriodEnd (s : State) : Result := State.done s.opened.periodEnd

/-- CLEAN_RUN_EXPIRY (R154). -/
def execCleanRunExpiry (p : PortIx) (s : State) : Result :=
  State.done (if (s.port p).state = .active ∧ (s.port p).cleanRun ≠ none then
      s.opened.modPort p fun x => { x with unstable := 0, cleanRun := none }
    else s.opened)

/-- BLOCK_LOCK_LOST (R156): taken while the switch owns the lane (R19). -/
def execBlockLockLost (p : PortIx) (l : LanePos) (s : State) : Result :=
  State.done (if (s.lane p l).owner = .switch then
      (s.opened.countLane p l ctrLockLoss 1).modLane p l fun y => if y.monitor.hunt = none then y.startHunt else y
    else s.opened)

/-- BLOCK_LOCK_REGAINED (R157): a hunt of a lane the switch owns ends with a LOCK_BLIP. -/
def execBlockLockRegained (p : PortIx) (l : LanePos) (s : State) : Result :=
  State.done (match (s.lane p l).owner, (s.lane p l).monitor.hunt with
    | .switch, some h => (s.opened.modLane p l Lane.endHunt).postLane p l (.lockBlip (Config.recoveryMs - h.remaining))
    | _, _ => s.opened)

/-- RECOVERY_TIMER_EXPIRY (R157, R159): the link is given up. -/
def execRecoveryTimerExpiry (p : PortIx) (l : LanePos) (s : State) : Result :=
  State.done (match (s.lane p l).owner, (s.lane p l).monitor.hunt with
    | .switch, some h => s.opened.linkLost p l h
    | _, _ => s.opened)

/-- INTERVAL_BOUNDARY (R166 to R168). -/
def execIntervalBoundary (s : State) : Result := State.done s.opened.boundary

end Sys2Proof.Machine
end

