-- ==== Sys2Proof/Machine/PlanRequests.lean ====
section
/-! DEFINITION. Meanings: the requests the Plan Store owns (R43 to R50) and its block reset (R55). -/

namespace Sys2Proof.Machine

/-- The layer entry a target byte and a port byte name (R43, R47). -/
def entryTarget (target port : Byte) : Option (LayerName × PortIx) :=
  (layerOf target).bind fun n => (portOf port).map fun p => (n, p)

/-- A background write, judged and carried out (R44, R42): the entry stored and the drift check run, or a refusal. -/
def State.writeBackground (s : State) (i : Instr) (e : RawEntry) : State :=
  match checkEntry e with
  | .error st => s.refuse i st
  | .ok x =>
    if x.kind = .empty then s.refuse i .badArgument
    else ((s.setPlan { s.plan with background := x }).driftCheck).accept i x.bytes

/-- PLAN_WRITE (R43). A target of BACKGROUND is a background write (R195, R44). -/
def execPlanWrite (target port : Byte) (e : RawEntry) (s : State) : Result :=
  State.done (if target = 3 then s.opened.writeBackground (.planWrite target port e) e
   else match entryTarget target port with
   | none => s.opened.refuse (.planWrite target port e) .badArgument
   | some (n, p) =>
     if (s.plan.layer n).enabled then s.opened.refuse (.planWrite target port e) .layerEnabled
     else match checkEntry e with
     | .error st => s.opened.refuse (.planWrite target port e) st
     | .ok x => (s.opened.setPlan (s.plan.setEntry n p x)).accept (.planWrite target port e) x.bytes)

/-- BACKGROUND_WRITE (R44): a PLAN_WRITE to the background entry. -/
def execBackgroundWrite (e : RawEntry) (s : State) : Result := (s.opened.writeBackground (.backgroundWrite e) e).done

/-- The direction a code names: false ASCENDING, true MIRROR (R45, R195). -/
def directionOf (b : Byte) : Option Bool := named [false, true] b

/-- What step 1 of R45 finds: the layer, the first port index and the direction. -/
def fillTarget (layer first direction : Byte) : Option (LayerName × PortIx × Bool) :=
  (layerOf layer).bind fun n => (portOf first).bind fun p => (directionOf direction).map fun d => (n, p, d)

/-- PLAN_FILL (R45, R46). -/
def execPlanFill (layer first count direction : Byte) (e : RawEntry) (s : State) : Result :=
  State.done (match fillTarget layer first direction with
   | none => s.opened.refuse (.planFill layer first count direction e) .badArgument
   | some (n, p, d) =>
     if (s.plan.layer n).enabled then s.opened.refuse (.planFill layer first count direction e) .layerEnabled
     else match checkEntry e with
     | .error st => s.opened.refuse (.planFill layer first count direction e) st
     | .ok x =>
       let out := s.plan.fillFrom n p d x (fillCount p count.toNat) 0
       (s.opened.setPlan out.1).accept (.planFill layer first count direction e) [byte out.2])

/-- The entry a read's target names (R47). -/
def Plan.read (q : Plan) (target port : Byte) : Option PlanEntry :=
  if target = 3 then some q.background else (entryTarget target port).map fun k => q.entry k.1 k.2

/-- PLAN_READ (R47). -/
def execPlanRead (target port : Byte) (s : State) : Result :=
  State.done (match s.plan.read target port with
   | none => s.opened.refuse (.planRead target port) .badArgument
   | some e => s.opened.accept (.planRead target port) e.bytes)

/-- LAYER_SET (R48): flags and order replaced together, then the drift check. -/
def execLayerSet (r : RawLayers) (s : State) : Result :=
  State.done (match judgeLayers r with
   | none => s.opened.refuse (.layerSet r) .badArgument
   | some (flags, order) =>
     ((s.opened.setPlan (s.plan.setLayers flags order)).driftCheck).accept (.layerSet r) (s.plan.setLayers flags order).layerBytes)

/-- LAYER_READ (R47). -/
def execLayerRead (s : State) : Result := (s.opened.accept .layerRead s.plan.layerBytes).done

/-- RESOLVE (R50). -/
def execResolve (port : Byte) (s : State) : Result :=
  State.done (match portOf port with
   | none => s.opened.refuse (.resolve port) .badArgument
   | some p => s.opened.accept (.resolve port) (s.plan.resolve p).bytes)

/-- PLAN block reset (R55): the reset plan, then the drift check. -/
def execPlanBlockReset (s : State) : Result := (((s.opened.setPlan .reset).driftCheck).accept .planBlockReset []).done

end Sys2Proof.Machine
end

