-- ==== Sys2Proof/Machine/PortEvents.lean ====
section
/-! DEFINITION. Meanings: the expiries of a port's stage timer (R60, R63, R90, R94, R112, R136) and of a sweep's watchdog (R128). An
expiry of a timer that does not run is dropped (log entry 3). -/

namespace Sys2Proof.Machine

/-- The port's stage timer runs: it is neither absent nor halted (R30, R77). -/
def Port.timed (x : Port) : Bool := x.stageTimer.any fun t => !t.halted

/-- The end of discovery at the expiry of its timer (R60, R63). -/
def State.discoveryExpiry (s : State) (p : PortIx) : State :=
  if (s.port p).cabled then
    (if (s.port p).usables = [] then s.enterFaulted p .noCable else s.derivation p)
  else if (s.port p).heardLock then s.enterFaulted p .unexpectedCable
  else s.transition p .dark id

/-- DISCOVERY_TIMER_EXPIRY (R60, R63). -/
def execDiscoveryTimerExpiry (p : PortIx) (s : State) : Result :=
  State.done (if (s.port p).state = .discover ∧ (s.port p).timed then s.opened.discoveryExpiry p else s.opened)

/-- CONSULT_TIMER_EXPIRY (R112). -/
def execConsultTimerExpiry (p : PortIx) (s : State) : Result :=
  State.done (if (s.port p).state = .consult ∧ (s.port p).timed then s.opened.enterFaulted p .consultTimeout else s.opened)

/-- The states in which the stage timer is the far-end wait timer (R77). -/
def PortState.waitsFarEnd : PortState → Bool
  | .peerWait | .qualify | .handover => true
  | .idle | .discover | .dark | .consult | .verified | .awaitSlot | .tune | .active | .paused | .manual | .faulted => false

/-- FAR_END_WAIT_EXPIRY (R90, R94, R136). -/
def execFarEndWaitExpiry (p : PortIx) (s : State) : Result :=
  State.done (if (s.port p).state.waitsFarEnd ∧ (s.port p).timed then s.opened.enterFaulted p .farEndStall else s.opened)

/-- WATCHDOG_EXPIRY (R128). -/
def execWatchdogExpiry (c : ChanIx) (s : State) : Result := State.done (s.opened.watchdog c)

end Sys2Proof.Machine
end

