-- ==== Sys2Proof/Machine/PortRequests.lean ====
section
/-! DEFINITION. Meanings: the requests a port controller owns (R79, R81, R82, R104, R109) and the port and ESU block resets (R105,
R132). -/

namespace Sys2Proof.Machine

/-! ### Starting, stepping, stopping -/

/-- A port in this state takes PORT_START (R79). -/
def PortState.startable : PortState → Bool
  | .idle | .faulted | .dark | .verified => true
  | .discover | .consult | .peerWait | .awaitSlot | .tune | .qualify | .handover | .active | .paused | .manual => false

/-- The record as a start that is taken leaves it, before the port moves (R79, R100). -/
def Port.started (x : Port) (m : Mode) : Port := { x with mode := m, attempts := 0, unstable := 0, cycle := .initial }

/-- The entry into MANUAL (R86). -/
def State.enterManual (s : State) (p : PortIx) : State := s.transition p .manual id

/-- The state a start leads to (R79, R80). -/
def State.startInto (s : State) (p : PortIx) (m : Mode) : State :=
  match m with
  | .manual => s.enterManual p
  | .verify => s.enterDiscover p
  | .auto | .step => if (s.port p).state = .verified then s.toPeerWait p else s.enterDiscover p

/-- What PORT_START names: a port and a mode (R79 step 1). -/
def startTarget (port mode : Byte) : Option (PortIx × Mode) := (portOf port).bind fun p => (modeOf mode).map fun m => (p, m)

/-- PORT_START (R79, R80). -/
def execPortStart (port mode : Byte) (s : State) : Result :=
  State.done (match startTarget port mode with
   | none => s.opened.refuse (.portStart port mode) .badArgument
   | some (p, m) =>
     if (s.port p).state.startable = false then s.opened.refuse (.portStart port mode) .wrongState
     else if s.identity = none then s.opened.refuse (.portStart port mode) .noIdentity
     else ((s.opened.modPort p (·.started m)).startInto p m).accept (.portStart port mode) [])

/-- The entry into the pending stage of a paused port (R82). -/
def State.stepInto (s : State) (p : PortIx) : Option PendingStage → State
  | some .peerWait => s.enterPeerWait p
  | some .awaitSlot => s.enterAwaitSlot p
  | some .qualify => s.enterQualify p
  | some .handover => s.enterHandover p
  | none => s

/-- PORT_STEP (R82). -/
def execPortStep (port : Byte) (s : State) : Result :=
  State.done (match portOf port with
   | none => s.opened.refuse (.portStep port) .badArgument
   | some p =>
     if (s.port p).state = .paused then (s.opened.stepInto p (s.port p).pending).accept (.portStep port) []
     else if (s.port p).state = .verified then
       ((s.opened.modPort p fun x => { x with mode := .auto }).enterPeerWait p).accept (.portStep port) []
     else s.opened.refuse (.portStep port) .wrongState)

/-- PORT_STOP (R81), and the grant test that follows an aborted sweep (R131). -/
def execPortStop (port : Byte) (s : State) : Result :=
  State.done (match portOf port with
   | none => s.opened.refuse (.portStop port) .badArgument
   | some p => ((s.opened.stopPort p).afterAbort (s.port p).state).accept (.portStop port) [])

/-- PORT_QUERY (R104). -/
def execPortQuery (port : Byte) (s : State) : Result :=
  State.done (match portOf port with
   | none => s.opened.refuse (.portQuery port) .badArgument
   | some p => s.opened.accept (.portQuery port) (s.port p).bytes)

/-! ### The host's answer to a consult -/

/-- The answer a code names: true ACCEPT, false REJECT (R109, R195). -/
def answerOf (b : Byte) : Option Bool := named [true, false] b

/-- An answer that is taken (R110, R111). -/
def State.takeAnswer (s : State) (p : PortIx) (acc : Bool) : State :=
  if acc then (s.modPort p fun x => { x with accepted := true }).byMode p else s.enterFaulted p .rejected

/-- CONSULT_ANSWER (R109 to R111). -/
def execConsultAnswer (port : Byte) (chassis : Word) (portNum answer : Byte) (s : State) : Result :=
  State.done (match portOf port, answerOf answer with
   | some p, some acc =>
     if chassis = 0 then s.opened.refuse (.consultAnswer port chassis portNum answer) .badArgument
     else if (s.port p).state ≠ .consult then s.opened.refuse (.consultAnswer port chassis portNum answer) .tooLate
     else if (s.port p).neighbour ≠ some { chassis := chassis, portNum := portNum } then
       s.opened.refuse (.consultAnswer port chassis portNum answer) .notMatching
     else (s.opened.takeAnswer p acc).accept (.consultAnswer port chassis portNum answer) []
   | _, _ => s.opened.refuse (.consultAnswer port chassis portNum answer) .badArgument)

/-! ### Block resets of ports and of the ESU -/

/-- PORT(n) block reset (R105), and the grant test that follows an aborted sweep (R131). -/
def execPortBlockReset (port : Byte) (s : State) : Result :=
  State.done (match portOf port with
   | none => s.opened.refuse (.portBlockReset port) .badArgument
   | some p => ((s.opened.resetPort p).afterAbort (s.port p).state).accept (.portBlockReset port) [])

/-- ALL_PORTS block reset (R105): every port in ascending index. The grant test that follows the aborted sweeps finds the wait queue
empty, every port being IDLE (log entry 11). -/
def execAllPortsBlockReset (s : State) : Result :=
  (((allPorts.foldl State.resetPort s.opened).grantTest).accept .allPortsBlockReset []).done

/-- ESU block reset (R132). -/
def execEsuBlockReset (s : State) : Result := ((s.opened.esuReset).accept .esuBlockReset []).done

end Sys2Proof.Machine
end

