-- ==== Sys2Proof/Machine/ReportRequests.lean ====
section
/-! DEFINITION. Meanings: the requests the Report List owns (R185, R186) and its block reset (R188). -/

namespace Sys2Proof.Machine

/-- The bytes a fetch has for records: a reply body of 248 less its header and its two counts (R190, R192). -/
def fetchRoom : Nat := 244

/-- How many records from the head a fetch takes: at most a count, and as many as fit whole (R185). -/
def fetchCount : Nat → Nat → List Record → Nat
  | 0, _, _ => 0
  | _ + 1, _, [] => 0
  | n + 1, room, x :: xs => if x.bytes.length ≤ room then fetchCount n (room - x.bytes.length) xs + 1 else 0

/-- The number of records a fetch of a list takes (R185): the count asked for is clamped to 1..8. -/
def ReportList.taken (l : ReportList) (n : Nat) : Nat := fetchCount (clamp 1 8 n) fetchRoom l.records

/-- The reply body of a fetch that takes k records (R185, R195). -/
def ReportList.fetchBody (l : ReportList) (k : Nat) : List Byte :=
  byte (l.records.take k).length :: byte (l.records.drop k).length :: (l.records.take k).flatMap Record.bytes

/-- REPORT_FETCH (R185). -/
def execReportFetch (n : Byte) (s : State) : Result :=
  let k := s.reports.taken n.toNat
  ((s.opened.setReports { s.reports with records := s.reports.records.drop k }).accept (.reportFetch n) (s.reports.fetchBody k)).done

/-- The mask a request carries, or none where a flag is neither masked nor not (R186). -/
def judgeMask (flags : Vector Byte 21) : Option (Vector Bool 21) :=
  if (List.finRange 21).all fun i => (boolOf flags[i]).isSome then some (Vector.ofFn fun i : Fin 21 => decide (flags[i] = 1)) else none

/-- The mask in a reply: one byte a kind (R189). -/
def maskBytes (m : Vector Bool 21) : List Byte := m.toList.map boolByte

/-- REPORT_MASK (R186). -/
def execReportMask (flags : Vector Byte 21) (s : State) : Result :=
  (match judgeMask flags with
   | none => s.opened.refuse (.reportMask flags) .badArgument
   | some m => (s.opened.setReports { s.reports with mask := m }).accept (.reportMask flags) (maskBytes m)).done

/-- REPORTS block reset (R188). -/
def execReportsBlockReset (s : State) : Result := ((s.opened.setReports .reset).accept .reportsBlockReset []).done

end Sys2Proof.Machine
end

