-- ==== Sys2Proof/Machine/Dispatch.lean ====
section
/-! DEFINITION. The meaning of every command, one arm each. -/

namespace Sys2Proof.Machine

def exec (i : Instr) (s : State) : Host.Outcome State Fault Refusal :=
  match i with
  | .powerOn rate1 rate0 => Sys2Proof.Machine.execPowerOn rate1 rate0 s
  | .pinReset rate1 rate0 => Sys2Proof.Machine.execPinReset rate1 rate0 s
  | .frameComplete b => Sys2Proof.Machine.execFrameComplete b s
  | .gapTimerExpiry => Sys2Proof.Machine.execGapTimerExpiry s
  | .replySent => Sys2Proof.Machine.execReplySent s
  | .unknownCode code => Sys2Proof.Machine.execUnknownCode code s
  | .deviceInfo => Sys2Proof.Machine.execDeviceInfo s
  | .setIdentity chassis base => Sys2Proof.Machine.execSetIdentity chassis base s
  | .settingsWrite r => Sys2Proof.Machine.execSettingsWrite r s
  | .settingsRead => Sys2Proof.Machine.execSettingsRead s
  | .planWrite target port e => Sys2Proof.Machine.execPlanWrite target port e s
  | .backgroundWrite e => Sys2Proof.Machine.execBackgroundWrite e s
  | .planFill layer first count direction e => Sys2Proof.Machine.execPlanFill layer first count direction e s
  | .planRead target port => Sys2Proof.Machine.execPlanRead target port s
  | .layerSet r => Sys2Proof.Machine.execLayerSet r s
  | .layerRead => Sys2Proof.Machine.execLayerRead s
  | .resolve port => Sys2Proof.Machine.execResolve port s
  | .portStart port mode => Sys2Proof.Machine.execPortStart port mode s
  | .portStep port => Sys2Proof.Machine.execPortStep port s
  | .portStop port => Sys2Proof.Machine.execPortStop port s
  | .portQuery port => Sys2Proof.Machine.execPortQuery port s
  | .laneQuery port lane => Sys2Proof.Machine.execLaneQuery port lane s
  | .laneControl port lane r => Sys2Proof.Machine.execLaneControl port lane r s
  | .laneInject port lane kind count => Sys2Proof.Machine.execLaneInject port lane kind count s
  | .consultAnswer port chassis portNum answer => Sys2Proof.Machine.execConsultAnswer port chassis portNum answer s
  | .counterRead scope port lane => Sys2Proof.Machine.execCounterRead scope port lane s
  | .counterWrite scope port lane counter value => Sys2Proof.Machine.execCounterWrite scope port lane counter value s
  | .reportFetch n => Sys2Proof.Machine.execReportFetch n s
  | .reportMask flags => Sys2Proof.Machine.execReportMask flags s
  | .planBlockReset => Sys2Proof.Machine.execPlanBlockReset s
  | .portBlockReset port => Sys2Proof.Machine.execPortBlockReset port s
  | .allPortsBlockReset => Sys2Proof.Machine.execAllPortsBlockReset s
  | .esuBlockReset => Sys2Proof.Machine.execEsuBlockReset s
  | .reportsBlockReset => Sys2Proof.Machine.execReportsBlockReset s
  | .countersBlockReset => Sys2Proof.Machine.execCountersBlockReset s
  | .restart => Sys2Proof.Machine.execRestart s
  | .beaconArrival p l bytes => Sys2Proof.Machine.execBeaconArrival p l bytes s
  | .silenceTimerExpiry p l => Sys2Proof.Machine.execSilenceTimerExpiry p l s
  | .discoveryTimerExpiry p => Sys2Proof.Machine.execDiscoveryTimerExpiry p s
  | .consultTimerExpiry p => Sys2Proof.Machine.execConsultTimerExpiry p s
  | .farEndWaitExpiry p => Sys2Proof.Machine.execFarEndWaitExpiry p s
  | .figureOfMerit p l figure => Sys2Proof.Machine.execFigureOfMerit p l figure s
  | .beaconTransmit p l => Sys2Proof.Machine.execBeaconTransmit p l s
  | .testBlockTransmit p l => Sys2Proof.Machine.execTestBlockTransmit p l s
  | .watchdogExpiry c => Sys2Proof.Machine.execWatchdogExpiry c s
  | .patternLockLost p l => Sys2Proof.Machine.execPatternLockLost p l s
  | .patternLockRegained p l => Sys2Proof.Machine.execPatternLockRegained p l s
  | .testBlockEnd p l errors => Sys2Proof.Machine.execTestBlockEnd p l errors s
  | .symbolError p l => Sys2Proof.Machine.execSymbolError p l s
  | .monitorPeriodEnd => Sys2Proof.Machine.execMonitorPeriodEnd s
  | .cleanRunExpiry p => Sys2Proof.Machine.execCleanRunExpiry p s
  | .blockLockLost p l => Sys2Proof.Machine.execBlockLockLost p l s
  | .blockLockRegained p l => Sys2Proof.Machine.execBlockLockRegained p l s
  | .recoveryTimerExpiry p l => Sys2Proof.Machine.execRecoveryTimerExpiry p l s
  | .intervalBoundary => Sys2Proof.Machine.execIntervalBoundary s
  | .managementByteReceived b => Sys2Proof.Machine.execManagementByteReceived b s

end Sys2Proof.Machine
end

