-- ==== Sys2Proof/Safety.lean ====
section
/-! DEFINITION. What a sound state of the part is, in the terms the statements use: the well-formed report list (R181), counters
within their maxima (R163), legal settings (R176) and plan entries (R37), the request buffer in order (R172), and the sweep channels
and wait queue in step with the ports (R117, R119). Also the ways a statement names a result: a settled state, a change of one port
only, and a run of commands. -/

namespace Sys2Proof.Machine

/-! ### Naming results -/

/-- A state at the end of a command that kept no report back: nothing deferred, the attention pin as R187 gives. -/
def State.settled (s : State) : State :=
  { s with deferred := [], attn := s.settings.attention && !s.reports.records.isEmpty }

/-- A state once a request has been answered and nothing else has happened. -/
def State.replied (s : State) (i : Instr) (st : Status) (body : List Byte) : State := (s.answer i st body).settled

/-- From one state to another, nothing but one port, the ESU, the report list and the attention pin has changed. -/
structure OnlyPort (p : PortIx) (s t : State) : Prop where
  others : ∀ q, q ≠ p → t.port q = s.port q
  plan : t.plan = s.plan
  mpt : t.mpt = s.mpt
  time : t.time = s.time
  settings : t.settings = s.settings
  identity : t.identity = s.identity
  countdown : t.countdown = s.countdown
  freeIx : t.freeIx = s.freeIx
  pending : t.pending = s.pending

/-- The report list after some reports, in order, stamped with one clock reading (R181). -/
def ReportList.enterAll (l : ReportList) (clock : Word) (rs : List Report) : ReportList :=
  rs.foldl (fun m r => m.enter clock r) l

/-- A run of commands, one after another. -/
def runAll : List Instr → State → Host.Outcome State Fault Refusal
  | [], s => .next s
  | i :: is, s =>
    match exec i s with
    | .next t => runAll is t
    | .fault f => .fault f
    | .refused r => .refused r

/-- The reports of one port, without a lane, in order. -/
def portReports (p : PortIx) (ds : List Detail) : List Report := ds.map fun d => { port := some p, lane := none, detail := d }

/-- A swept lane after a number of events: the beacon it waits for, or the figure its lane tap gives for the current point. -/
def SweepLane.drive (fig : Point → Byte) : Nat → SweepLane → SweepLane
  | 0, y => y
  | n + 1, y => SweepLane.drive fig n (match y.phase with
    | .settle | .closing => y.beaconSent
    | .measure => y.figureArrived (fig y.point)
    | .finished => y)

/-- What a port keeps while it goes through its stages: mode, snapshot, what discovery found, and the unstable count. -/
structure Port.keepsCourse (x y : Port) : Prop where
  mode : y.mode = x.mode
  snapshot : y.snapshot = x.snapshot
  neighbour : y.neighbour = x.neighbour
  verdict : y.verdict = x.verdict
  accepted : y.accepted = x.accepted
  map : y.map = x.map
  mapClass : y.mapClass = x.mapClass
  width : y.width = x.width
  unstable : y.unstable = x.unstable

/-- A port record as an entry into DISCOVER leaves it (R56, R95): the given snapshot, the results of discovery cleared, the discovery
timer started; mode, unstable count and counters kept. -/
structure Port.rediscovered (x y : Port) (n : Snapshot) (g : Settings) : Prop where
  state : y.state = .discover
  snapshot : y.snapshot = some n
  stageTimer : y.stageTimer = some { remaining := g.discovery * 1000, halted := false }
  found : y.neighbour = none ∧ y.verdict = none ∧ y.accepted = false ∧ y.mapClass = none ∧ y.width = none
  map : ∀ l : LanePos, y.map[l] = { remote := none, polarity := .normal, logical := none }
  stages : y.pending = none ∧ y.fault = none ∧ y.channel = none ∧ y.handover = none ∧ y.cleanRun = none ∧ y.qualify = none
  counts : y.attempts = 0 ∧ y.cycle = .initial
  kept : y.mode = x.mode ∧ y.unstable = x.unstable ∧ y.counters = x.counters

/-- No grant can be made: as many channels are busy as the sweep limit allows (R121). -/
def State.noGrant (s : State) : Prop := s.settings.sweepLimit ≤ (s.esu.channels.toList.filter Option.isSome).length

/-- The far end holds a port back: every lane that holds a far-end stage holds one of some early stages, or a mapped lane does or holds
none (R15). -/
def Port.farBehind (x : Port) (early : List Stage) : Prop :=
  (∀ l f, (x.lane l).rx.far = some f → f.stage ∈ early) ∨
    x.mapClass ≠ none ∧ ∃ l : LanePos, x.map[l].logical ≠ none ∧ ∀ f, (x.lane l).rx.far = some f → f.stage ∈ early

/-- The far end keeps a port in PEER_WAIT (R89): it is behind WAIT, or a mapped lane holds FAULT. -/
def Port.peerBehind (x : Port) : Prop :=
  x.farBehind [.disc] ∨
    x.mapClass ≠ none ∧ ∃ (l : LanePos) (f : FarEnd), x.map[l].logical ≠ none ∧ (x.lane l).rx.far = some f ∧ f.fault ≠ none

/-- The far end is there: every mapped lane of a port that has some listens under the part's hand and holds one of some late stages,
without FAULT (R15, R89, R135). -/
def Port.farThere (x : Port) (late : List Stage) : Prop :=
  x.mapClass ≠ none ∧ (∃ l : LanePos, x.map[l].logical ≠ none) ∧
    ∀ l : LanePos, x.map[l].logical ≠ none → l.val < x.L ∧ (x.lane l).owner = .part ∧ (x.lane l).rx.state ≠ .off ∧
      ∃ f, (x.lane l).rx.far = some f ∧ f.stage ∈ late ∧ f.fault = none

/-- A sweep aborted because its port left TUNE (R131): its channel is free. Where no grant follows, nothing else has changed in the ESU
and no other port; where the freed channel is the one the limit held back, the head of the queue has the lowest free one (R121). -/
def Freed (p : PortIx) (c : ChanIx) (s t : State) : Prop :=
  let free := s.esu.channels.set c none
  let busy := (free.toList.filter Option.isSome).length
  (s.esu.queue = [] ∨ s.settings.sweepLimit ≤ busy → OnlyPort p s t ∧ t.esu = { s.esu with channels := free }) ∧
  ∀ (e : QueueEntry) (q : List QueueEntry) (d : ChanIx), s.esu.queue = e :: q → busy + 1 = s.settings.sweepLimit → free[d] = none →
    (∀ k : ChanIx, k < d → free[k] ≠ none) →
    t.esu.queue = q ∧ (t.port e.port).state = .tune ∧ (t.port e.port).channel = some d ∧
      (∃ w : Sweep, t.esu.channels[d] = some w ∧ w.port = e.port ∧ w.channel = d ∧ w.start = s.time.clock ∧ w.watchdog = 500 ∧
        w.lanes = (s.port e.port).byLogical.map SweepLane.start) ∧
      (∀ k : ChanIx, k ≠ d → t.esu.channels[k] = free[k]) ∧ ∀ r, r ≠ p → r ≠ e.port → t.port r = s.port r

/-- A port has come into AWAIT_SLOT in its class and waits there, or in STEP mode into PAUSED before it (R83, R91). -/
def Queued (p : PortIx) (cycle : CycleClass) (s t : State) : Prop :=
  if (s.port p).mode = .step then
    (t.port p).state = .paused ∧ (t.port p).pending = some .awaitSlot ∧ t.esu = s.esu
  else (t.port p).state = .awaitSlot ∧ (t.port p).pending = none ∧
    t.esu = { s.esu with queue := queueJoin s.esu.queue { port := p, cycle := cycle } }

/-- A failed attempt (R99): the third faults the port with the given reason, an earlier one queues it again. The record keeps its
course, and no timer runs. -/
def FailedAttempt (p : PortIx) (r : FaultReason) (s t : State) : Prop :=
  let x := s.port p
  x.keepsCourse (t.port p) ∧ (t.port p).attempts = x.attempts + 1 ∧ (t.port p).cycle = x.cycle ∧ (t.port p).stageTimer = none ∧
  if 2 ≤ x.attempts then
    (t.port p).state = .faulted ∧ (t.port p).fault = some r ∧ t.esu = s.esu ∧
      (t.port p).counters = x.counters.set ctrFaults (x.counters[ctrFaults].bump 65535 1)
  else Queued p x.cycle s t ∧
    (t.port p).counters = (if x.mode ≠ .step ∧ x.cycle = .initial
      then x.counters.set ctrAttempts (x.counters[ctrAttempts].bump 65535 1) else x.counters)

/-- A retrain or a join taken by an ACTIVE port (R152, R158): UNSTABLE at count 3, else the port waits for a sweep in the class RETRAIN.
Its lanes are the part's again, with their equalization settings kept. -/
def Retrained (p : PortIx) (s t : State) : Prop :=
  let x := s.port p
  (t.port p).map = x.map ∧ (t.port p).width = x.width ∧ (t.port p).snapshot = x.snapshot ∧ (t.port p).neighbour = x.neighbour ∧
  (t.port p).accepted = x.accepted ∧ (t.port p).mode = x.mode ∧ (t.port p).cleanRun = none ∧
  (∀ k, (t.lane p k).owner = .part ∧ (t.lane p k).eq = (s.lane p k).eq) ∧
  if 3 ≤ x.unstable then
    (t.port p).state = .faulted ∧ (t.port p).fault = some .unstable ∧ (t.port p).unstable = x.unstable ∧ t.esu = s.esu ∧
      (t.port p).counters = x.counters.set ctrFaults (x.counters[ctrFaults].bump 65535 1)
  else Queued p .retrain s t ∧ (t.port p).unstable = x.unstable + 1 ∧ (t.port p).cycle = .retrain ∧ (t.port p).attempts = 0 ∧
    (t.port p).counters = x.counters.set ctrRetrains (x.counters[ctrRetrains].bump 65535 1)

/-! ### Report list (R181) -/

/-- Two records of one kind, port and lane (R181). -/
def Record.sameKey (x y : Record) : Bool := x.report.sameKey y.report

/-- The report list as R181 says it is: at most 63 ordinary records and one LIST_OVERFLOW, which has neither port nor lane; no two
ordinary records of one kind, port and lane; repeat counts of 1..255; a lane only with a port is left to the posting rules. -/
structure ReportList.wf (l : ReportList) : Prop where
  ordinary : (l.records.filter Record.ordinary).length ≤ 63
  overflow : (l.records.filter fun x => !x.ordinary).length ≤ 1
  distinct : (l.records.filter Record.ordinary).Pairwise fun x y => x.sameKey y = false
  counts : ∀ x ∈ l.records, 1 ≤ x.count ∧ x.count ≤ 255

/-! ### Counters (R161, R162, R163) -/

/-- A counter and its snapshot are at their maximum or below. -/
def Counter.within (c : Counter) (maximum : Nat) : Prop := c.live ≤ maximum ∧ c.snap ≤ maximum

/-- Every counter of a port and of its lanes is within its maximum. -/
def Port.countersWithin (x : Port) : Prop :=
  (∀ i : Fin 3, x.counters[i].within shortCounterMax) ∧ ∀ (l : LanePos) (i : Fin 7), (x.lane l).counters[i].within (laneCounterMax i)

/-- Every counter of the part is within its maximum (R163). -/
def State.countersWithin (s : State) : Prop :=
  (∀ p, (s.port p).countersWithin) ∧ ∀ i : Fin 2, s.mpt.counters[i].within shortCounterMax

/-! ### Settings and plan (R37, R41, R42, R176) -/

/-- Every setting lies in its range (R176). -/
structure Settings.legal (g : Settings) : Prop where
  discovery : 1 ≤ g.discovery ∧ g.discovery ≤ 600
  consult : 1 ≤ g.consult ∧ g.consult ≤ 255
  farEndWait : 1 ≤ g.farEndWait ∧ g.farEndWait ≤ 60
  errThreshold : 1 ≤ g.errThreshold ∧ g.errThreshold ≤ 65535
  sweepLimit : 1 ≤ g.sweepLimit ∧ g.sweepLimit ≤ 4
  decimation : g.decimation ≤ 15

/-- A printable character (R39 item 7). -/
def printable (c : Byte) : Prop := 0x20 ≤ c.toNat ∧ c.toNat ≤ 0x7E

/-- Every field of an entry lies in the set R37 gives, and a NORMAL or ASK entry's window gives its grade (R40). -/
structure PlanEntry.legal (e : PlanEntry) : Prop where
  chassis : e.chassis ≠ some 0
  grade : 1 ≤ e.grade ∧ e.grade ≤ 71
  window : 1 ≤ e.window ∧ e.window ≤ 65535
  label : ∀ t, e.label = some t → t.length ≤ 16 ∧ ∀ c ∈ t, printable c
  reach : e.kind = .normal ∨ e.kind = .ask → 2 ^ e.grade ≤ (e.window * 2 ^ 20) ^ 2

/-- The plan holds legal entries, a background that is not EMPTY, and an order that ranks each layer once (R41, R42). -/
structure Plan.legal (q : Plan) : Prop where
  entries : ∀ n p, (q.entry n p).legal
  background : q.background.legal ∧ q.background.kind ≠ .empty
  order : q.order.Perm [.base, .overlayA, .overlayB]

/-- A port's snapshot, where it holds one, is a legal entry that is not EMPTY (R49, R51). -/
def Port.snapshotLegal (x : Port) : Prop := ∀ n, x.snapshot = some n → n.entry.legal ∧ n.entry.kind ≠ .empty

/-- The fields of a port record that belong to one state are held in that state only: the pending stage in PAUSED and the fault reason in
FAULTED (R76), the timers (R77, R154), the sweep channel in TUNE (R122), the handover record (R92), an open window (R135), lanes given
to the switch in ACTIVE (R17). -/
structure Port.stageFields (x : Port) : Prop where
  pending : x.pending ≠ none → x.state = .paused
  fault : x.fault ≠ none → x.state = .faulted
  stageTimer : x.stageTimer ≠ none → x.state ∈ [PortState.discover, .consult, .peerWait, .qualify, .handover]
  cleanRun : x.cleanRun ≠ none → x.state = .active
  channel : x.channel ≠ none → x.state = .tune
  handover : x.handover ≠ none → x.state = .handover
  window : ∀ q, x.qualify = some q → q.begun = true → x.state = .qualify
  owner : ∀ l, (x.lane l).owner = .switch → x.state = .active

/-- Settings, plan and snapshots are legal, and every port record holds the fields of its state only. -/
structure State.recordsLegal (s : State) : Prop where
  settings : s.settings.legal
  plan : s.plan.legal
  snapshots : ∀ p, (s.port p).snapshotLegal
  stages : ∀ p, (s.port p).stageFields

/-! ### The request buffer (R172) -/

/-- The requests of the buffer stand in order: answered ones first, then at most one in hand, then those not handed on; behind a RESTART
that has been taken, only those (R180). -/
def bufferOrdered : List BufEntry → Prop
  | [] => True
  | e :: es =>
    match e.phase with
    | .answered _ _ => if e.restarts then ∀ d ∈ es, d.phase = .waiting else bufferOrdered es
    | .handed => ∀ d ∈ es, d.phase = .waiting
    | .waiting => False

/-- The management port holds at most two requests, in order (R172). -/
def Mpt.bufferLegal (m : Mpt) : Prop := m.buffer.length ≤ 2 ∧ bufferOrdered m.buffer

/-! ### Channels and queue (R117, R119) -/

/-- The wait queue keeps every RETRAIN entry ahead of every INITIAL one (R119). -/
def queueOrdered (q : List QueueEntry) : Prop := q.Pairwise fun a b => a.cycle = .initial → b.cycle = .initial

/-- The ESU and the ports agree: a port stands in the wait queue exactly while it is in AWAIT_SLOT, once, and the queue
keeps its two classes in order (R119); a channel is busy exactly for the port in TUNE that names it (R117, R122). -/
structure State.slots (s : State) : Prop where
  queued : ∀ p, (s.port p).state = .awaitSlot ↔ ∃ e ∈ s.esu.queue, e.port = p
  once : (s.esu.queue.map QueueEntry.port).Nodup
  ordered : queueOrdered s.esu.queue
  tuned : ∀ p c, ((s.port p).state = .tune ∧ (s.port p).channel = some c) ↔ ∃ w, s.esu.channels[c] = some w ∧ w.port = p
  channelled : ∀ p, (s.port p).state = .tune ↔ (s.port p).channel ≠ none

end Sys2Proof.Machine
end

