-- ==== Sys2Proof/Certificates/Slice0/Obligations.lean ====
section
/-! DEFINITION. The statements for the provers, in the terms of the model and of spec/. Each docstring names the rule a statement
formalises, and the log entry where a clause is the model's own choice. -/

open Sys2Proof Sys2Proof.Machine

/-! ### The machine as a whole -/

/-- A step runs the command at the front of the queue on the state with the queue's rest; on an empty queue the part idles (the model's
choice, log entry 3). -/
def Obligations.StepRunsFrontCommand : Prop :=
  (∀ (c : Instr) (q : List Instr) (s : State), step (s.setPending (c :: q)) = exec c (s.setPending q)) ∧
    ∀ s : State, s.pending = [] → step s = .next s

/-- R187: after every command ATTN_N is asserted exactly while the report list holds a record and attention is enabled. -/
def Obligations.AttentionPinFollowsReportList : Prop :=
  ∀ (c : Instr) (s : State), ∃ t, exec c s = .next t ∧
    (t.attn = true ↔ t.reports.records ≠ [] ∧ t.settings.attention = true)

/-- What each command may touch beside ports, lanes and reports: the waiting commands and the kept-back reports are the model's own (log
entries 3 and 17); identity (R175), settings (R177) and plan (R41, R42) change only by the commands their rules name. That the clock
changes only by MONITOR_PERIOD_END and the interval count only by INTERVAL_BOUNDARY is the model's choice (log entry 3), and so is the
step at which a RESTART resets (log entry 2). -/
def Obligations.OnlyNamedCommandsWriteSharedState : Prop :=
  ∀ (c : Instr) (s t : State), exec c s = .next t →
    t.pending = s.pending ∧ t.deferred = [] ∧
    ((∃ a b, c = .powerOn a b) ∨ (∃ a b, c = .pinReset a b) ∨ c = .restart ∨
      (c = .replySent ∧ ∃ e ∈ s.mpt.buffer.head?, e.restarts = true) ∨
      ((t.identity = s.identity ∨ ∃ a b, c = .setIdentity a b) ∧
       (t.settings = s.settings ∨ (∃ r, c = .settingsWrite r) ∨ c = .esuBlockReset) ∧
       (t.plan = s.plan ∨ (∃ a b e, c = .planWrite a b e) ∨ (∃ e, c = .backgroundWrite e) ∨ (∃ a b n d e, c = .planFill a b n d e) ∨
         (∃ r, c = .layerSet r) ∨ c = .planBlockReset) ∧
       (t.time.clock = s.time.clock ∨ c = .monitorPeriodEnd) ∧ (t.time.interval = s.time.interval ∨ c = .intervalBoundary) ∧
       t.mpt.rate = s.mpt.rate))

/-- What power-on leaves (R6, R16, R17, R22, R23, R25, R29, R31, R34, R55, R75, R105, R117, R149, R166, R169, R170, R172, R173, R175, R176,
R188); the model's own choices are the line rate that State.reset shows, which is the board's strapping (log entry 1), no reply on the line
and the values of what the spec implies of a lane and does not name (generator, own block, bytes sent, lane tap, candidate, lock from
silence: log entry 20), no command waiting (log entries 18 and 20). -/
def Obligations.ResetValues : Prop :=
  (∀ p : PortIx, (State.reset.port p).state = .idle ∧ (State.reset.port p).mode = .auto ∧ (State.reset.port p).snapshot = none ∧
    (State.reset.port p).pending = none ∧ (State.reset.port p).fault = none ∧ (State.reset.port p).neighbour = none ∧
    (State.reset.port p).verdict = none ∧ (State.reset.port p).accepted = false ∧ (State.reset.port p).mapClass = none ∧
    (State.reset.port p).width = none ∧ (State.reset.port p).channel = none ∧ (State.reset.port p).qualify = none ∧
    (State.reset.port p).handover = none ∧ (State.reset.port p).cycle = .initial ∧ (State.reset.port p).attempts = 0 ∧
    (State.reset.port p).unstable = 0 ∧ (State.reset.port p).stageTimer = none ∧ (State.reset.port p).cleanRun = none) ∧
  (∀ (p : PortIx) (l : LanePos), (State.reset.port p).map[l] = { remote := none, polarity := .normal, logical := none }) ∧
  (∀ (p : PortIx) (i : Fin 3), (State.reset.port p).counters[i] = { live := 0, snap := 0, mark := false }) ∧
  (∀ (p : PortIx) (l : LanePos), (State.reset.lane p l).owner = .part ∧ (State.reset.lane p l).rx =
      { state := .off, suspended := false, goodRun := 0, badRun := 0, stabRun := 0, candidate := none, lastStable := none,
        silence := none, far := none, lockedFromSilent := false, loopSeen := false, loopRun := 0, noLoopRun := 0 } ∧
    (State.reset.lane p l).checker = .off ∧ (State.reset.lane p l).gen = none ∧ (State.reset.lane p l).block = none ∧
    (State.reset.lane p l).autoLoop = false ∧ (State.reset.port p).loopback l = .none ∧ (State.reset.lane p l).sent = none ∧
    (State.reset.lane p l).tap = none ∧ (State.reset.lane p l).control =
      { source := .beacon, pattern := 0, sendLoopReq := false, sendHold := false, checkPrbs := false, near := false, far := false,
        invert := .auto, excluded := false } ∧
    (State.reset.lane p l).injection = none ∧ (State.reset.lane p l).eq = { gain := 8, pre := 0, post := 0 } ∧
    (State.reset.lane p l).patternLock = .searching ∧
    (State.reset.lane p l).monitor = { errors := 0, history := [], hunt := none }) ∧
  (∀ (p : PortIx) (l : LanePos) (i : Fin 7), (State.reset.lane p l).counters[i] = { live := 0, snap := 0, mark := false }) ∧
  State.reset.plan.order = [.overlayB, .overlayA, .base] ∧ (∀ n, (State.reset.plan.layer n).enabled = false) ∧
  (∀ n p, State.reset.plan.entry n p =
    { kind := .empty, chassis := none, portNum := none, count := .eight, width := .fullOnly, map := .anyOrder, polarity := .correct,
      ask := false, loop := false, grade := 48, window := 4096, label := none }) ∧
  State.reset.plan.background =
    { kind := .ask, chassis := none, portNum := none, count := .eight, width := .fullOnly, map := .anyOrder, polarity := .correct,
      ask := false, loop := false, grade := 48, window := 4096, label := none } ∧
  (∀ c : ChanIx, State.reset.esu.channels[c] = none) ∧ State.reset.esu.queue = [] ∧
  State.reset.reports.records = [] ∧ (∀ k : Fin 21, State.reset.reports.mask[k] = false) ∧ State.reset.attn = false ∧
  State.reset.mpt.asm.phase = .hunt ∧ State.reset.mpt.buffer = [] ∧ State.reset.mpt.overrun = false ∧ State.reset.mpt.line = none ∧
  (∀ i : Fin 2, State.reset.mpt.counters[i] = { live := 0, snap := 0, mark := false }) ∧ State.reset.mpt.rate = .r115200 ∧
  State.reset.settings =
    { discovery := 10, consult := 30, farEndWait := 5, errThreshold := 16, retrain := .five, sweepLimit := 4, sampling := .live,
      decimation := 0, attention := true } ∧
  State.reset.identity = none ∧ State.reset.time = { clock := 0, interval := 0 } ∧ State.reset.countdown = 0 ∧
  State.reset.pending = []

/-- Power-on, pin reset and RESTART (R180): the power-on values; the first two sample the straps, RESTART keeps the line rate and sends
its OK reply first. A RESTART from the buffer is answered in its turn, nothing behind it is handed on, and the part resets when its reply
has been sent; one without a frame has its reply begun and the part reset at once. The waiting commands and the counts of free values and
of grants go on. These are the model's choices (log entries 2, 3, 5 and 31). -/
def Obligations.WholePartResets : Prop :=
  let fresh : LineRate → State → State := fun rate s =>
    { State.powerOn rate with pending := s.pending, freeIx := s.freeIx, esu := { Esu.reset with grants := s.esu.grants } }
  let ended : State → Option Reply → State := fun s r =>
    { fresh s.mpt.rate s with mpt := { Mpt.reset s.mpt.rate with line := r } }
  let reply : State → Option Byte → Option Reply := fun s tag =>
    some { code := 0x18, tag := tag, status := .ok, overrun := s.mpt.overrun, body := [] }
  (∀ (r1 r0 : Bool) (rate : LineRate) (s : State),
    (r1, r0, rate) ∈ [(false, false, LineRate.r115200), (false, true, .r460800), (true, false, .r921600), (true, true, .r3000000)] →
    exec (.powerOn r1 r0) s = .next (fresh rate s) ∧ exec (.pinReset r1 r0) s = .next (fresh rate s)) ∧
  (∀ s : State, (∀ e ∈ s.mpt.buffer, ¬(e.phase = .handed ∧ e.code = 0x18 ∧ e.body = [])) →
    exec .restart s = .next (ended s (reply s none))) ∧
  (∀ (s : State) (e : BufEntry) (es : List BufEntry), s.mpt.buffer = e :: es → e.phase = .handed → e.code = 0x18 → e.body = [] →
    exec .restart s = .next { s with mpt := { s.mpt with
      buffer := { e with phase := .answered .ok [] } :: es, overrun := false, line := reply s (some e.tag) } }.settled) ∧
  (∀ (s : State) (d e : BufEntry), s.mpt.buffer = [d, e] → d.answered → e.phase = .handed → e.code = 0x18 → e.body = [] →
    exec .restart s = .next { s with mpt := { s.mpt with buffer := [d, { e with phase := .answered .ok [] }] } }.settled) ∧
  ∀ (s : State) (e : BufEntry) (es : List BufEntry) (body : List Byte), s.mpt.buffer = e :: es → e.code = 0x18 →
    e.phase = .answered .ok body → exec .replySent s = .next (ended s s.mpt.line)

/-- The events of R19 and of the timers change nothing in a state that does not admit them (the model's reading, log entries 2, 3, 16, 17
and 31): R171, R172, R180, R9, R77, R124, R128, R23, R22, R150, R154, R156, R157, R5. A figure of merit is late where no request of the
running sweep's number waits for it on its lane. -/
def Obligations.EventsNotAdmittedChangeNothing : Prop :=
  ∀ (p : PortIx) (l : LanePos) (c : ChanIx) (b : Byte) (n : Fin 1048577) (number : Nat) (s : State),
    ((∃ e ∈ s.mpt.buffer, e.restarts = true) →
      exec (.managementByteReceived b) s = .next s.settled ∧ exec (.frameComplete b) s = .next s.settled) ∧
    (s.mpt.asm.phase = .hunt → exec .gapTimerExpiry s = .next s.settled) ∧
    (s.mpt.asm.phase ≠ .check ∨ s.mpt.asm.bytes.length < s.mpt.asm.length + 1 → exec (.frameComplete b) s = .next s.settled) ∧
    ((∀ e ∈ s.mpt.buffer.head?, e.answered = false) → exec .replySent s = .next s.settled) ∧
    ((s.lane p l).rx.state = .off ∨ (s.lane p l).rx.suspended ∨ (s.lane p l).rx.silence = none →
      exec (.silenceTimerExpiry p l) s = .next s.settled) ∧
    ((s.port p).state ≠ .discover ∨ (∀ u ∈ (s.port p).stageTimer, u.halted) →
      exec (.discoveryTimerExpiry p) s = .next s.settled) ∧
    ((s.port p).state ≠ .consult ∨ (∀ u ∈ (s.port p).stageTimer, u.halted) →
      exec (.consultTimerExpiry p) s = .next s.settled) ∧
    ((s.port p).state ≠ .peerWait ∧ (s.port p).state ≠ .qualify ∧ (s.port p).state ≠ .handover ∨
        (∀ u ∈ (s.port p).stageTimer, u.halted) → exec (.farEndWaitExpiry p) s = .next s.settled) ∧
    ((s.port p).state ≠ .tune ∨
        (∀ (d : ChanIx) (w : Sweep), (s.port p).channel = some d → s.esu.channels[d] = some w →
          w.number ≠ number ∨ ∀ z ∈ w.lanes, z.pos = l → z.phase ≠ .measure) →
      exec (.figureOfMerit p l { sweep := number, value := b }) s = .next s.settled) ∧
    (s.esu.channels[c] = none → exec (.watchdogExpiry c) s = .next s.settled) ∧
    ((s.lane p l).owner = .switch ∨ (s.lane p l).rx.state = .off ∨ (s.port p).nearEnd l →
      exec (.patternLockLost p l) s = .next s.settled ∧ exec (.patternLockRegained p l) s = .next s.settled) ∧
    ((s.port p).counts l = false ∨ (s.lane p l).checker = .off ∨ (s.lane p l).checker = .waiting →
      exec (.testBlockEnd p l n) s = .next s.settled) ∧
    ((s.port p).content l ≠ .prbs → exec (.testBlockTransmit p l) s = .next s.settled) ∧
    (s.identity = none ∨ (s.port p).content l ≠ .beacon ∧ (s.port p).content l ≠ .prbs →
      exec (.beaconTransmit p l) s = .next s.settled) ∧
    ((s.lane p l).owner = .part → exec (.symbolError p l) s = .next s.settled ∧ exec (.blockLockLost p l) s = .next s.settled) ∧
    ((s.lane p l).owner = .part ∨ (s.lane p l).monitor.hunt = none →
      exec (.blockLockRegained p l) s = .next s.settled ∧ exec (.recoveryTimerExpiry p l) s = .next s.settled) ∧
    ((s.port p).state ≠ .active ∨ (s.port p).cleanRun = none → exec (.cleanRunExpiry p) s = .next s.settled)

/-! ### The management line -/

/-- The frame assembler byte by byte, while it takes no frame (R170): every row of the table but the frame errors and the last byte. Every
byte outside HUNT, and the start byte, sets the gap timer at 10 ms. No RESTART has been taken (R180). -/
def Obligations.AssemblerTakesBytes : Prop :=
  ∀ (b : Byte) (s : State), (∀ e ∈ s.mpt.buffer, e.restarts = false) →
    (s.mpt.asm.phase = .hunt → b = 0xC5 → exec (.managementByteReceived b) s =
      .next { s with mpt := { s.mpt with asm := { phase := .length, length := 0, bytes := [], gap := some 10 } } }.settled) ∧
    (s.mpt.asm.phase = .hunt → b ≠ 0xC5 → exec (.managementByteReceived b) s = .next s.settled) ∧
    (s.mpt.asm.phase = .length → 2 ≤ b.toNat → b.toNat ≤ 250 → exec (.managementByteReceived b) s =
      .next { s with mpt := { s.mpt with asm := { phase := .collect, length := b.toNat, bytes := [], gap := some 10 } } }.settled) ∧
    (s.mpt.asm.phase = .collect → s.mpt.asm.bytes.length + 1 < s.mpt.asm.length → exec (.managementByteReceived b) s =
      .next { s with mpt := { s.mpt with
        asm := { phase := .collect, length := s.mpt.asm.length, bytes := s.mpt.asm.bytes ++ [b], gap := some 10 } } }.settled) ∧
    (s.mpt.asm.phase = .collect → s.mpt.asm.length ≤ s.mpt.asm.bytes.length + 1 → exec (.managementByteReceived b) s =
      .next { s with mpt := { s.mpt with
        asm := { phase := .check, length := s.mpt.asm.length, bytes := s.mpt.asm.bytes ++ [b], gap := some 10 } } }.settled) ∧
    (s.mpt.asm.phase = .check → s.mpt.asm.bytes.length < s.mpt.asm.length + 1 → exec (.managementByteReceived b) s =
      .next { s with mpt := { s.mpt with
        asm := { phase := .check, length := s.mpt.asm.length, bytes := s.mpt.asm.bytes ++ [b], gap := some 10 } } }.settled)

/-- R171: the three frame errors discard the frame without a reply, count it in FRAMES_BAD and return the assembler to HUNT; buffer,
overrun flag and everything else stay. A byte that comes while a RESTART awaits its reset is no byte of a frame (R180). -/
def Obligations.FrameErrorsCountAndHunt : Prop :=
  ∀ (c : Instr) (s : State),
    (∃ b, c = .managementByteReceived b ∧ (∀ e ∈ s.mpt.buffer, e.restarts = false) ∧ s.mpt.asm.phase = .length ∧
      ¬(2 ≤ b.toNat ∧ b.toNat ≤ 250)) ∨
    (∃ b, (∀ e ∈ s.mpt.buffer, e.restarts = false) ∧ (c = .managementByteReceived b ∨ c = .frameComplete b) ∧ s.mpt.asm.phase = .check ∧
      s.mpt.asm.length + 1 ≤ s.mpt.asm.bytes.length ∧
      (s.mpt.asm.bytes ++ [b]).drop s.mpt.asm.length ≠
        checkBytes (byte s.mpt.asm.length :: (s.mpt.asm.bytes ++ [b]).take s.mpt.asm.length)) ∨
    (c = .gapTimerExpiry ∧ s.mpt.asm.phase ≠ .hunt) →
    ∃ t, exec c s = .next t ∧
      t.mpt = { s.mpt with
        asm := { phase := .hunt, length := 0, bytes := [], gap := none }
        counters := s.mpt.counters.set ctrFramesBad (s.mpt.counters[ctrFramesBad].bump 65535 1) } ∧
      t.ports = s.ports ∧ t.plan = s.plan ∧ t.esu = s.esu ∧ t.time = s.time ∧ t.settings = s.settings ∧ t.identity = s.identity ∧
      t.countdown = s.countdown ∧ t.pending = s.pending ∧
      (s.mpt.counters[ctrFramesBad].saturates 65535 1 = false → t.reports = s.reports)

/-- The second check byte of a good frame (R170, R172, R173, R174): the frame joins a buffer with room and goes to its owner once the
requests before it are answered; a body of a wrong length is answered at once, and its reply begins where none is being sent; with two
requests held the frame is an overrun. A frame of an unknown code reaches no owner: it stands in the MPT's own hand, in the same phase,
until the command UNKNOWN_CODE answers it (the model's choice, log entry 2). No RESTART has been taken (R180). -/
def Obligations.GoodFrameJoinsBuffer : Prop :=
  ∀ (b code tag : Byte) (body : List Byte) (c : Instr) (s : State),
    (c = .managementByteReceived b ∨ c = .frameComplete b) → s.mpt.asm.phase = .check →
    s.mpt.asm.length + 1 ≤ s.mpt.asm.bytes.length → (∀ e ∈ s.mpt.buffer, e.restarts = false) →
    (s.mpt.asm.bytes ++ [b]).take s.mpt.asm.length = code :: tag :: body →
    (s.mpt.asm.bytes ++ [b]).drop s.mpt.asm.length = checkBytes (byte s.mpt.asm.length :: code :: tag :: body) →
    (∀ i, s.mpt.buffer = [] → parseRequest code body = .ok i →
      exec c s = .next { s with mpt := { s.mpt with
        asm := .hunting, buffer := [{ code := code, tag := tag, body := body, phase := .handed }] } }.settled) ∧
    (∀ st, s.mpt.buffer = [] → parseRequest code body = .error st →
      exec c s = .next { s with mpt := { s.mpt with
        asm := .hunting, buffer := [{ code := code, tag := tag, body := body, phase := .answered st [] }], overrun := false,
        line := some { code := code, tag := some tag, status := st, overrun := s.mpt.overrun, body := [] } } }.settled) ∧
    (∀ e, s.mpt.buffer = [e] → e.phase = .handed →
      exec c s = .next { s with mpt := { s.mpt with
        asm := .hunting, buffer := [e, { code := code, tag := tag, body := body, phase := .waiting }] } }.settled) ∧
    (∀ e i, s.mpt.buffer = [e] → e.answered = true → parseRequest code body = .ok i →
      exec c s = .next { s with mpt := { s.mpt with
        asm := .hunting, buffer := [e, { code := code, tag := tag, body := body, phase := .handed }] } }.settled) ∧
    (∀ e st, s.mpt.buffer = [e] → e.answered = true → parseRequest code body = .error st →
      exec c s = .next { s with mpt := { s.mpt with
        asm := .hunting, buffer := [e, { code := code, tag := tag, body := body, phase := .answered st [] }] } }.settled) ∧
    (2 ≤ s.mpt.buffer.length → ∃ t, exec c s = .next t ∧
      t.mpt = { s.mpt with asm := .hunting, overrun := true,
                           counters := s.mpt.counters.set ctrOverruns (s.mpt.counters[ctrOverruns].bump 65535 1) } ∧
      t.ports = s.ports ∧ t.plan = s.plan ∧ t.esu = s.esu ∧ t.settings = s.settings ∧ t.identity = s.identity ∧
      (s.mpt.counters[ctrOverruns].saturates 65535 1 = false → t.reports = s.reports))

/-- A request frame sent byte by byte on the management line, its start byte, length, code, tag, body and check laid out as R190 gives,
reaches the empty request buffer whole and is handed on (R170, R172, R190): to its owner, or, where its code is unknown, into the MPT's
own hand (the model's choice, log entry 2). -/
def Obligations.FrameOnTheLineReachesItsOwner : Prop :=
  ∀ (code tag : Byte) (body : List Byte) (i : Instr) (s : State), body.length ≤ 248 → parseRequest code body = .ok i →
    s.mpt.asm = .hunting → s.mpt.buffer = [] →
    runAll ((frameBytes code tag body).map Instr.managementByteReceived) s =
      .next { s with mpt := { s.mpt with buffer := [{ code := code, tag := tag, body := body, phase := .handed }] } }.settled

/-- Replies leave in the order of the requests, one at a time, and each carries the overrun flag and clears it (R172, R173, R174). A
request that reached its owner without a frame is answered by a reply without a tag, and a RESTART has rules of its own (the model's
choice, log entry 2). -/
def Obligations.RepliesLeaveInOrder : Prop :=
  (∀ (m : Mpt) (i : Instr) (st : Status) (body : List Byte) (e : BufEntry), m.buffer = [e] → e.phase = .handed → e.asks i →
    m.answer i st body =
      { m with buffer := [{ e with phase := .answered st body }], overrun := false,
               line := some { code := e.code, tag := some e.tag, status := st, overrun := m.overrun, body := body } }) ∧
  (∀ (m : Mpt) (i j : Instr) (st : Status) (body : List Byte) (e f : BufEntry), i ≠ .restart → m.buffer = [e, f] →
    e.phase = .handed → e.asks i →
    f.phase = .waiting → parseRequest f.code f.body = .ok j →
    m.answer i st body =
      { m with buffer := [{ e with phase := .answered st body }, { f with phase := .handed }], overrun := false,
               line := some { code := e.code, tag := some e.tag, status := st, overrun := m.overrun, body := body } }) ∧
  (∀ (m : Mpt) (i : Instr) (st : Status) (body : List Byte) (e f : BufEntry), m.buffer = [e, f] → e.answered → f.phase = .handed →
    f.asks i → m.answer i st body = { m with buffer := [e, { f with phase := .answered st body }] }) ∧
  (∀ (m : Mpt) (i : Instr) (st : Status) (body : List Byte), (∀ e ∈ m.buffer, ¬ (e.phase = .handed ∧ e.asks i)) →
    m.answer i st body =
      { m with overrun := false,
               line := some { code := requestCode i, tag := none, status := st, overrun := m.overrun, body := body } }) ∧
  (∀ (s : State) (e : BufEntry), s.mpt.buffer = [e] → e.answered → e.code ≠ 0x18 →
    exec .replySent s = .next { s with mpt := { s.mpt with buffer := [] } }.settled) ∧
  (∀ (s : State) (e f : BufEntry), s.mpt.buffer = [e, f] → e.answered → e.code ≠ 0x18 → f.phase = .handed →
    exec .replySent s = .next { s with mpt := { s.mpt with buffer := [f] } }.settled) ∧
  ∀ (s : State) (e f : BufEntry) (st : Status) (body : List Byte), s.mpt.buffer = [e, f] → e.answered → e.code ≠ 0x18 →
    f.phase = .answered st body → exec .replySent s = .next { s with mpt := { s.mpt with
      buffer := [f], overrun := false,
      line := some { code := f.code, tag := some f.tag, status := st, overrun := s.mpt.overrun, body := body } } }.settled

/-! ### Requests that change nothing, and the settings -/

/-- The queries and an unknown code (R36, R47, R50, R104, R164, R174, R176, R178): each answers with its body and changes nothing else; an
index or scope out of range is refused with BAD_ARGUMENT, a code that names no request with UNKNOWN_CODE. The flags byte of a LANE_QUERY
on a lane that holds no far-end flags is a free value of its five defined bits, which the reply uses up (log entry 4, R189). -/
def Obligations.QueriesAnswerAndChangeNothing : Prop :=
  ∀ (s : State),
    exec .deviceInfo s = .next (s.replied .deviceInfo .ok
      ([0x09, 0x68, 1, 24, 8, s.mpt.rate.code] ++
        (match s.identity with | none => [0, 0] | some i => [1, 1] ++ be32 i.chassis.toNat ++ [i.base]) ++
        be32 s.time.interval.toNat ++ s.mptCounters)) ∧
    exec .settingsRead s = .next (s.replied .settingsRead .ok s.settings.bytes) ∧
    exec .layerRead s = .next (s.replied .layerRead .ok s.plan.layerBytes) ∧
    (∀ code : Byte, code = 0 ∨ 0x18 < code.toNat → exec (.unknownCode code) s = .next (s.replied (.unknownCode code) .unknownCode [])) ∧
    (∀ port : Byte, 24 ≤ port.toNat →
      exec (.resolve port) s = .next (s.replied (.resolve port) .badArgument []) ∧
      exec (.portQuery port) s = .next (s.replied (.portQuery port) .badArgument [])) ∧
    (∀ (port : Byte) (p : PortIx), port.toNat = p.val →
      exec (.resolve port) s = .next (s.replied (.resolve port) .ok (s.plan.resolve p).bytes) ∧
      exec (.portQuery port) s = .next (s.replied (.portQuery port) .ok (s.port p).bytes)) ∧
    (∀ port lane : Byte, 24 ≤ port.toNat ∨ 8 ≤ lane.toNat →
      exec (.laneQuery port lane) s = .next (s.replied (.laneQuery port lane) .badArgument [])) ∧
    (∀ (port lane : Byte) (p : PortIx) (l : LanePos), port.toNat = p.val → lane.toNat = l.val →
      ((s.lane p l).rx.far.isSome → ∀ open_, exec (.laneQuery port lane) s =
        .next (s.replied (.laneQuery port lane) .ok ((s.port p).laneBytes l open_))) ∧
      ((s.lane p l).rx.far = none → ∃ open_ : Byte, open_.toNat < 32 ∧ exec (.laneQuery port lane) s =
        .next (({ s with freeIx := s.freeIx + 1 } : State).replied (.laneQuery port lane) .ok ((s.port p).laneBytes l open_)))) ∧
    (∀ port target : Byte, target = 3 → exec (.planRead target port) s =
      .next (s.replied (.planRead target port) .ok s.plan.background.bytes)) ∧
    (∀ port target : Byte, 3 < target.toNat ∨ target.toNat < 3 ∧ 24 ≤ port.toNat → exec (.planRead target port) s =
      .next (s.replied (.planRead target port) .badArgument [])) ∧
    (∀ (port target : Byte) (p : PortIx) (n : LayerName), target = n.code → port.toNat = p.val → exec (.planRead target port) s =
      .next (s.replied (.planRead target port) .ok (s.plan.entry n p).bytes))

/-- COUNTER_READ (R164): the counters of the scope with their marks, live or as the last boundary sampled them, behind sampling mode and
interval count; it changes nothing. -/
def Obligations.CounterReadShowsLiveOrSampled : Prop :=
  ∀ (scope port lane : Byte) (s : State),
    let head : List Byte := s.settings.sampling.code :: be32 s.time.interval.toNat
    let value : Counter → Nat := fun c => match s.settings.sampling with | .live => c.live | .sampled => c.snap
    (2 < scope.toNat ∨ scope.toNat ≤ 1 ∧ 24 ≤ port.toNat ∨ scope = 0 ∧ 8 ≤ lane.toNat →
      exec (.counterRead scope port lane) s = .next (s.replied (.counterRead scope port lane) .badArgument [])) ∧
    (∀ (p : PortIx) (l : LanePos), scope = 0 → port.toNat = p.val → lane.toNat = l.val →
      exec (.counterRead scope port lane) s = .next (s.replied (.counterRead scope port lane) .ok
        (head ++ (List.finRange 7).flatMap fun i : Fin 7 =>
          (if i = 1 ∨ i = 5 ∨ i = 6 then be16 (value (s.lane p l).counters[i]) else be32 (value (s.lane p l).counters[i])) ++
            [if (s.lane p l).counters[i].mark then 1 else 0]))) ∧
    (∀ p : PortIx, scope = 1 → port.toNat = p.val →
      exec (.counterRead scope port lane) s = .next (s.replied (.counterRead scope port lane) .ok
        (head ++ (List.finRange 3).flatMap fun i : Fin 3 =>
          be16 (value (s.port p).counters[i]) ++ [if (s.port p).counters[i].mark then 1 else 0]))) ∧
    (scope = 2 → exec (.counterRead scope port lane) s = .next (s.replied (.counterRead scope port lane) .ok
        (head ++ (List.finRange 2).flatMap fun i : Fin 2 =>
          be16 (value s.mpt.counters[i]) ++ [if s.mpt.counters[i].mark then 1 else 0])))

/-- SET_IDENTITY (R175): refused for a zero chassis or a base above 232, then for any port outside IDLE, DARK and FAULTED; otherwise the
identity is replaced and nothing else changes. -/
def Obligations.SetIdentityJudgesThenReplaces : Prop :=
  ∀ (chassis : Word) (base : Byte) (s : State),
    (chassis = 0 ∨ 232 < base.toNat →
      exec (.setIdentity chassis base) s = .next (s.replied (.setIdentity chassis base) .badArgument [])) ∧
    (chassis ≠ 0 → base.toNat ≤ 232 →
      (∃ p, (s.port p).state ≠ .idle ∧ (s.port p).state ≠ .dark ∧ (s.port p).state ≠ .faulted) →
      exec (.setIdentity chassis base) s = .next (s.replied (.setIdentity chassis base) .wrongState [])) ∧
    (chassis ≠ 0 → base.toNat ≤ 232 →
      (∀ p, (s.port p).state = .idle ∨ (s.port p).state = .dark ∨ (s.port p).state = .faulted) →
      exec (.setIdentity chassis base) s =
        .next ({ s with identity := some { chassis := chassis, base := base } }.replied (.setIdentity chassis base) .ok
          (be32 chassis.toNat ++ [base])))

/-- SETTINGS_WRITE (R176, R177, R168, R118): a bad sampling mode or attention enable is refused; every number is clamped, the record
replaced whole, the summary countdown loaded where the decimation changes or sampling goes from LIVE to SAMPLED, and a raised sweep limit
followed by the grant test. -/
def Obligations.SettingsWriteClampsAndActs : Prop :=
  ∀ (r : RawSettings) (s : State),
    (1 < r.sampling.toNat ∨ 1 < r.attention.toNat →
      exec (.settingsWrite r) s = .next (s.replied (.settingsWrite r) .badArgument [])) ∧
    (r.sampling.toNat ≤ 1 → r.attention.toNat ≤ 1 →
      let g : Settings :=
        { discovery := if r.discovery.toNat < 1 then 1 else if 600 < r.discovery.toNat then 600 else r.discovery.toNat
          consult := if r.consult.toNat < 1 then 1 else r.consult.toNat
          farEndWait := if r.farEndWait.toNat < 1 then 1 else if 60 < r.farEndWait.toNat then 60 else r.farEndWait.toNat
          errThreshold := if r.errThreshold.toNat < 1 then 1 else r.errThreshold.toNat
          retrain := if r.retrain.toNat = 0 then .off else if r.retrain.toNat ≤ 4 then .four
            else if r.retrain.toNat = 5 then .five else .six
          sweepLimit := if r.sweepLimit.toNat < 1 then 1 else if 4 < r.sweepLimit.toNat then 4 else r.sweepLimit.toNat
          sampling := if r.sampling = 0 then .live else .sampled
          decimation := if 15 < r.decimation.toNat then 15 else r.decimation.toNat
          attention := decide (r.attention = 1) }
      let t : State :=
        { s with settings := g
                 countdown := if s.settings.decimation ≠ g.decimation ∨ s.settings.sampling = .live ∧ g.sampling = .sampled
                   then g.decimation else s.countdown
                 deferred := [] }
      (g.sweepLimit ≤ s.settings.sweepLimit → exec (.settingsWrite r) s = .next (t.replied (.settingsWrite r) .ok g.bytes)) ∧
      (s.settings.sweepLimit < g.sweepLimit → ∃ u, exec (.settingsWrite r) s = .next u ∧ u.settings = g ∧ u.countdown = t.countdown ∧
        u.plan = s.plan ∧ u.identity = s.identity ∧ u.mpt = s.mpt.answer (.settingsWrite r) .ok g.bytes ∧
        u.esu = t.grantTest.esu ∧ u.ports = t.grantTest.ports))

/-! ### The wiring plan -/

/-- A legal plan entry, sent in its bytes (R193), is read back and passes both checks unchanged: no field and no bit is lost (R37, R39,
R40, R189). -/
def Obligations.PlanEntrySurvivesTheWire : Prop :=
  ∀ x : PlanEntry, x.legal → ∃ e, readEntry x.bytes = some e ∧ checkEntry e = .ok x

/-- R40: an entry that passes the field check is refused with WINDOW_SHORT exactly where it is NORMAL or ASK and its grade exceeds the
best grade G of its window, the largest with 2^G at most the square of the window's bits, which is 40 plus the largest k with 2^k at most
Q²; with the rule's table. -/
def Obligations.WindowShortAgainstBestGrade : Prop :=
  (∀ (e : RawEntry) (x : PlanEntry) (g : Nat), judgeEntry e = some x →
    2 ^ g ≤ (x.window * 2 ^ 20) ^ 2 → (∀ h, 2 ^ h ≤ (x.window * 2 ^ 20) ^ 2 → h ≤ g) →
    (checkEntry e = .error .windowShort ↔ (x.kind = .normal ∨ x.kind = .ask) ∧ g < x.grade) ∧
    (∀ k, 2 ^ k ≤ x.window ^ 2 → (∀ h, 2 ^ h ≤ x.window ^ 2 → h ≤ k) → g = 40 + k)) ∧
  ∀ q g : Nat, (q, g) ∈ [(1, 40), (2, 42), (3, 43), (16, 48), (100, 53), (1000, 59), (4096, 64), (65535, 71)] →
    2 ^ g ≤ (q * 2 ^ 20) ^ 2 ∧ (q * 2 ^ 20) ^ 2 < 2 ^ (g + 1)

/-- PLAN_WRITE to a layer entry (R43): the four refusals in order, none of which changes the plan; otherwise the entry is replaced whole,
returned as stored, and no port's resolution changes. -/
def Obligations.PlanWriteJudgedInOrder : Prop :=
  ∀ (target port : Byte) (e : RawEntry) (s : State),
    (3 < target.toNat ∨ target.toNat < 3 ∧ 24 ≤ port.toNat →
      exec (.planWrite target port e) s = .next (s.replied (.planWrite target port e) .badArgument [])) ∧
    ∀ (n : LayerName) (p : PortIx), target = n.code → port.toNat = p.val →
      ((s.plan.layer n).enabled = true →
        exec (.planWrite target port e) s = .next (s.replied (.planWrite target port e) .layerEnabled [])) ∧
      ((s.plan.layer n).enabled = false →
        (judgeEntry e = none →
          exec (.planWrite target port e) s = .next (s.replied (.planWrite target port e) .badArgument [])) ∧
        ∀ x, judgeEntry e = some x →
          (x.windowShort = true →
            exec (.planWrite target port e) s = .next (s.replied (.planWrite target port e) .windowShort [])) ∧
          (x.windowShort = false →
            let q := s.plan.setEntry n p x
            exec (.planWrite target port e) s = .next ({ s with plan := q }.replied (.planWrite target port e) .ok x.bytes) ∧
            q.entry n p = x ∧ (∀ m k, (m, k) ≠ (n, p) → q.entry m k = s.plan.entry m k) ∧
            (∀ m, (q.layer m).enabled = (s.plan.layer m).enabled) ∧ q.order = s.plan.order ∧ q.background = s.plan.background ∧
            ∀ k, q.resolve k = s.plan.resolve k))

/-- A write of the background entry (R44, R42, R195), by either spelling: judged by steps 3 and 4 of R43, EMPTY refused too; otherwise
replaced whole and followed by the drift check. -/
def Obligations.BackgroundWriteRunsDriftCheck : Prop :=
  ∀ (i : Instr) (e : RawEntry) (s : State), (i = .backgroundWrite e ∨ ∃ port, i = .planWrite 3 port e) →
    (judgeEntry e = none → exec i s = .next (s.replied i .badArgument [])) ∧
    ∀ x, judgeEntry e = some x →
      (x.windowShort = true → exec i s = .next (s.replied i .windowShort [])) ∧
      (x.kind = .empty → exec i s = .next (s.replied i .badArgument [])) ∧
      (x.windowShort = false → x.kind ≠ .empty →
        exec i s = .next (({ s with plan := { s.plan with background := x } }.driftCheck).replied i .ok x.bytes))

/-- PLAN_FILL (R45, R46): its refusals in order; otherwise entries from the first port on, as many as the clamped count allows and up to
the first stepped port number outside 0..255, are the template with the stepped number; the reply gives how many. -/
def Obligations.PlanFillStepsPortNumbers : Prop :=
  ∀ (layer first count direction : Byte) (e : RawEntry) (s : State),
    let i := Instr.planFill layer first count direction e
    (2 < layer.toNat ∨ 23 < first.toNat ∨ 1 < direction.toNat → exec i s = .next (s.replied i .badArgument [])) ∧
    ∀ (n : LayerName) (p : PortIx), layer = n.code → first.toNat = p.val → direction.toNat ≤ 1 →
      ((s.plan.layer n).enabled = true → exec i s = .next (s.replied i .layerEnabled [])) ∧
      ((s.plan.layer n).enabled = false →
        (judgeEntry e = none → exec i s = .next (s.replied i .badArgument [])) ∧
        ∀ x, judgeEntry e = some x →
          (x.windowShort = true → exec i s = .next (s.replied i .windowShort [])) ∧
          (x.windowShort = false →
            let step : Nat → Option Byte → Option Byte := fun k num =>
              num.map fun b => BitVec.ofNat 8 (if direction = 0 then b.toNat + k else b.toNat - k)
            let inside : Nat → Bool := fun k => x.portNum.all fun b =>
              if direction = 0 then decide (b.toNat + k ≤ 255) else decide (k ≤ b.toNat)
            let most := min (max 1 (min 24 count.toNat)) (24 - p.val)
            ∃ (m : Nat) (q : Plan), exec i s = .next ({ s with plan := q }.replied i .ok [BitVec.ofNat 8 m]) ∧
              1 ≤ m ∧ m ≤ most ∧ (∀ k, k < m → inside k = true) ∧ (m < most → inside m = false) ∧
              (∀ (k : Nat) (h : p.val + k < 24), k < m → q.entry n ⟨p.val + k, h⟩ = { x with portNum := step k x.portNum }) ∧
              (∀ (l : LayerName) (o : PortIx), (l ≠ n ∨ o.val < p.val ∨ p.val + m ≤ o.val) → q.entry l o = s.plan.entry l o) ∧
              (∀ l, (q.layer l).enabled = (s.plan.layer l).enabled) ∧ q.order = s.plan.order ∧ q.background = s.plan.background ∧
              ∀ o, q.resolve o = s.plan.resolve o))

/-- Resolution (R49): the first enabled layer in the order whose entry at the port is not EMPTY gives entry and source; with none the
background does; the entry is never EMPTY where the background is not. -/
def Obligations.ResolutionTakesHighestEnabledLayer : Prop :=
  ∀ (q : Plan) (p : PortIx),
    (∀ (above : List LayerName) (n : LayerName) (below : List LayerName), q.order = above ++ n :: below →
      (∀ m ∈ above, (q.layer m).enabled = false ∨ (q.entry m p).kind = .empty) →
      (q.layer n).enabled = true → (q.entry n p).kind ≠ .empty →
      (q.resolve p).entry = q.entry n p ∧
      (q.resolve p).source = (match n with | .base => .base | .overlayA => .overlayA | .overlayB => .overlayB)) ∧
    ((∀ m ∈ q.order, (q.layer m).enabled = false ∨ (q.entry m p).kind = .empty) →
      (q.resolve p).entry = q.background ∧ (q.resolve p).source = .background) ∧
    (q.background.kind ≠ .empty → (q.resolve p).entry.kind ≠ .empty)

/-- LAYER_SET (R48): refused where a flag is neither on nor off or the order is no permutation; otherwise flags and order are replaced
together, the drift check runs, the reply gives both, and no port changes. -/
def Obligations.LayerSetReplacesFlagsAndOrder : Prop :=
  ∀ (r : RawLayers) (s : State),
    ((1 < r.base.toNat ∨ 1 < r.overlayA.toNat ∨ 1 < r.overlayB.toNat ∨ 2 < r.first.toNat ∨ 2 < r.second.toNat ∨ 2 < r.third.toNat ∨
        r.first = r.second ∨ r.first = r.third ∨ r.second = r.third) →
      exec (.layerSet r) s = .next (s.replied (.layerSet r) .badArgument [])) ∧
    ∀ (a b c : Bool) (x y z : LayerName), r.base = boolByte a → r.overlayA = boolByte b → r.overlayB = boolByte c →
      r.first = x.code → r.second = y.code → r.third = z.code → x ≠ y → x ≠ z → y ≠ z →
      let q : Plan :=
        { base := { s.plan.base with enabled := a }, overlayA := { s.plan.overlayA with enabled := b },
          overlayB := { s.plan.overlayB with enabled := c }, order := [x, y, z], background := s.plan.background }
      exec (.layerSet r) s = .next (({ s with plan := q }.driftCheck).replied (.layerSet r) .ok
        [boolByte a, boolByte b, boolByte c, x.code, y.code, z.code]) ∧
      ({ s with plan := q }.driftCheck).ports = s.ports

/-- The drift check (R53, R54): one PLAN_DRIFT report for each port looked at whose snapshot and fresh resolution differ in darkness, in
lane count, or in agreeing with the neighbour, in ascending port index; nothing but the report list changes. -/
def Obligations.DriftCheckReportsEachPortOnce : Prop :=
  ∀ s : State,
    let wrong : PortIx → Option Report := fun p =>
      (s.port p).snapshot.bind fun old =>
        let new := s.plan.resolve p
        let dark : Bool := decide (old.entry.kind = .unused) != decide (new.entry.kind = .unused)
        let both : Bool := decide (old.entry.kind ≠ .unused) && decide (new.entry.kind ≠ .unused)
        let lanes : Bool := both && decide (old.entry.count ≠ new.entry.count)
        let far : Bool := both && (s.port p).neighbour.any fun n =>
          !(new.entry.chassis.all (fun c => decide (c = n.chassis)) && new.entry.portNum.all fun k => decide (k = n.portNum))
        if (s.port p).state ∉ [PortState.idle, .discover, .manual, .faulted] ∧ (dark || lanes || far) then
          some { port := some p, lane := none,
                 detail := .planDrift dark lanes far old new (s.port p).state (s.port p).neighbour }
        else none
    s.driftCheck = { s with reports := s.reports.enterAll s.time.clock (allPorts.filterMap wrong) }

/-- The block resets that touch no port state (R55, R169, R179, R188): PLAN restores the reset plan and runs the drift check, under which
every port resolves to the background of kind ASK; REPORTS empties list and mask and releases the pin; COUNTERS clears every counter and
keeps interval count and countdown. -/
def Obligations.PlainBlockResets : Prop :=
  ∀ s : State,
    exec .planBlockReset s = .next (({ s with plan := Plan.reset }.driftCheck).replied .planBlockReset .ok []) ∧
    (∀ p, (Plan.reset.resolve p).source = .background ∧ (Plan.reset.resolve p).entry.kind = .ask ∧
      (Plan.reset.resolve p).entry.count = .eight ∧ (Plan.reset.resolve p).entry.chassis = none ∧
      (Plan.reset.resolve p).entry.portNum = none) ∧
    exec .reportsBlockReset s =
      .next ({ s with reports := { records := [], mask := Vector.replicate 21 false } }.replied .reportsBlockReset .ok []) ∧
    ∃ t, exec .countersBlockReset s = .next t ∧
      (∀ p (i : Fin 3), (t.port p).counters[i] = { live := 0, snap := 0, mark := false }) ∧
      (∀ p l (i : Fin 7), (t.lane p l).counters[i] = { live := 0, snap := 0, mark := false }) ∧
      (∀ i : Fin 2, t.mpt.counters[i] = { live := 0, snap := 0, mark := false }) ∧
      (∀ p, { t.port p with counters := (s.port p).counters, lanes := (s.port p).lanes } = s.port p) ∧
      (∀ p l, { t.lane p l with counters := (s.lane p l).counters } = s.lane p l) ∧
      t.mpt = { s.mpt with counters := Vector.replicate 2 .zero }.answer .countersBlockReset .ok [] ∧
      t.time = s.time ∧ t.countdown = s.countdown ∧ t.plan = s.plan ∧ t.esu = s.esu ∧ t.reports = s.reports ∧
      t.settings = s.settings ∧ t.identity = s.identity

/-! ### Counters and intervals -/

/-- A counting event (R163): the value stops at its maximum and stays there; the mark is set by the first event that leaves the counter at
its maximum, and only that event is reported; a set mark stays. That an amount of 0 is a counting event too, and that the report is kept
back until the event's other reports have been posted, is the model's reading (log entry 17). -/
def Obligations.CountingStopsAtMaximum : Prop :=
  ∀ (c : Counter) (maximum amount : Nat), c.live ≤ maximum →
    (c.bump maximum amount).live = (if c.live + amount ≤ maximum then c.live + amount else maximum) ∧
    (c.bump maximum amount).snap = c.snap ∧
    ((c.bump maximum amount).mark = true ↔ c.mark = true ∨ maximum ≤ c.live + amount) ∧
    (c.saturates maximum amount = true ↔ c.mark = false ∧ maximum ≤ c.live + amount) ∧
    ∀ (s : State) (p : PortIx) (l : LanePos) (i : Fin 7), (s.lane p l).counters[i] = c →
      ((s.countLane p l i amount).lane p l).counters[i] = c.bump (laneCounterMax i) amount ∧
      (s.countLane p l i amount).reports = s.reports ∧
      (s.countLane p l i amount).deferred =
        (if c.saturates (laneCounterMax i) amount then
          s.deferred ++ [Report.mk (some p) (some l) (.counterSaturated i.val
            (((s.countLane p l i amount).lane p l).counters.toList.map Counter.mark))]
         else s.deferred)

/-- COUNTER_WRITE (R165): a scope, index, counter or value out of its range is refused with BAD_ARGUMENT and changes nothing; otherwise
live value and snapshot are set, the mark cleared, PRBS_BLOCKS cleared with PRBS_ERR, no other counter changed, and the reply is that of a
read. -/
def Obligations.CounterWriteSetsLiveAndSnapshot : Prop :=
  ∀ (scope port lane counter : Byte) (value : Word) (s : State),
    let i := Instr.counterWrite scope port lane counter value
    let put : Counter := { live := value.toNat, snap := value.toNat, mark := false }
    (2 < scope.toNat ∨ scope.toNat ≤ 1 ∧ 24 ≤ port.toNat ∨ scope = 0 ∧ (8 ≤ lane.toNat ∨ 7 ≤ counter.toNat) ∨
        scope = 1 ∧ 3 ≤ counter.toNat ∨ scope = 2 ∧ 2 ≤ counter.toNat ∨
        (scope.toNat = 1 ∨ scope.toNat = 2 ∨ scope = 0 ∧ (counter = 1 ∨ counter = 5 ∨ counter = 6)) ∧ 65535 < value.toNat →
      exec i s = .next (s.replied i .badArgument [])) ∧
    (∀ (p : PortIx) (l : LanePos) (n : Fin 7), scope = 0 → port.toNat = p.val → lane.toNat = l.val → counter.toNat = n.val →
      (n = 1 ∨ n = 5 ∨ n = 6 → value.toNat ≤ 65535) →
      let u := s.modLane p l fun y =>
        { y with counters := if n = 2 then (y.counters.set n put).set 3 { live := 0, snap := 0, mark := false }
                             else y.counters.set n put }
      exec i s = .next (u.replied i .ok (u.laneCounterBytes p l))) ∧
    (∀ (p : PortIx) (n : Fin 3), scope = 1 → port.toNat = p.val → counter.toNat = n.val → value.toNat ≤ 65535 →
      let u := s.modPort p fun x => { x with counters := x.counters.set n put }
      exec i s = .next (u.replied i .ok (u.portCounterBytes p))) ∧
    (∀ n : Fin 2, scope = 2 → counter.toNat = n.val → value.toNat ≤ 65535 →
      let u := s.setMpt { s.mpt with counters := s.mpt.counters.set n put }
      exec i s = .next (u.replied i .ok (u.counterHead ++ u.mptCounters)))

/-- INTERVAL_BOUNDARY (R166, R167, R168): the interval count goes up by one and wraps; every snapshot takes its live value; in SAMPLED
mode with a decimation the countdown goes down, and at 0 one INTERVAL_SUMMARY is posted and the countdown loaded again. -/
def Obligations.IntervalBoundarySamplesAndSummarises : Prop :=
  ∀ s : State, ∃ t, exec .intervalBoundary s = .next t ∧
    t.time = { clock := s.time.clock, interval := s.time.interval + 1 } ∧
    (∀ p (i : Fin 3), (t.port p).counters[i] = { (s.port p).counters[i] with snap := (s.port p).counters[i].live }) ∧
    (∀ p l (i : Fin 7), (t.lane p l).counters[i] = { (s.lane p l).counters[i] with snap := (s.lane p l).counters[i].live }) ∧
    (∀ i : Fin 2, t.mpt.counters[i] = { s.mpt.counters[i] with snap := s.mpt.counters[i].live }) ∧
    (∀ p, { t.port p with counters := (s.port p).counters, lanes := (s.port p).lanes } = s.port p) ∧
    (∀ p l, { t.lane p l with counters := (s.lane p l).counters } = s.lane p l) ∧
    { t.mpt with counters := s.mpt.counters } = s.mpt ∧ t.plan = s.plan ∧ t.esu = s.esu ∧ t.settings = s.settings ∧
    t.identity = s.identity ∧
    (s.settings.sampling = .live ∨ s.settings.decimation = 0 → t.countdown = s.countdown ∧ t.reports = s.reports) ∧
    (s.settings.sampling = .sampled → s.settings.decimation ≠ 0 → 1 < s.countdown →
      t.countdown = s.countdown - 1 ∧ t.reports = s.reports) ∧
    (s.settings.sampling = .sampled → s.settings.decimation ≠ 0 → s.countdown ≤ 1 →
      t.countdown = s.settings.decimation ∧
      t.reports = s.reports.enter s.time.clock
        { port := none, lane := none,
          detail := .intervalSummary (s.time.interval + 1)
            (allPorts.countP fun p => decide ((s.port p).state = .active))
            (allPorts.countP fun p => decide ((s.port p).state = .faulted))
            (everyLane.countP fun k =>
              decide ((s.lane k.1 k.2).counters[ctrSymbolErr].snap < (s.lane k.1 k.2).counters[ctrSymbolErr].live)) })

/-! ### The report list -/

/-- A report that reaches the list (R182, R183, R184): a masked kind changes nothing; an ordinary record of the same kind, port and lane
takes its detail and counts one more up to 255, keeping time and place; else it is appended where fewer than 63 ordinary records stand;
else it is lost, to a LIST_OVERFLOW record where that kind is not masked. -/
def Obligations.ReportsCoalesceAppendOrOverflow : Prop :=
  ∀ (l : ReportList) (clock : Word) (r : Report), r.kind ≠ .listOverflow →
    let same : Record → Bool := fun x =>
      decide (x.report.kind = r.kind ∧ x.report.port = r.port ∧ x.report.lane = r.lane)
    let ordinary : Record → Bool := fun x => decide (x.report.kind ≠ .listOverflow)
    let lost : Nat → Report := fun n => { port := none, lane := none, detail := .listOverflow n r.kind r.port r.lane }
    (l.mask[r.kind.index] = true → l.enter clock r = l) ∧
    (l.mask[r.kind.index] = false →
      (∀ (before : List Record) (x : Record) (after : List Record), l.records = before ++ x :: after → same x = true →
        before.all (fun y => !same y) → after.all (fun y => !same y) →
        l.enter clock r = { l with records := before ++
          { report := { x.report with detail := r.detail }, time := x.time, count := if x.count < 255 then x.count + 1 else 255 } ::
            after }) ∧
      (l.records.all (fun y => !same y) → (l.records.filter ordinary).length < 63 →
        l.enter clock r = { l with records := l.records ++ [{ report := r, time := clock, count := 1 }] }) ∧
      (l.records.all (fun y => !same y) → 63 ≤ (l.records.filter ordinary).length →
        (l.mask[ReportKind.listOverflow.index] = true → l.enter clock r = l) ∧
        (l.mask[ReportKind.listOverflow.index] = false →
          (l.records.all ordinary → l.enter clock r =
            { l with records := l.records ++ [{ report := lost 1, time := clock, count := 1 }] }) ∧
          ∀ (before : List Record) (x : Record) (after : List Record) (n : Nat) (k : ReportKind) (p : Option PortIx)
            (q : Option LanePos), l.records = before ++ x :: after → before.all ordinary → after.all ordinary →
            x.report.detail = .listOverflow n k p q →
            l.enter clock r = { l with records := before ++
              { x with report := lost (if n < 65535 then n + 1 else 65535) } :: after })))

/-- REPORT_FETCH (R185): the oldest records, up to the count clamped to 1..8 and as many as fit whole in a reply body of 248 bytes, are
returned in order and removed; the reply gives how many were returned and how many stay; of records that each fit, one always comes. -/
def Obligations.ReportFetchRemovesFromHead : Prop :=
  ∀ (n : Byte) (s : State), ∃ k : Nat, k ≤ s.reports.records.length ∧
    let most := if n.toNat = 0 then 1 else if 8 < n.toNat then 8 else n.toNat
    let body : Nat → List Byte := fun j =>
      BitVec.ofNat 8 j :: BitVec.ofNat 8 (s.reports.records.length - j) :: (s.reports.records.take j).flatMap Record.bytes
    exec (.reportFetch n) s =
      .next ({ s with reports := { s.reports with records := s.reports.records.drop k } }.replied (.reportFetch n) .ok (body k)) ∧
    k ≤ most ∧ (body k).length + 2 ≤ 248 ∧
    (k < most → k < s.reports.records.length → 248 < (body (k + 1)).length + 2) ∧
    (∀ x ∈ s.reports.records.head?, x.bytes.length ≤ 244 → 1 ≤ k)

/-- REPORT_MASK (R186): a flag that is neither masked nor not is refused and the mask stays; otherwise the whole mask is replaced and
returned, and no record changes. -/
def Obligations.ReportMaskReplacesWhole : Prop :=
  ∀ (flags : Vector Byte 21) (s : State),
    ((∃ i : Fin 21, 1 < flags[i].toNat) →
      exec (.reportMask flags) s = .next (s.replied (.reportMask flags) .badArgument [])) ∧
    ((∀ i : Fin 21, flags[i].toNat ≤ 1) → ∃ m : Vector Bool 21, (∀ i : Fin 21, m[i] = true ↔ flags[i] = 1) ∧
      exec (.reportMask flags) s =
        .next ({ s with reports := { s.reports with mask := m } }.replied (.reportMask flags) .ok flags.toList))

/-! ### Beacons and the receive record -/

/-- The bytes of a beacon (R191) are classed as that beacon (R2), NORMAL as sent and INVERTED with every bit complemented (R13); with its
check complemented (R32) it is bad under either polarity (R3); it takes 15 to 18 bytes. -/
def Obligations.BeaconSurvivesTheLane : Prop :=
  ∀ b : Beacon, b.chassis ≠ 0 →
    classify (b.bytes false) = .good b .normal ∧ classify ((b.bytes false).map fun x => ~~~x) = .good b .inverted ∧
    classify (b.bytes true) = .bad ∧ classify ((b.bytes true).map fun x => ~~~x) = .bad ∧
    (b.bytes false).length = 15 + (if b.fault.isSome then 1 else 0) + (if b.tap.isSome then 2 else 0)

/-- A good beacon on a listening lane (R7, with R10, R11, R15 and R16 where it points to them): silence timer at 20 ms, bad run 0, far end
written; then by receive state. A lane that stays STABLE hands ONE_WAY or TWO_WAY exactly where REMOTE_FAULT is another than before (R58),
and its stability run starts again at 1 after a bad beacon (R8). A clean far end is LOCKED with its second beacon and STABLE with its
fourth. The loop request runs move in every receive state. -/
def Obligations.GoodBeaconMovesReceiver : Prop :=
  (∀ (r : Receiver) (b : Beacon) (pol : Polarity), r.state ≠ .off → (r.state = .stable → r.lastStable ≠ none) →
    let i : Identity := { chassis := b.chassis, portNum := b.portNum, lane := b.lane, count := b.count, polarity := pol }
    let q := (r.good b pol).1
    let es := (r.good b pol).2
    let run := if r.candidate = some i then r.stabRun + 1 else 1
    let way : LaneEvent := if b.flags.remoteFault then .oneWay else .twoWay
    q.silence = some 20 ∧ q.badRun = 0 ∧ q.far = some { stage := b.stage, flags := b.flags, fault := b.fault } ∧
    q.suspended = r.suspended ∧
    (r.state = .silent → q.goodRun = r.goodRun + 1 ∧ q.candidate = some i ∧ q.stabRun = run ∧ q.lastStable = r.lastStable ∧
      (1 ≤ r.goodRun → q.state = .locked ∧ q.lockedFromSilent = true ∧ es = [.locked]) ∧
      (r.goodRun = 0 → q.state = .silent ∧ es = [])) ∧
    (r.state = .locked → q.candidate = some i ∧ q.stabRun = run ∧
      (run < 4 → q.state = .locked ∧ q.lastStable = r.lastStable ∧ es = []) ∧
      (4 ≤ run → q.state = .stable ∧ q.lastStable = some i ∧
        (∀ old, r.lockedFromSilent = true → r.lastStable = some old → old ≠ i → es = [.identityChanged old i, way]) ∧
        (r.lockedFromSilent = false ∨ r.lastStable = none ∨ r.lastStable = some i → es = [.stable, way]))) ∧
    (r.state = .stable → ∀ old, r.lastStable = some old →
      (old = i → q.state = .stable ∧ q.lastStable = some i ∧ q.candidate = r.candidate ∧
        q.stabRun = (if r.stabRun = 0 then 1 else r.stabRun) ∧
        (((∃ g, r.far = some g ∧ g.flags.remoteFault = true) ↔ b.flags.remoteFault = true) → es = []) ∧
        (¬((∃ g, r.far = some g ∧ g.flags.remoteFault = true) ↔ b.flags.remoteFault = true) → es = [way])) ∧
      (old ≠ i → q.state = .locked ∧ q.candidate = some i ∧ q.stabRun = 1 ∧ q.lastStable = some old ∧ q.lockedFromSilent = false ∧
        es = [.identityChanged old i]))) ∧
  (∀ (b : Beacon) (pol : Polarity) (r : Receiver), r.state = .silent → r.goodRun = 0 → r.stabRun = 0 →
    let r1 := (r.good b pol).1
    let r2 := (r1.good b pol).1
    let r3 := (r2.good b pol).1
    r1.state = .silent ∧ r2.state = .locked ∧ r3.state = .locked ∧ (r3.good b pol).1.state = .stable) ∧
  ∀ (r : Receiver) (b : Beacon) (pol : Polarity), r.state ≠ .off →
    let q := (r.good b pol).1
    (b.flags.loopReq = true → q.loopRun = r.loopRun + 1 ∧ q.noLoopRun = 0 ∧
      (q.loopSeen = true ↔ r.loopSeen = true ∨ 16 ≤ r.loopRun + 1)) ∧
    (b.flags.loopReq = false → q.noLoopRun = r.noLoopRun + 1 ∧ q.loopRun = 0 ∧
      (q.loopSeen = true ↔ r.loopSeen = true ∧ r.noLoopRun + 1 < 16))

/-- A bad beacon (R8) and the expiry of the silence timer (R9) on a listening lane; both loop request runs start again at an entry into
SILENT, on a NOT_SEEN lane too (the model's reading, log entry 21). An expiry on a lane that is OFF or suspended does nothing, since no
timer runs there (the model's choice, log entry 3). -/
def Obligations.BadBeaconsAndSilenceLoseLock : Prop :=
  (∀ r : Receiver, r.state ≠ .off →
    let q := r.bad.1
    q.goodRun = 0 ∧ q.stabRun = 0 ∧ q.candidate = r.candidate ∧ q.badRun = r.badRun + 1 ∧ q.silence = r.silence ∧
    q.lastStable = r.lastStable ∧ (∀ i, q.nextRun i = 1) ∧
    (r.state = .silent → q = { r with goodRun := 0, stabRun := 0, badRun := r.badRun + 1 } ∧ r.bad.2 = []) ∧
    (r.state = .locked ∨ r.state = .stable →
      (r.badRun + 1 < 3 → q.state = r.state ∧ q.far = r.far ∧ q.loopSeen = r.loopSeen ∧ r.bad.2 = []) ∧
      (3 ≤ r.badRun + 1 → q.state = .silent ∧ q.far = none ∧ q.loopSeen = false ∧ q.loopRun = 0 ∧ q.noLoopRun = 0 ∧
        r.bad.2 = [.silent]))) ∧
  (∀ r : Receiver, r.state ≠ .off →
    let q := r.expire.1
    q.state = .silent ∧ q.goodRun = 0 ∧ q.stabRun = 0 ∧ q.candidate = r.candidate ∧ q.lastStable = r.lastStable ∧
    (r.state = .silent → q.badRun = r.badRun ∧ q.far = r.far ∧ q.loopSeen = r.loopSeen ∧ r.expire.2 = []) ∧
    (r.state = .locked ∨ r.state = .stable →
      q.badRun = 0 ∧ q.far = none ∧ q.loopSeen = false ∧ q.loopRun = 0 ∧ q.noLoopRun = 0 ∧ r.expire.2 = [.silent])) ∧
  ∀ (s : State) (p : PortIx) (l : LanePos), (s.lane p l).rx.state = .off ∨ (s.lane p l).rx.suspended = true →
    exec (.silenceTimerExpiry p l) s = .next s.settled

/-! ### The lane map -/

/-- The derivation of the lane map (R64 to R71) asks its questions in order and stops at the first that fails. -/
def Obligations.DerivationAsksInOrder : Prop :=
  ∀ (n : Snapshot) (us : List Usable),
    let d := derive n us
    let L := if n.entry.count = .four then 4 else 8
    ((∃ u ∈ us, ∃ v ∈ us, u.2.chassis ≠ v.2.chassis ∨ u.2.portNum ≠ v.2.portNum) →
      d.neighbour = none ∧ d.verdict = none ∧ d.outcome = .error .splitCable) ∧
    ∀ (nb : Neighbour), us ≠ [] → (∀ u ∈ us, u.2.chassis = nb.chassis ∧ u.2.portNum = nb.portNum) →
      let agrees := (n.entry.chassis = none ∨ n.entry.chassis = some nb.chassis) ∧
        (n.entry.portNum = none ∨ n.entry.portNum = some nb.portNum)
      let straight := ∀ u ∈ us, u.2.lane.val = u.1.val
      let mirrored := ∀ u ∈ us, u.2.lane.val + u.1.val + 1 = L
      let full := us.length = L
      let low := ∀ k, k < L / 2 → ∃ u ∈ us, u.2.lane.val = k
      d.neighbour = some nb ∧
      (n.source = .background → d.verdict = some .unplanned) ∧
      (n.source ≠ .background → agrees → d.verdict = some .matching) ∧
      (n.source ≠ .background → ¬ agrees → d.verdict = some .mismatch) ∧
      (n.source ≠ .background → ¬ agrees → n.entry.ask = false → d.outcome = .error .miswired) ∧
      (n.source = .background ∨ agrees ∨ n.entry.ask = true →
        ((∃ u ∈ us, u.2.count ≠ n.entry.count) → d.outcome = .error .widthMismatch) ∧
        ((∀ u ∈ us, u.2.count = n.entry.count) →
          ((∃ u ∈ us, L ≤ u.2.lane.val) ∨ ¬ (us.map fun u => u.2.lane).Nodup → d.outcome = .error .dupLane) ∧
          ((∀ u ∈ us, u.2.lane.val < L) → (us.map fun u => u.2.lane).Nodup →
            (¬ full → (n.entry.width = .fullOnly ∨ ¬ low) → d.outcome = .error .incomplete) ∧
            (full ∨ n.entry.width = .halfOk ∧ low →
              (n.entry.map = .straightOnly ∧ ¬ straight ∨ n.entry.map = .reversalOk ∧ ¬ straight ∧ ¬ mirrored →
                d.outcome = .error .mapDisallowed) ∧
              (n.entry.map = .anyOrder ∨ straight ∨ n.entry.map = .reversalOk ∧ mirrored →
                (n.entry.polarity = .refuse → (∃ u ∈ us, u.2.polarity = .inverted) → d.outcome = .error .polarity) ∧
                (n.entry.polarity = .correct ∨ (∀ u ∈ us, u.2.polarity = .normal) → ∃ m c w, d.outcome = .ok (m, c, w) ∧
                  (w = .full ↔ full) ∧ (c = .straight ↔ straight) ∧ (c = .reversed ↔ ¬ straight ∧ mirrored)))))))

/-- R73: where the derivation succeeds over lanes at distinct positions, every usable position holds its remote index and polarity, every
other entry is empty, and the logical lanes of the mapped positions are distinct and are exactly 0..w − 1. -/
def Obligations.LogicalLanesAreExactlyTheWidth : Prop :=
  ∀ (e : PlanEntry) (us : List Usable) (m : Vector MapEntry 8) (c : MapClass) (w : Width), (us.map Prod.fst).Nodup →
    mapChecks e us = .ok (m, c, w) →
    let L := if e.count = .four then 4 else 8
    let width := if w = .full then L else L / 2
    (∀ u ∈ us, m[u.1] = { remote := some u.2.lane, polarity := u.2.polarity,
                          logical := if u.2.lane.val < width then some u.2.lane else none }) ∧
    (∀ l : LanePos, (∀ u ∈ us, u.1 ≠ l) → m[l] = { remote := none, polarity := .normal, logical := none }) ∧
    (∀ k : LanePos, (∃ l : LanePos, m[l].logical = some k) ↔ k.val < width) ∧
    ∀ (a b k : LanePos), m[a].logical = some k → m[b].logical = some k → a = b

/-! ### Sweeps -/

/-- The walk of one lane (R123 to R126). From the grant, each beacon sent when one is waited for and each figure arriving when one is
asked for take the lane through 128 far settings of 16 gains and one beacon more; it then holds the highest figure's point, the first in
the tie order among equals, and the result of R126. -/
def Obligations.SweepWalkFindsBestPoint : Prop :=
  ∀ (fig : Point → Byte) (m : LanePos × LanePos),
    let y := SweepLane.drive fig (128 * 17 + 1) (SweepLane.start m)
    (SweepLane.drive fig (128 * 17) (SweepLane.start m)).phase = .closing ∧
    y.phase = .finished ∧ y.measured = 2048 ∧ y.pos = m.1 ∧ y.logical = m.2 ∧
    ∃ b : Best, y.best = some b ∧ b.figure = fig b.point ∧ y.point = b.point ∧
      (∀ q : Point, fig q < b.figure ∨ fig q = b.figure ∧ (q = b.point ∨
        b.point.gain < q.gain ∨ b.point.gain = q.gain ∧
          (b.point.pre < q.pre ∨ b.point.pre = q.pre ∧ b.point.post < q.post))) ∧
      y.result = some (if b.figure < 32 then .notConverged
        else if b.point.gain = 15 ∨ b.point.pre = 7 ∨ b.point.post = 15 then .edge else .converged)

/-- The wait queue and a grant (R119, R121, R122): a RETRAIN port joins behind the last RETRAIN entry and ahead of the first INITIAL one,
an INITIAL port at the end; a grant takes the head out, makes the lowest free channel busy with a new record and its watchdog at 500 ms,
and takes the port into TUNE; without a free channel, below the limit or an entry, nothing happens. -/
def Obligations.QueueJoinsAndGrants : Prop :=
  (∀ (rs is : List QueueEntry) (p : PortIx), (∀ e ∈ rs, e.cycle = .retrain) → (∀ e ∈ is, e.cycle = .initial) →
    queueJoin (rs ++ is) { port := p, cycle := .retrain } = rs ++ { port := p, cycle := .retrain } :: is ∧
    queueJoin (rs ++ is) { port := p, cycle := .initial } = rs ++ is ++ [{ port := p, cycle := .initial }]) ∧
  (∀ s : State, s.esu.queue = [] ∨ (∀ c : ChanIx, s.esu.channels[c] ≠ none) ∨
      s.settings.sweepLimit ≤ (s.esu.channels.toList.filter Option.isSome).length → s.grantTest = s) ∧
  ∀ (s : State) (e : QueueEntry) (q : List QueueEntry) (c : ChanIx), s.slots → s.esu.queue = e :: q →
    (s.esu.channels.toList.filter Option.isSome).length < s.settings.sweepLimit → s.esu.channels[c] = none →
    (∀ d : ChanIx, d < c → s.esu.channels[d] ≠ none) →
    let t := s.grant
    t.esu.queue = q ∧ (t.port e.port).state = .tune ∧ (t.port e.port).channel = some c ∧
    (∃ w : Sweep, t.esu.channels[c] = some w ∧ w.port = e.port ∧ w.channel = c ∧ w.start = s.time.clock ∧ w.watchdog = 500 ∧
      w.lanes.map (fun y => (y.pos, y.logical)) = (s.port e.port).byLogical ∧ ∀ y ∈ w.lanes, y = SweepLane.start (y.pos, y.logical)) ∧
    (∀ d : ChanIx, d ≠ c → t.esu.channels[d] = s.esu.channels[d]) ∧ OnlyPort e.port s t ∧
    (t.port e.port).attempts = (s.port e.port).attempts ∧ (t.port e.port).cycle = (s.port e.port).cycle ∧
    (t.port e.port).map = (s.port e.port).map ∧ (t.port e.port).width = (s.port e.port).width

/-! ### Qualification arithmetic -/

/-- R138 and R139: the Q2 grade of a lane's window is the largest h with E'² × 2^h at most the square of its bits, 0 where there is none,
never above 71; the bound flag says that no error was counted. -/
def Obligations.GradeIsLargestPower : Prop :=
  (∀ blocks errors : Nat, 1 ≤ blocks → blocks ≤ 65535 → errors < 2 ^ 32 →
    let g := q2Grade blocks errors
    let e := if errors = 0 then 1 else errors
    g ≤ 71 ∧ (∀ h, e ^ 2 * 2 ^ h ≤ (blocks * 2 ^ 20) ^ 2 → h ≤ g) ∧
    (e ≤ blocks * 2 ^ 20 → e ^ 2 * 2 ^ g ≤ (blocks * 2 ^ 20) ^ 2) ∧ (blocks * 2 ^ 20 < e → g = 0)) ∧
  q2Grade 1 0 = 40 ∧
  (∀ m : LanePos × LanePos, (QualEntry.start m).grade = none ∧ (QualEntry.start m).bound = false) ∧
  ∀ (q : QualEntry) (errors : Nat),
    let d := q.addBlock errors
    d.blocks = q.blocks + 1 ∧ d.errors = min (2 ^ 32 - 1) (q.errors + errors) ∧ d.grade = some (q2Grade d.blocks d.errors) ∧
    (d.bound = true ↔ d.errors = 0) ∧ d.verdict = q.verdict

/-- R140: the early-fail ceiling is the largest E with E² × 2^T at most the square of the window's bits; over a full window, E_max errors
or fewer are exactly the grades of T or more; with the rule's table. -/
def Obligations.CeilingIsThePassMark : Prop :=
  (∀ grade window : Nat, 1 ≤ grade → grade ≤ 71 → 1 ≤ window → window ≤ 65535 → 2 ^ grade ≤ (window * 2 ^ 20) ^ 2 →
    let e := earlyCeiling grade window
    1 ≤ e ∧ e ^ 2 * 2 ^ grade ≤ (window * 2 ^ 20) ^ 2 ∧ (∀ f, f ^ 2 * 2 ^ grade ≤ (window * 2 ^ 20) ^ 2 → f ≤ e) ∧
    ∀ errors, errors < 2 ^ 32 → (errors ≤ e ↔ grade ≤ q2Grade window errors)) ∧
  ∀ q t e : Nat, (q, t, e) ∈ [(4096, 48, 256), (4096, 40, 4096), (4096, 64, 1), (1000, 56, 3), (1000, 59, 1), (100, 48, 6), (16, 48, 1),
    (65535, 71, 1)] → earlyCeiling t q = e

/-! ### Port requests -/

/-- PORT_START (R79, R80): the refusals in order; into MANUAL at once; from IDLE, FAULTED and DARK, and from VERIFIED in VERIFY mode, into
DISCOVER with a new snapshot and the discovery timer, the lanes that listened keeping their receive records; from VERIFIED into PEER_WAIT,
or in STEP mode into PAUSED before it, keeping what discovery found: there it stays while the far end is behind, and goes on into
AWAIT_SLOT at once where the far end is there already (R89). No other port changes. -/
def Obligations.PortStartEntersByMode : Prop :=
  ∀ (port mode : Byte) (s : State),
    let i := Instr.portStart port mode
    (24 ≤ port.toNat ∨ 4 ≤ mode.toNat → exec i s = .next (s.replied i .badArgument [])) ∧
    ∀ (p : PortIx) (m : Mode), port.toNat = p.val → mode = m.code →
      let x := s.port p
      (x.state ∉ [PortState.idle, .faulted, .dark, .verified] → exec i s = .next (s.replied i .wrongState [])) ∧
      (x.state ∈ [PortState.idle, .faulted, .dark, .verified] → s.identity = none → exec i s = .next (s.replied i .noIdentity [])) ∧
      (x.state ∈ [PortState.idle, .faulted, .dark, .verified] → s.identity ≠ none →
        (m = .manual → ∃ t, exec i s = .next t ∧ OnlyPort p (s.accept i []) t ∧
          (t.port p).state = .manual ∧ (t.port p).mode = .manual ∧ (t.port p).attempts = 0 ∧ (t.port p).unstable = 0 ∧
          (t.port p).cycle = .initial ∧ (t.port p).snapshot = x.snapshot ∧ (t.port p).map = x.map ∧ (t.port p).neighbour = x.neighbour ∧
          (t.port p).fault = none ∧ (t.port p).stageTimer = none ∧ (t.port p).counters = x.counters ∧
          (∀ l, (t.lane p l).rx.state ≠ .off ∧ (t.lane p l).control = (s.lane p l).control ∧ (t.lane p l).eq = (s.lane p l).eq) ∧
          ((∀ l, (s.lane p l).autoLoop = false) →
            t.reports = s.reports.enterAll s.time.clock (portReports p [.portState x.state .manual none none .initial 0]))) ∧
        (m ≠ .manual → x.state = .idle → (∀ l, (s.lane p l).rx.state = .off) → ∃ t, exec i s = .next t ∧ OnlyPort p (s.accept i []) t ∧
          (t.port p).state = .discover ∧ (t.port p).mode = m ∧ (t.port p).attempts = 0 ∧ (t.port p).unstable = 0 ∧
          (t.port p).cycle = .initial ∧ (t.port p).snapshot = some (s.plan.resolve p) ∧
          (t.port p).stageTimer = some { remaining := s.settings.discovery * 1000, halted := false } ∧
          (t.port p).neighbour = none ∧ (t.port p).verdict = none ∧ (t.port p).accepted = false ∧ (t.port p).mapClass = none ∧
          (t.port p).width = none ∧ (t.port p).qualify = none ∧ (t.port p).counters = x.counters ∧
          (∀ l : LanePos, (t.port p).map[l] = { remote := none, polarity := .normal, logical := none }) ∧
          (∀ l : LanePos, if (s.plan.resolve p).entry.kind ≠ .unused ∧ (s.plan.resolve p).entry.count = .four ∧ 4 ≤ l.val
            then (t.lane p l).rx.state = .off else (t.lane p l).rx.state = .silent)) ∧
        (m ≠ .manual → x.state = .faulted ∨ x.state = .dark ∨ x.state = .verified ∧ m = .verify →
          (∃ l : LanePos, l.val < 4 ∧ (s.lane p l).rx.state ≠ .stable) →
          (s.plan.resolve p).entry.kind ≠ .unused ∨ (∀ l, (s.lane p l).rx.state ≠ .locked ∧ (s.lane p l).rx.state ≠ .stable) →
          (∀ l, (s.lane p l).autoLoop = false ∧ (s.lane p l).rx.loopSeen = false) → ∃ t, exec i s = .next t ∧
          OnlyPort p (s.accept i []) t ∧ t.esu = s.esu ∧
          Port.rediscovered { x with mode := m, unstable := 0 } (t.port p) (s.plan.resolve p) s.settings ∧
          (∀ l : LanePos, l.val < 4 → (s.lane p l).owner = .part → (s.lane p l).rx.state ≠ .off → (t.lane p l).rx = (s.lane p l).rx) ∧
          t.reports = s.reports.enterAll s.time.clock (portReports p [.portState x.state .discover none none .initial 0])) ∧
        (m = .step → x.state = .verified → ∃ t, exec i s = .next t ∧ OnlyPort p (s.accept i []) t ∧
          (t.port p).state = .paused ∧ (t.port p).pending = some .peerWait ∧ (t.port p).mode = .step ∧ (t.port p).attempts = 0 ∧
          (t.port p).unstable = 0 ∧ (t.port p).snapshot = x.snapshot ∧ (t.port p).neighbour = x.neighbour ∧
          (t.port p).verdict = x.verdict ∧ (t.port p).accepted = x.accepted ∧ (t.port p).map = x.map ∧
          (t.port p).mapClass = x.mapClass ∧ (t.port p).width = x.width) ∧
        (m = .auto → x.state = .verified → x.peerBehind → ∃ t, exec i s = .next t ∧ OnlyPort p (s.accept i []) t ∧
          (t.port p).state = .peerWait ∧ (t.port p).mode = .auto ∧ (t.port p).attempts = 0 ∧ (t.port p).unstable = 0 ∧
          (t.port p).stageTimer = some { remaining := s.settings.farEndWait * 1000, halted := false } ∧
          (t.port p).snapshot = x.snapshot ∧ (t.port p).neighbour = x.neighbour ∧ (t.port p).verdict = x.verdict ∧
          (t.port p).accepted = x.accepted ∧ (t.port p).map = x.map ∧ (t.port p).mapClass = x.mapClass ∧
          (t.port p).width = x.width) ∧
        (m = .auto → x.state = .verified → x.farThere [.wait, .qual, .ready] → s.noGrant → ∃ t, exec i s = .next t ∧
          OnlyPort p (s.accept i []) t ∧
          Port.keepsCourse { x with mode := .auto, unstable := 0 } (t.port p) ∧ (t.port p).state = .awaitSlot ∧
          (t.port p).attempts = 0 ∧ (t.port p).cycle = .initial ∧ (t.port p).stageTimer = none ∧
          t.esu = { s.esu with queue := queueJoin s.esu.queue { port := p, cycle := .initial } } ∧
          (t.port p).counters = x.counters.set ctrAttempts (x.counters[ctrAttempts].bump 65535 1) ∧
          ((∀ l, (s.lane p l).autoLoop = false) → x.counters[ctrAttempts].saturates 65535 1 = false →
            t.reports = s.reports.enterAll s.time.clock (portReports p [.portState .verified .peerWait none none .initial 0,
              .portState .peerWait .awaitSlot none none .initial 0]))))

/-- PORT_STEP (R82): refused outside PAUSED and VERIFIED; a paused port enters its pending stage as without the pause, a verified one goes
to PEER_WAIT in AUTO mode. The port stays in PEER_WAIT, or in QUALIFY before its window, while the far end is behind; where the far end is
there already it goes on from PEER_WAIT at once, in STEP mode into PAUSED before AWAIT_SLOT (R89, R83), or its window begins (R135).
AWAIT_SLOT is shown while no grant is possible. No other port changes. The ascending order of the handover record's entries is the model's
choice (log entry 35). -/
def Obligations.PortStepEntersPendingStage : Prop :=
  ∀ (port : Byte) (s : State),
    let i := Instr.portStep port
    (24 ≤ port.toNat → exec i s = .next (s.replied i .badArgument [])) ∧
    ∀ p : PortIx, port.toNat = p.val →
      let x := s.port p
      let wait : Option StageTimer := some { remaining := s.settings.farEndWait * 1000, halted := false }
      let stays : State → Prop := fun t => OnlyPort p (s.accept i []) t ∧
        (t.port p).snapshot = x.snapshot ∧ (t.port p).neighbour = x.neighbour ∧ (t.port p).verdict = x.verdict ∧
        (t.port p).accepted = x.accepted ∧ (t.port p).map = x.map ∧ (t.port p).width = x.width ∧ (t.port p).cycle = x.cycle ∧
        (t.port p).attempts = x.attempts ∧ (t.port p).unstable = x.unstable
      let kept : State → Prop := fun t => stays t ∧ (t.port p).pending = none
      let joined : State → Prop := fun t => kept t ∧ (t.port p).state = .awaitSlot ∧ (t.port p).stageTimer = none ∧
        t.esu = { s.esu with queue := queueJoin s.esu.queue { port := p, cycle := x.cycle } } ∧
        (t.port p).counters =
          (if x.cycle = .initial then x.counters.set ctrAttempts (x.counters[ctrAttempts].bump 65535 1) else x.counters)
      (x.state ≠ .paused → x.state ≠ .verified → exec i s = .next (s.replied i .wrongState [])) ∧
      (x.state = .paused → x.pending = some .peerWait →
        (x.peerBehind → ∃ t, exec i s = .next t ∧ kept t ∧ (t.port p).state = .peerWait ∧ (t.port p).stageTimer = wait ∧
          (t.port p).mode = x.mode) ∧
        (x.farThere [.wait, .qual, .ready] → x.mode = .step → ∃ t, exec i s = .next t ∧ stays t ∧ (t.port p).state = .paused ∧
          (t.port p).pending = some .awaitSlot ∧ (t.port p).stageTimer = none ∧ (t.port p).mode = .step ∧ t.esu = s.esu ∧
          (t.port p).counters = x.counters ∧ ((∀ l, (s.lane p l).autoLoop = false) → t.reports = s.reports.enterAll s.time.clock
            (portReports p [.portState .paused .peerWait none none x.cycle x.attempts, .stagePause .awaitSlot,
              .portState .peerWait .paused (some .awaitSlot) none x.cycle x.attempts]))) ∧
        (x.farThere [.wait, .qual, .ready] → x.mode ≠ .step → s.noGrant → ∃ t, exec i s = .next t ∧ joined t ∧
          (t.port p).mode = x.mode)) ∧
      (x.state = .paused → x.pending = some .qualify →
        (x.farBehind [.disc, .wait] → ∃ t, exec i s = .next t ∧ kept t ∧ (t.port p).state = .qualify ∧
          (t.port p).stageTimer = wait ∧ (t.port p).mode = x.mode ∧
          (t.port p).qualify = some { begun := false, entries := x.byLogical.map QualEntry.start }) ∧
        (x.farThere [.qual, .ready] → ∃ t, exec i s = .next t ∧ kept t ∧ (t.port p).state = .qualify ∧
          (t.port p).stageTimer = none ∧ (t.port p).mode = x.mode ∧
          (t.port p).qualify = some { begun := true, entries := x.byLogical.map QualEntry.start } ∧
          ∀ l : LanePos, x.map[l].logical ≠ none → (t.lane p l).checker = .waiting)) ∧
      (x.state = .verified →
        (x.peerBehind → ∃ t, exec i s = .next t ∧ kept t ∧ (t.port p).state = .peerWait ∧ (t.port p).stageTimer = wait ∧
          (t.port p).mode = .auto) ∧
        (x.farThere [.wait, .qual, .ready] → s.noGrant → ∃ t, exec i s = .next t ∧ joined t ∧ (t.port p).mode = .auto)) ∧
      (x.state = .paused → x.pending = some .handover → ∃ t, exec i s = .next t ∧ kept t ∧ (t.port p).state = .handover ∧
        (t.port p).stageTimer = wait ∧ (t.port p).mode = x.mode ∧
        (t.port p).handover =
          some { closing := false, entries := x.mappedLanes.map fun l => { pos := l, readyRun := 0, sent := 0 } }) ∧
      (x.state = .paused → x.pending = some .awaitSlot →
        s.noGrant → ∃ t, exec i s = .next t ∧ joined t ∧ (t.port p).mode = x.mode)

/-- PORT_STOP (R81, R75, R94): taken in every state; a port in IDLE is unchanged; any other is IDLE with its lanes OFF and the part's, the
results of discovery cleared, snapshot, mode, cycle class, unstable count, counters and control records kept. Where it leaves TUNE a
waiting port may be granted (R131, R121); else no other port changes, and a port in AWAIT_SLOT leaves the queue. A near-end loopback that
ends so leaves pattern lock SEARCHING (R23, R27). -/
def Obligations.PortStopClearsAndReleases : Prop :=
  ∀ (port : Byte) (s : State),
    let i := Instr.portStop port
    (24 ≤ port.toNat → exec i s = .next (s.replied i .badArgument [])) ∧
    ∀ p : PortIx, port.toNat = p.val →
      let x := s.port p
      (x.state = .idle → exec i s = .next (s.replied i .ok [])) ∧
      (x.state ≠ .idle → x.state ≠ .tune ∨ s.slots → ∃ t, exec i s = .next t ∧
        (t.port p).state = .idle ∧ (t.port p).pending = none ∧ (t.port p).fault = none ∧ (t.port p).channel = none ∧
        (t.port p).handover = none ∧ (t.port p).neighbour = none ∧ (t.port p).verdict = none ∧ (t.port p).accepted = false ∧
        (∀ l : LanePos, (t.port p).map[l] = { remote := none, polarity := .normal, logical := none }) ∧
        (t.port p).mapClass = none ∧ (t.port p).width = none ∧ (t.port p).qualify = none ∧ (t.port p).attempts = 0 ∧
        (t.port p).stageTimer = none ∧ (t.port p).cleanRun = none ∧ (t.port p).snapshot = x.snapshot ∧ (t.port p).mode = x.mode ∧
        (t.port p).cycle = x.cycle ∧ (t.port p).unstable = x.unstable ∧ (t.port p).counters = x.counters ∧
        (∀ l, (t.lane p l).rx.state = .off ∧ (t.lane p l).owner = .part ∧ (t.lane p l).autoLoop = false ∧
          ((s.lane p l).owner = .switch → (t.lane p l).monitor.hunt = none) ∧
          (x.nearEnd l = true → (t.lane p l).patternLock = .searching) ∧ (t.lane p l).control = (s.lane p l).control ∧
          (t.lane p l).eq = (s.lane p l).eq ∧ (t.lane p l).counters = (s.lane p l).counters) ∧
        (∀ c, x.state = .tune → x.channel = some c → Freed p c (s.accept i []) t) ∧
        (x.state ≠ .tune → OnlyPort p (s.accept i []) t ∧
          t.esu = { s.esu with queue := if x.state = .awaitSlot then s.esu.queue.filter fun e => decide (e.port ≠ p)
                                        else s.esu.queue } ∧
          ((∀ l, (s.lane p l).autoLoop = false) → t.reports =
            s.reports.enterAll s.time.clock (portReports p [.portState x.state .idle none none x.cycle 0]))))

/-- CONSULT_ANSWER (R109, R110, R111): the refusals in order; ACCEPT goes on by the port's mode with host-accepted yes, REJECT to
FAULTED(REJECTED) with its reports; discovery's results are kept and no other port changes. In AUTO mode the port waits in PEER_WAIT while
the far end is behind, and goes on into AWAIT_SLOT at once where it is there already (R89), shown while no grant is possible. -/
def Obligations.ConsultAnswerTakenOrRefused : Prop :=
  ∀ (port : Byte) (chassis : Word) (num answer : Byte) (s : State),
    let i := Instr.consultAnswer port chassis num answer
    (24 ≤ port.toNat ∨ chassis = 0 ∨ 2 ≤ answer.toNat → exec i s = .next (s.replied i .badArgument [])) ∧
    ∀ p : PortIx, port.toNat = p.val → chassis ≠ 0 → answer.toNat < 2 →
      let x := s.port p
      let kept : State → Prop := fun t => OnlyPort p (s.accept i []) t ∧ (t.port p).snapshot = x.snapshot ∧
        (t.port p).neighbour = x.neighbour ∧ (t.port p).verdict = x.verdict ∧ (t.port p).map = x.map ∧
        (t.port p).mapClass = x.mapClass ∧ (t.port p).width = x.width ∧ (t.port p).mode = x.mode
      (x.state ≠ .consult → exec i s = .next (s.replied i .tooLate [])) ∧
      (x.state = .consult → x.neighbour ≠ some { chassis := chassis, portNum := num } →
        exec i s = .next (s.replied i .notMatching [])) ∧
      (x.state = .consult → x.neighbour = some { chassis := chassis, portNum := num } →
        (answer = 0 → x.mode = .verify → ∃ t, exec i s = .next t ∧ kept t ∧ (t.port p).state = .verified ∧ (t.port p).accepted = true ∧
          (t.port p).stageTimer = none) ∧
        (answer = 0 → x.mode = .step → ∃ t, exec i s = .next t ∧ kept t ∧ (t.port p).state = .paused ∧
          (t.port p).pending = some .peerWait ∧ (t.port p).accepted = true ∧ (t.port p).stageTimer = none ∧
          ((∀ l, (s.lane p l).autoLoop = false) → t.reports = s.reports.enterAll s.time.clock
            (portReports p [.stagePause .peerWait, .portState .consult .paused (some .peerWait) none x.cycle x.attempts]))) ∧
        (answer = 0 → x.mode = .auto → x.peerBehind → ∃ t, exec i s = .next t ∧ kept t ∧
          (t.port p).state = .peerWait ∧ (t.port p).accepted = true ∧
          (t.port p).stageTimer = some { remaining := s.settings.farEndWait * 1000, halted := false }) ∧
        (answer = 0 → x.mode = .auto → x.farThere [.wait, .qual, .ready] → s.noGrant → ∃ t, exec i s = .next t ∧ kept t ∧
          (t.port p).state = .awaitSlot ∧ (t.port p).accepted = true ∧ (t.port p).stageTimer = none ∧
          t.esu = { s.esu with queue := queueJoin s.esu.queue { port := p, cycle := x.cycle } } ∧
          (t.port p).counters =
            (if x.cycle = .initial then x.counters.set ctrAttempts (x.counters[ctrAttempts].bump 65535 1) else x.counters) ∧
          ((∀ l, (s.lane p l).autoLoop = false) → x.counters[ctrAttempts].saturates 65535 1 = false →
            t.reports = s.reports.enterAll s.time.clock (portReports p [.portState .consult .peerWait none none x.cycle x.attempts,
              .portState .peerWait .awaitSlot none none x.cycle x.attempts]))) ∧
        (answer = 1 → ∃ t, exec i s = .next t ∧ kept t ∧ (t.port p).state = .faulted ∧ (t.port p).fault = some .rejected ∧
          (t.port p).accepted = x.accepted ∧ (t.port p).stageTimer = none ∧
          (t.port p).counters = x.counters.set ctrFaults (x.counters[ctrFaults].bump 65535 1) ∧
          ((∀ l, (s.lane p l).autoLoop = false ∧ (s.lane p l).rx.loopSeen = false) →
            x.counters[ctrFaults].saturates 65535 1 = false → t.reports = s.reports.enterAll s.time.clock
              (portReports p [.portFault .rejected .consult x.neighbour,
                .portState .consult .faulted none (some .rejected) x.cycle x.attempts]))))

/-- The block resets of ports (R105, R169): a port is IDLE as after power-on but for its lanes' control records and equalization settings,
and its counters are 0; ALL_PORTS does so for every port and leaves the ESU empty. Plan, settings and identity are kept. The ports hold
the fields of their states only, an invariant stated below. -/
def Obligations.PortBlockResetsClearPorts : Prop :=
  ∀ s : State,
    let cleared : PortIx → State → Prop := fun p t =>
      (t.port p).state = .idle ∧ (t.port p).mode = .auto ∧ (t.port p).snapshot = none ∧ (t.port p).pending = none ∧
      (t.port p).cycle = .initial ∧ (t.port p).attempts = 0 ∧ (t.port p).unstable = 0 ∧ (t.port p).channel = none ∧
      (t.port p).fault = none ∧ (t.port p).stageTimer = none ∧ (t.port p).cleanRun = none ∧ (t.port p).handover = none ∧
      (∀ n : Fin 3, (t.port p).counters[n] = { live := 0, snap := 0, mark := false }) ∧
      ∀ l, (t.lane p l).control = (s.lane p l).control ∧ (t.lane p l).eq = (s.lane p l).eq ∧
        (t.lane p l).monitor = { errors := 0, history := [], hunt := none } ∧
        ∀ n : Fin 7, (t.lane p l).counters[n] = { live := 0, snap := 0, mark := false }
    (∀ port : Byte, 24 ≤ port.toNat → exec (.portBlockReset port) s = .next (s.replied (.portBlockReset port) .badArgument [])) ∧
    (∀ (port : Byte) (p : PortIx), port.toNat = p.val → (s.port p).stageFields → (s.port p).state ≠ .tune ∨ s.slots →
      ∃ t, exec (.portBlockReset port) s = .next t ∧ cleared p t ∧
        ((s.port p).state ≠ .tune → OnlyPort p (s.accept (.portBlockReset port) []) t) ∧
        (∀ c, (s.port p).state = .tune → (s.port p).channel = some c → Freed p c (s.accept (.portBlockReset port) []) t) ∧
        ((s.port p).state ≠ .idle → (t.port p).neighbour = none ∧ (t.port p).mapClass = none ∧ (t.port p).width = none ∧
          (t.port p).qualify = none ∧
          ∀ l, (t.lane p l).rx.state = .off ∧ (t.lane p l).owner = .part)) ∧
    (s.slots → (∀ p, (s.port p).stageFields) → ∃ t, exec .allPortsBlockReset s = .next t ∧ (∀ p, cleared p t) ∧ t.esu.queue = [] ∧
      (∀ c : ChanIx, t.esu.channels[c] = none) ∧ t.plan = s.plan ∧ t.settings = s.settings ∧ t.identity = s.identity ∧
      t.time = s.time ∧ t.mpt = s.mpt.answer .allPortsBlockReset .ok [])

/-- ESU block reset (R132): the sweep limit is 4 and a grant test follows; every port that was in TUNE goes back, in STEP mode to PAUSED
with AWAIT_SLOT pending, else to the front of its class in the queue, in ascending port index, and the first four of the queue are granted
the channels in order; attempts, ATTEMPTS, cycle class, map and width are kept; no port outside TUNE and AWAIT_SLOT changes. -/
def Obligations.EsuBlockResetSendsPortsBack : Prop :=
  ∀ s : State, s.slots →
    let back : CycleClass → List QueueEntry := fun k =>
      (allPorts.filter fun p => decide ((s.port p).state = .tune ∧ (s.port p).mode ≠ .step ∧ (s.port p).cycle = k)).map fun p => ⟨p, k⟩
    let old : CycleClass → List QueueEntry := fun k => s.esu.queue.filter fun e => decide (e.cycle = k)
    let queue := back .retrain ++ old .retrain ++ back .initial ++ old .initial
    ∃ t, exec .esuBlockReset s = .next t ∧ t.settings = { s.settings with sweepLimit := 4 } ∧
    t.plan = s.plan ∧ t.identity = s.identity ∧ t.time = s.time ∧ t.mpt = s.mpt.answer .esuBlockReset .ok [] ∧
    (∀ p, (s.port p).state ≠ .tune → (s.port p).state ≠ .awaitSlot → t.port p = s.port p) ∧
    (∀ p, (t.port p).attempts = (s.port p).attempts ∧ (t.port p).counters = (s.port p).counters ∧
      (t.port p).cycle = (s.port p).cycle ∧ (t.port p).map = (s.port p).map ∧ (t.port p).width = (s.port p).width ∧
      ∀ l, (t.lane p l).eq = (s.lane p l).eq) ∧
    (∀ p, (s.port p).state = .tune → (s.port p).mode = .step →
      (t.port p).state = .paused ∧ (t.port p).pending = some .awaitSlot ∧ (t.port p).channel = none) ∧
    (∀ p, ((s.port p).state = .tune ∧ (s.port p).mode ≠ .step ∨ (s.port p).state = .awaitSlot) →
      (t.port p).state = .tune ∨ (t.port p).state = .awaitSlot) ∧
    t.esu.queue = queue.drop 4 ∧
    ∀ c : ChanIx, match queue[c.val]? with
      | some e => (t.port e.port).state = .tune ∧ (t.port e.port).channel = some c
      | none => t.esu.channels[c] = none

/-! ### Lane requests -/

/-- LANE_CONTROL (R25, with R18, R22, R26, R27, R29, R31): the refusals; else the record is stored whole and returned, and acts at once on
its lane. That a block in hand whose check correction it changes (R24) holds no one correction any more is the model's choice (log entry
28), and so is where that block stands (log entry 33). A write that leaves the exclusion as it was, or reaches a port outside DISCOVER,
DARK and CONSULT, moves no port; a found lane excluded in CONSULT withdraws the consult (R113), an exclusion cleared over a locked lane
faults a DARK port (R88). -/
def Obligations.LaneControlActsAtOnce : Prop :=
  ∀ (port lane : Byte) (r : RawControl) (s : State),
    let i := Instr.laneControl port lane r
    (24 ≤ port.toNat ∨ 8 ≤ lane.toNat ∨ 3 < r.source.toNat ∨ 1 < r.check.toNat ∨ 1 < r.near.toNat ∨ 1 < r.far.toNat ∨
        2 < r.invert.toNat ∨ 1 < r.excluded.toNat ∨ r.near = 1 ∧ r.far = 1 →
      exec i s = .next (s.replied i .badArgument [])) ∧
    ∀ (p : PortIx) (l : LanePos) (c : Control), port.toNat = p.val → lane.toNat = l.val → r.source = c.source.code →
      r.pattern = c.pattern → r.flags.getLsbD 0 = c.sendLoopReq → r.flags.getLsbD 1 = c.sendHold → r.check = boolByte c.checkPrbs →
      r.near = boolByte c.near → r.far = boolByte c.far → r.invert = c.invert.code → r.excluded = boolByte c.excluded →
      ¬(c.near = true ∧ c.far = true) →
      let x := s.port p
      let y := s.lane p l
      let quiet := ∀ k, (s.lane p k).autoLoop = false ∧ (s.lane p k).rx.loopSeen = false
      let leaves := x.state = .manual ∧ y.control.near = true ∧ y.control.excluded = false ∧ (c.near = false ∨ c.excluded = true)
      (x.state ∉ [PortState.discover, .dark, .consult] ∨
          c.excluded = y.control.excluded ∧ y.autoLoop = false ∧ y.rx.loopSeen = false →
        ∃ t, exec i s = .next t ∧ OnlyPort p (s.accept i c.bytes) t ∧ t.esu = s.esu ∧ { t.port p with lanes := x.lanes } = x ∧
        (∀ k, k ≠ l → { t.lane p k with gen := (s.lane p k).gen, block := (s.lane p k).block, checker := (s.lane p k).checker } =
          s.lane p k) ∧
        (t.lane p l).control = c ∧ (t.lane p l).injection = (if y.control.source = c.source then y.injection else none) ∧
        (leaves → (t.lane p l).patternLock = .searching ∧ (t.lane p l).rx.state = .silent ∧ (t.lane p l).rx.goodRun = 0 ∧
          (t.lane p l).rx.badRun = 0 ∧ (t.lane p l).rx.stabRun = 0 ∧ (t.lane p l).rx.far = none ∧
          (t.lane p l).rx.lastStable = y.rx.lastStable) ∧
        (¬leaves → (t.lane p l).patternLock = y.patternLock ∧ (t.lane p l).rx = y.rx) ∧
        (t.lane p l).tap = (if y.owner = .switch then y.tap.map fun h =>
          { h with correction := match c.invert with
                                 | .auto => x.map[l].polarity
                                 | .forceNormal => .normal
                                 | .forceInvert => .inverted }
          else y.tap) ∧
        ((t.lane p l).autoLoop = true ↔
          x.state = .faulted ∧ (∃ n, x.snapshot = some n ∧ n.entry.loop = true) ∧ c.excluded = false ∧ y.rx.loopSeen = true) ∧
        (t.lane p l).owner = y.owner ∧ (t.lane p l).eq = y.eq ∧ (t.lane p l).monitor = y.monitor ∧
        (t.lane p l).counters = y.counters ∧
        (x.state = .manual → y.owner = .part → y.gen = none → c.source = .prbs → c.far = false → c.excluded = false →
          (t.lane p l).gen = some 0) ∧
        (c.source ≠ .prbs → x.state = .manual → (t.lane p l).gen = none) ∧
        (x.state = .manual → (t.lane p l).checker = if c.checkPrbs = false then .off else if y.checker = .off then .waiting
          else (t.lane p l).checker) ∧
        (x.state = .manual → c.checkPrbs = true → ∀ (st : BlockStart) (b : Bool) (k : Option Polarity),
          y.checker = .block st b k → ∃ st' b', (t.lane p l).checker = .block st' b' (if k = some (match c.invert with
            | .auto => (y.rx.lastStable.map Identity.polarity).getD .normal
            | .forceNormal => .normal
            | .forceInvert => .inverted) then k else none)) ∧
        (y.autoLoop = false → x.state ≠ .faulted → t.reports = s.reports)) ∧
      (x.state = .consult → x.map[l].remote ≠ none → y.control.excluded = false → c.excluded = true → quiet → l.val < 4 →
        (s.plan.resolve p).entry.kind ≠ .unused → ∃ t, exec i s = .next t ∧ OnlyPort p (s.accept i c.bytes) t ∧
        (t.port p).state = .discover ∧ (t.port p).snapshot = some (s.plan.resolve p) ∧ (t.port p).neighbour = none ∧
        (t.port p).stageTimer = some { remaining := s.settings.discovery * 1000, halted := false } ∧
        (∀ k : LanePos, (t.port p).map[k] = { remote := none, polarity := .normal, logical := none }) ∧ (t.lane p l).control = c ∧
        t.reports = s.reports.enterAll s.time.clock
          (Report.mk (some p) (some l) (.consultWithdrawn .excluded x.neighbour) ::
            portReports p [.portState .consult .discover none none .initial 0])) ∧
      (x.state = .dark → y.control.excluded = true → c.excluded = false → y.rx.state = .locked ∨ y.rx.state = .stable →
        ∃ t, exec i s = .next t ∧ OnlyPort p (s.accept i c.bytes) t ∧ (t.port p).state = .faulted ∧
        (t.port p).fault = some .unexpectedCable ∧ (t.lane p l).control = c ∧
        (t.port p).counters = x.counters.set ctrFaults (x.counters[ctrFaults].bump 65535 1))

/-- LANE_INJECT (R31): judged in the order of the rule; a request that passes becomes the lane's pending injection, whatever was pending,
and is returned; nothing else changes. -/
def Obligations.LaneInjectJudgedInOrder : Prop :=
  ∀ (port lane kind count : Byte) (s : State),
    let i := Instr.laneInject port lane kind count
    (24 ≤ port.toNat ∨ 8 ≤ lane.toNat ∨ 2 ≤ kind.toNat ∨ count = 0 → exec i s = .next (s.replied i .badArgument [])) ∧
    ∀ (p : PortIx) (l : LanePos) (k : InjectKind), port.toNat = p.val → lane.toNat = l.val → kind = k.code → count ≠ 0 →
      let needed : TxSource := match k with | .prbsErrors => .prbs | .badCheck => .beacon
      ((s.port p).state ≠ .manual → exec i s = .next (s.replied i .wrongState [])) ∧
      ((s.port p).state = .manual → (s.lane p l).control.source ≠ needed → exec i s = .next (s.replied i .badArgument [])) ∧
      ((s.port p).state = .manual → (s.lane p l).control.source = needed →
        exec i s = .next ((s.modLane p l fun y => { y with injection := some { kind := k, remaining := count.toNat } }).replied i .ok
          [kind, count]))

/-! ### Lane events -/

/-- A beacon arriving (R2, R6, R19, R27, R28): a lane that does not listen, is suspended or hears itself takes nothing; in MANUAL the
beacon is counted and taken into the receive record, and does nothing else. A far-end loopback puts the bytes on the line, in the same
step by the model's choice (log entry 7); a waiting checker begins its first block (R22), a checker between two blocks begins the next,
with the check correction as it then is (log entries 14 and 33: which beacons, and where blocks begin), and a block that may have begun
loses its one correction where that changes (R24), which is the model's choice (log entry 28). Outside MANUAL: a tap request is honoured
in the states of R33 alone; automatic far-end loopback is entered and left, and the discovery timer halted and started again (R29, R30);
the last lane to become usable ends discovery at once (R59); a lane that falls silent, becomes one-way or hears another identity withdraws
a consult (R113, R114) or sends its port back to DISCOVER (R95, R96), from TUNE with its sweep aborted and the freed channel granted on
(R131). The order of the effects and reports of one beacon is the model's reading (log entries 10 and 11). -/
def Obligations.BeaconArrivalReachesReceiver : Prop :=
  ∀ (p : PortIx) (l : LanePos) (bytes : List Byte) (s : State),
    let x := s.port p
    let y := s.lane p l
    let sent := if x.content l = .looped then some bytes else y.sent
    (y.rx.state = .off ∨ y.rx.suspended = true ∨ x.nearEnd l = true →
      exec (.beaconArrival p l bytes) s = .next (s.modLane p l fun z => { z with sent := sent }).settled) ∧
    (classify bytes = .nothing →
      exec (.beaconArrival p l bytes) s = .next (s.modLane p l fun z => { z with sent := sent }).settled) ∧
    (y.rx.state ≠ .off → y.rx.suspended = false → x.nearEnd l = false →
      (∀ b pol, classify bytes = .good b pol → ∃ t, exec (.beaconArrival p l bytes) s = .next t ∧
        (∀ k, k ≠ l → (t.lane p k).eq = (s.lane p k).eq) ∧
        (t.lane p l).eq =
          (if x.state ∈ [PortState.peerWait, .awaitSlot, .tune, .paused] ∨
              x.state = .qualify ∧ (∀ q, x.qualify = some q → q.begun = false) then
            match b.tap with
            | some u => { y.eq with pre := u.pre, post := u.post }
            | none => y.eq
           else y.eq)) ∧
      ∀ (r : Receiver) (n : Fin 7) (es : List LaneEvent),
        classify bytes = .bad ∧ (r, es) = y.rx.bad ∧ n = ctrBeaconBad ∨
          (∃ b pol, classify bytes = .good b pol ∧ (r, es) = y.rx.good b pol ∧ n = ctrBeaconGood) →
        let changes := es.filterMap fun e => match e with
          | .identityChanged a b => some (Report.mk (some p) (some l) (.identityChanged a b))
          | _ => none
        let told : State → List Report → Prop := fun t rs => y.counters[n].saturates (laneCounterMax n) 1 = false →
          t.reports = s.reports.enterAll s.time.clock (changes ++ rs)
        (x.state = .manual → y.autoLoop = false → y.monitor.hunt = none →
          let c : Polarity := match y.control.invert with
            | .auto => (r.lastStable.map Identity.polarity).getD .normal
            | .forceNormal => .normal
            | .forceInvert => .inverted
          ∃ t, exec (.beaconArrival p l bytes) s = .next t ∧ OnlyPort p s t ∧ t.esu = s.esu ∧
            { t.port p with lanes := x.lanes } = x ∧ (∀ k, k ≠ l → t.lane p k = s.lane p k) ∧
            t.lane p l =
              { y with rx := r, sent := sent, counters := y.counters.set n (y.counters[n].bump (laneCounterMax n) 1)
                       checker := match y.checker with
                         | .off => .off
                         | .waiting => .block .line (decide (y.patternLock = .searching)) (some c)
                         | .block .between b _ => .block .line (b || decide (y.patternLock = .searching)) (some c)
                         | .block .line b k => .block .line b (if k = some c then k else none)
                         | .block .loop b k => .block .loop b (if k = some c then k else none)
                         | .block .astride b k => .block .astride b (if k = some c then k else none) } ∧
            told t []) ∧
        (x.state = .discover ∨ x.state = .faulted → ∀ m, x.snapshot = some m →
          x.state = .faulted ∨ m.entry.kind ≠ .unused → m.entry.loop = true → y.control.excluded = false → es = [] →
          (y.autoLoop = false → r.loopSeen = true → ∃ t, exec (.beaconArrival p l bytes) s = .next t ∧ OnlyPort p s t ∧
            t.esu = s.esu ∧ (t.lane p l).autoLoop = true ∧
            { t.port p with lanes := x.lanes } =
              { x with stageTimer := if x.state = .discover then x.stageTimer.map (fun u => { u with halted := true }) else x.stageTimer } ∧
            told t [Report.mk (some p) (some l) .loopEntered]) ∧
          (y.autoLoop = true → r.loopSeen = false → (∃ k : LanePos, k.val < x.L ∧ k ≠ l ∧ (s.lane p k).rx.state ≠ .stable) →
            ∃ t, exec (.beaconArrival p l bytes) s = .next t ∧ OnlyPort p s t ∧ t.esu = s.esu ∧ (t.lane p l).autoLoop = false ∧
            { t.port p with lanes := x.lanes } =
              { x with stageTimer := if x.state = .discover ∧ ∀ k, k ≠ l → (s.lane p k).autoLoop = false
                  then some { remaining := s.settings.discovery * 1000, halted := false } else x.stageTimer } ∧
            told t [Report.mk (some p) (some l) .loopLeft])) ∧
        (x.state = .discover → ∀ m, x.snapshot = some m → m.entry.kind ≠ .unused → (∀ k, (s.lane p k).autoLoop = false) →
          r.loopSeen = false → y.control.excluded = false → l.val < x.L →
          (∀ k : LanePos, k.val < x.L → k ≠ l → x.usable k = true) → r.state = .stable → r.oneWay = false →
          LaneEvent.stable ∈ es ∨ LaneEvent.twoWay ∈ es →
          let d := derive m (x.modLane l fun z => { z with rx := r }).usables
          (∀ f, d.outcome = .error f → ∃ t, exec (.beaconArrival p l bytes) s = .next t ∧ OnlyPort p s t ∧ t.esu = s.esu ∧
            (t.port p).state = .faulted ∧ (t.port p).fault = some f ∧ (t.port p).neighbour = d.neighbour ∧
            (t.port p).verdict = d.verdict ∧ (t.port p).stageTimer = none ∧
            (t.port p).counters = x.counters.set ctrFaults (x.counters[ctrFaults].bump 65535 1)) ∧
          ∀ v c w, d.outcome = .ok (v, c, w) → (x.mode = .auto → ∀ g, r.far = some g → v[l].logical ≠ none ∧ g.stage = .disc) →
            ∃ t, exec (.beaconArrival p l bytes) s = .next t ∧ OnlyPort p s t ∧ t.esu = s.esu ∧ (t.port p).neighbour = d.neighbour ∧
            (t.port p).verdict = d.verdict ∧ (t.port p).map = v ∧ (t.port p).mapClass = some c ∧ (t.port p).width = some w ∧
            (t.port p).snapshot = some m ∧ (t.port p).counters = x.counters ∧
            (if m.entry.kind = .ask ∨ d.verdict = some .mismatch then (t.port p).state = .consult ∧
                (t.port p).stageTimer = some { remaining := s.settings.consult * 1000, halted := false }
             else if x.mode = .verify then (t.port p).state = .verified ∧ (t.port p).stageTimer = none
             else if x.mode = .step then (t.port p).state = .paused ∧ (t.port p).pending = some .peerWait
             else x.mode = .auto → (t.port p).state = .peerWait ∧
                (t.port p).stageTimer = some { remaining := s.settings.farEndWait * 1000, halted := false })) ∧
        (∀ (e : LaneEvent) (d : Detail), es = [e] → (s.plan.resolve p).entry.kind ≠ .unused → l.val < 4 →
          (∀ k, (s.lane p k).autoLoop = false ∧ (s.lane p k).rx.loopSeen = false) → r.loopSeen = false →
          y.control.excluded = false → x.map[l].remote ≠ none →
          (x.state = .consult ∧ (e = .silent ∧ d = .consultWithdrawn .silent x.neighbour ∨
              e = .oneWay ∧ d = .consultWithdrawn .oneWay x.neighbour ∨
              (∃ a c, e = .identityChanged a c) ∧ d = .consultWithdrawn .identityChanged x.neighbour ∧ l.val < x.L) ∨
            (x.state = .verified ∨
                x.state ∈ [PortState.peerWait, .awaitSlot, .qualify, .handover, .paused] ∧ x.map[l].logical ≠ none) ∧
              (e = .silent ∧ d = .laneSilent ∨ ∃ a c, e = .identityChanged a c ∧ d = .neighbourChanged a c)) →
          ∃ t, exec (.beaconArrival p l bytes) s = .next t ∧ OnlyPort p s t ∧
            t.esu = { s.esu with
              queue := if x.state = .awaitSlot then s.esu.queue.filter (fun e => decide (e.port ≠ p)) else s.esu.queue } ∧
            x.rediscovered (t.port p) (s.plan.resolve p) s.settings ∧
            told t (Report.mk (some p) (some l) d :: portReports p [.portState x.state .discover none none .initial 0])) ∧
        ∀ (e : LaneEvent) (d : Detail) (c : ChanIx), es = [e] → (s.plan.resolve p).entry.kind ≠ .unused → l.val < 4 →
          (∀ k, (s.lane p k).autoLoop = false ∧ (s.lane p k).rx.loopSeen = false) → r.loopSeen = false → y.control.excluded = false →
          x.state = .tune → x.channel = some c → s.slots → x.map[l].logical ≠ none →
          (e = .silent ∧ d = .laneSilent ∨ ∃ a c, e = .identityChanged a c ∧ d = .neighbourChanged a c) →
          ∃ t, exec (.beaconArrival p l bytes) s = .next t ∧ x.rediscovered (t.port p) (s.plan.resolve p) s.settings ∧
            Freed p c s t ∧ (s.esu.queue = [] → told t
              (Report.mk (some p) (some l) d :: portReports p [.portState .tune .discover none none .initial 0])))

/-- What the far end's stage and flags do to a port, by a good beacon on a mapped, STABLE lane. FAULT, from PEER_WAIT through HANDOVER and
in PAUSED, faults the port with FAR_END_FAULT, and the DISC it carries does not send it to DISCOVER (R97). DISC without FAULT sends a port
past PEER_WAIT back to DISCOVER (R98). A fall to WAIT, with the window open or in HANDOVER, is a failed attempt (R98, R99, R146; that the
fall is a change is log entry 12). In PEER_WAIT every mapped lane at WAIT or higher and without FAULT moves the port on (R89); in QUALIFY
every mapped lane at QUAL or READY begins the window (R135); in HANDOVER READY beacons run up, and the last run to reach 2 sets the
closing mark (R92). Another port moves only where a sweep channel falls free and is granted on (R131). -/
def Obligations.FarEndFaultFaultsPort : Prop :=
  ∀ (p : PortIx) (l : LanePos) (bytes : List Byte) (b : Beacon) (pol : Polarity) (s : State),
    let x := s.port p
    let y := s.lane p l
    let quiet := (∀ k, (s.lane p k).autoLoop = false ∧ (s.lane p k).rx.loopSeen = false) ∧ b.flags.loopReq = false ∧
      y.counters[ctrBeaconGood].saturates 4294967295 1 = false
    let far : LanePos → Option Stage := fun k => if k = l then some b.stage else (s.lane p k).rx.far.map FarEnd.stage
    let same : State → Prop := fun t => OnlyPort p s t ∧ t.esu = s.esu ∧ { t.port p with lanes := x.lanes } = x
    x.map[l].logical ≠ none → classify bytes = .good b pol → y.rx.state = .stable → y.rx.suspended = false →
    y.rx.lastStable = some (b.identity pol) →
    (b.fault ≠ none → x.state ∈ [PortState.peerWait, .awaitSlot, .tune, .qualify, .handover, .paused] → x.state ≠ .tune ∨ s.slots →
      ∃ t, exec (.beaconArrival p l bytes) s = .next t ∧ (t.port p).state = .faulted ∧ (t.port p).fault = some .farEndFault ∧
        (t.port p).stageTimer = none ∧ (t.port p).pending = none ∧ (t.port p).channel = none ∧
        (t.port p).counters = x.counters.set ctrFaults (x.counters[ctrFaults].bump 65535 1) ∧ x.keepsCourse (t.port p) ∧
        (t.port p).attempts = x.attempts ∧ (t.port p).cycle = x.cycle ∧
        (∀ c, x.state = .tune → x.channel = some c → Freed p c s t) ∧
        (x.state ≠ .tune → OnlyPort p s t ∧ (quiet → x.counters[ctrFaults].saturates 65535 1 = false →
          t.reports = s.reports.enterAll s.time.clock (portReports p [.portFault .farEndFault x.state x.neighbour,
            .portState x.state .faulted none (some .farEndFault) x.cycle x.attempts])))) ∧
    (b.fault = none → b.stage = .disc →
      (x.state ∈ [PortState.awaitSlot, .tune, .qualify, .handover] ∨ x.state = .paused ∧ x.pending ≠ some .peerWait →
        x.state ≠ .tune ∨ s.slots → (s.plan.resolve p).entry.kind ≠ .unused → quiet →
        (∃ k : LanePos, k.val < 4 ∧ (k = l ∧ b.flags.remoteFault = true ∨ k ≠ l ∧ (s.lane p k).rx.state ≠ .stable ∨
          (s.lane p k).control.excluded = true)) →
        ∃ t, exec (.beaconArrival p l bytes) s = .next t ∧ x.rediscovered (t.port p) (s.plan.resolve p) s.settings ∧
          (∀ c, x.state = .tune → x.channel = some c → Freed p c s t) ∧
          (x.state ≠ .tune → OnlyPort p s t ∧ t.esu = { s.esu with
              queue := if x.state = .awaitSlot then s.esu.queue.filter (fun e => decide (e.port ≠ p)) else s.esu.queue } ∧
            t.reports = s.reports.enterAll s.time.clock (portReports p [.portState x.state .discover none none .initial 0]))) ∧
      (x.state = .paused → x.pending = some .peerWait → ∃ t, exec (.beaconArrival p l bytes) s = .next t ∧ same t)) ∧
    (b.fault = none → b.stage ≠ .disc → x.mapClass ≠ none → x.farStage ≠ some .wait →
      (∀ k : LanePos, x.map[k].logical ≠ none → ∃ g, far k = some g ∧ g ≠ .disc) →
      (∃ k : LanePos, x.map[k].logical ≠ none ∧ far k = some .wait) →
      x.state = .handover ∨ x.state = .qualify ∧ (∃ q, x.qualify = some q ∧ q.begun = true) →
      x.mode = .step ∨ 2 ≤ x.attempts ∨ s.noGrant →
      ∃ t, exec (.beaconArrival p l bytes) s = .next t ∧ OnlyPort p s t ∧ FailedAttempt p .qualifyFail s t ∧
        (t.port p).qualify = x.qualify.map fun q => { q with begun := false }) ∧
    (x.state = .peerWait → b.fault = none → x.mapClass ≠ none →
      ((∀ k : LanePos, x.map[k].logical ≠ none → (∃ g, far k = some g ∧ g ≠ .disc) ∧
          (k ≠ l → ∀ f, (s.lane p k).rx.far = some f → f.fault = none)) → x.mode = .step ∨ s.noGrant →
        ∃ t, exec (.beaconArrival p l bytes) s = .next t ∧ OnlyPort p s t ∧ Queued p x.cycle s t ∧ x.keepsCourse (t.port p) ∧
          (t.port p).attempts = x.attempts ∧ (t.port p).cycle = x.cycle ∧ (t.port p).stageTimer = none ∧
          (t.port p).counters = (if x.mode ≠ .step ∧ x.cycle = .initial
            then x.counters.set ctrAttempts (x.counters[ctrAttempts].bump 65535 1) else x.counters)) ∧
      ((∃ k : LanePos, x.map[k].logical ≠ none ∧ (far k = none ∨ far k = some .disc ∨
          k ≠ l ∧ ∃ f, (s.lane p k).rx.far = some f ∧ f.fault ≠ none)) →
        ∃ t, exec (.beaconArrival p l bytes) s = .next t ∧ same t)) ∧
    (∀ q, x.state = .qualify → x.qualify = some q → q.begun = false → b.fault = none → b.stage ≠ .disc → x.mapClass ≠ none →
      ((∀ k : LanePos, x.map[k].logical ≠ none → far k = some .qual ∨ far k = some .ready) →
        ∃ t, exec (.beaconArrival p l bytes) s = .next t ∧ OnlyPort p s t ∧ t.esu = s.esu ∧
          { t.port p with lanes := x.lanes } = { x with stageTimer := none, qualify := some { q with begun := true } } ∧
          ∀ k : LanePos, x.map[k].logical ≠ none → (s.lane p k).checker = .off → (t.lane p k).checker = .waiting) ∧
      ((∃ k : LanePos, x.map[k].logical ≠ none ∧ far k ≠ some .qual ∧ far k ≠ some .ready) →
        ∃ t, exec (.beaconArrival p l bytes) s = .next t ∧ same t)) ∧
    ∀ h : HandRecord, x.state = .handover → x.handover = some h → b.fault = none → b.stage = .qual ∨ b.stage = .ready →
      x.mapClass ≠ none → (∀ k : LanePos, k ≠ l → x.map[k].logical ≠ none → far k ≠ some .wait) →
      let runs := h.entries.map fun e => if e.pos = l then { e with readyRun := if b.stage = .ready then e.readyRun + 1 else 0 } else e
      let marks := h.closing = false ∧ ∀ e ∈ runs, 2 ≤ e.readyRun
      ∃ t, exec (.beaconArrival p l bytes) s = .next t ∧ OnlyPort p s t ∧ t.esu = s.esu ∧ ∃ g : HandRecord,
        { t.port p with lanes := x.lanes } = { x with handover := some g } ∧
        (marks → g = { closing := true, entries := runs.map fun e => { e with sent := 0 } }) ∧
        (¬marks → g = { closing := h.closing, entries := runs })

/-- The expiry of a lane's silence timer (R9, R85, R95, R113, R114): in MANUAL the receive record alone changes; a mapped lane that had
locked sends a port from PEER_WAIT through HANDOVER or in PAUSED back to DISCOVER with a LANE_SILENT report, a new snapshot and the map
cleared, from TUNE with its sweep aborted and the freed channel granted on (R131), and a lane discovery found does so in VERIFIED; in
CONSULT such a lane withdraws the consult. -/
def Obligations.SilenceSendsPortBack : Prop :=
  ∀ (p : PortIx) (l : LanePos) (s : State),
    let x := s.port p
    let y := s.lane p l
    y.rx.state ≠ .off → y.rx.suspended = false → y.rx.silence ≠ none →
    (x.state = .manual → y.autoLoop = false →
      exec (.silenceTimerExpiry p l) s = .next (s.modLane p l fun z => { z with rx := y.rx.expire.1 }).settled) ∧
    ((x.state ∈ [PortState.peerWait, .awaitSlot, .qualify, .handover, .paused] ∧ x.map[l].logical ≠ none ∨
        (x.state = .verified ∨ x.state = .consult) ∧ x.map[l].remote ≠ none) →
      y.rx.state = .locked ∨ y.rx.state = .stable → l.val < 4 → (s.plan.resolve p).entry.kind ≠ .unused →
      (∀ k, (s.lane p k).autoLoop = false ∧ (s.lane p k).rx.loopSeen = false) →
      ∃ t, exec (.silenceTimerExpiry p l) s = .next t ∧ OnlyPort p s t ∧
        t.esu = { s.esu with queue := if x.state = .awaitSlot then s.esu.queue.filter (fun e => decide (e.port ≠ p)) else s.esu.queue } ∧
        x.rediscovered (t.port p) (s.plan.resolve p) s.settings ∧
        (t.lane p l).rx.state = .silent ∧ (t.lane p l).rx.lastStable = y.rx.lastStable ∧
        t.reports = s.reports.enterAll s.time.clock
          (Report.mk (some p) (some l) (if x.state = .consult then .consultWithdrawn .silent x.neighbour else .laneSilent) ::
            portReports p [.portState x.state .discover none none .initial 0])) ∧
    ∀ c : ChanIx, x.state = .tune → x.channel = some c → s.slots → x.map[l].logical ≠ none →
      y.rx.state = .locked ∨ y.rx.state = .stable → l.val < 4 → (s.plan.resolve p).entry.kind ≠ .unused →
      (∀ k, (s.lane p k).autoLoop = false ∧ (s.lane p k).rx.loopSeen = false) →
      ∃ t, exec (.silenceTimerExpiry p l) s = .next t ∧ x.rediscovered (t.port p) (s.plan.resolve p) s.settings ∧
        (t.lane p l).rx.state = .silent ∧ (t.lane p l).rx.lastStable = y.rx.lastStable ∧
        (∀ k, (t.lane p k).eq = (s.lane p k).eq) ∧ Freed p c s t ∧
        (s.esu.queue = [] → t.reports = s.reports.enterAll s.time.clock
          (Report.mk (some p) (some l) .laneSilent :: portReports p [.portState .tune .discover none none .initial 0])) ∧
        ∀ (e : QueueEntry) (q : List QueueEntry), s.esu.queue = e :: q →
          s.settings.sweepLimit = (s.esu.channels.toList.filter Option.isSome).length →
          (∀ k, (s.lane e.port k).autoLoop = false) → t.reports = s.reports.enterAll s.time.clock
            (Report.mk (some p) (some l) .laneSilent :: portReports p [.portState .tune .discover none none .initial 0] ++
              portReports e.port [.portState .awaitSlot .tune none none (s.port e.port).cycle (s.port e.port).attempts])

/-- The expiries of a running stage timer (R60, R63, R90, R112, R136, R101): discovery ends in NO_CABLE, in the derivation's fault or its
stage, or on a dark port in DARK or UNEXPECTED_CABLE; a consult in CONSULT_TIMEOUT; a wait for the far end in FAR_END_STALL. -/
def Obligations.StageTimersEndTheirStages : Prop :=
  ∀ (p : PortIx) (u : StageTimer) (n : Snapshot) (s : State),
    let x := s.port p
    let faulted : FaultReason → State → Prop := fun r t => OnlyPort p s t ∧ t.esu = s.esu ∧ (t.port p).state = .faulted ∧
      (t.port p).fault = some r ∧ (t.port p).stageTimer = none ∧
      (t.port p).counters = x.counters.set ctrFaults (x.counters[ctrFaults].bump 65535 1) ∧ (t.port p).snapshot = x.snapshot ∧
      (t.port p).map = x.map ∧ (t.port p).mapClass = x.mapClass ∧ (t.port p).width = x.width ∧ (t.port p).accepted = x.accepted ∧
      (t.port p).attempts = x.attempts ∧ (t.port p).cycle = x.cycle ∧ (t.port p).unstable = x.unstable ∧
      ((∀ l, (s.lane p l).autoLoop = false ∧ (s.lane p l).rx.loopSeen = false) → x.counters[ctrFaults].saturates 65535 1 = false →
        t.reports = s.reports.enterAll s.time.clock (portReports p [.portFault r x.state (t.port p).neighbour,
          .portState x.state .faulted none (some r) x.cycle x.attempts]))
    let same : State → Prop := fun t => (t.port p).neighbour = x.neighbour ∧ (t.port p).verdict = x.verdict
    x.stageTimer = some u → u.halted = false → x.snapshot = some n →
    (x.state = .discover → n.entry.kind ≠ .unused →
      ((∀ l, x.usable l = false) → ∃ t, exec (.discoveryTimerExpiry p) s = .next t ∧ faulted .noCable t ∧ same t) ∧
      ((∃ l, x.usable l = true ∧ (s.lane p l).rx.lastStable ≠ none) →
        let d := derive n x.usables
        (∀ r, d.outcome = .error r → ∃ t, exec (.discoveryTimerExpiry p) s = .next t ∧ faulted r t ∧
          (t.port p).neighbour = d.neighbour ∧ (t.port p).verdict = d.verdict) ∧
        ∀ m c w, d.outcome = .ok (m, c, w) → (∀ l f, (s.lane p l).rx.far = some f → f.stage = .disc) →
          ∃ t, exec (.discoveryTimerExpiry p) s = .next t ∧ OnlyPort p s t ∧ t.esu = s.esu ∧ (t.port p).neighbour = d.neighbour ∧
            (t.port p).verdict = d.verdict ∧ (t.port p).map = m ∧ (t.port p).mapClass = some c ∧ (t.port p).width = some w ∧
            (t.port p).snapshot = some n ∧ (t.port p).counters = x.counters ∧
            (if n.entry.kind = .ask ∨ d.verdict = some .mismatch then (t.port p).state = .consult ∧
                (t.port p).stageTimer = some { remaining := s.settings.consult * 1000, halted := false } ∧ (t.port p).accepted = false
             else if x.mode = .verify then (t.port p).state = .verified ∧ (t.port p).stageTimer = none
             else if x.mode = .step then (t.port p).state = .paused ∧ (t.port p).pending = some .peerWait
             else (t.port p).state = .peerWait ∧
                (t.port p).stageTimer = some { remaining := s.settings.farEndWait * 1000, halted := false }))) ∧
    (x.state = .discover → n.entry.kind = .unused →
      ((∃ l, (s.lane p l).control.excluded = false ∧ ((s.lane p l).rx.state = .locked ∨ (s.lane p l).rx.state = .stable)) →
        ∃ t, exec (.discoveryTimerExpiry p) s = .next t ∧ faulted .unexpectedCable t ∧ same t) ∧
      ((∀ l, (s.lane p l).control.excluded = false → (s.lane p l).rx.state ≠ .locked ∧ (s.lane p l).rx.state ≠ .stable) →
        ∃ t, exec (.discoveryTimerExpiry p) s = .next t ∧ OnlyPort p s t ∧ (t.port p).state = .dark ∧ same t ∧
          (t.port p).stageTimer = none ∧ (t.port p).snapshot = some n ∧ (t.port p).counters = x.counters)) ∧
    (x.state = .consult → ∃ t, exec (.consultTimerExpiry p) s = .next t ∧ faulted .consultTimeout t ∧ same t) ∧
    (x.state = .peerWait ∨ x.state = .qualify ∨ x.state = .handover →
      ∃ t, exec (.farEndWaitExpiry p) s = .next t ∧ faulted .farEndStall t ∧ same t ∧
        ∀ q, x.qualify = some q → (t.port p).qualify = some { q with begun := false })

/-! ### Tuning -/

/-- A figure of merit that the running sweep asked for and a beacon sent act on the sweep of a port in TUNE, whose receiver works with the
gain of the point (R123, R124, R35); the number that ties a figure to its sweep is the model's (log entry 31), and so is the ascending
order of the positions that WIDTH_REDUCED drops (log entry 24). The last lane's closing
beacon completes the sweep (R127): every lane's best gain is written, SWEEP_DONE posted, and the port goes on to QUALIFY, at HALF width
where only lanes of the upper half failed and the policy allows it (R129, R130). The watchdog ends it (R128): unfinished lanes are
NOT_CONVERGED and no gain is written. Where half width cannot save a sweep the attempt has failed (R99): in STEP mode the port pauses
before AWAIT_SLOT, else it queues again and is granted the freed channel where the limit allows; a third failure is FAULTED(TUNE_FAIL). No
other port waits for a channel here. -/
def Obligations.SweepEventsAdvanceAndEnd : Prop :=
  ∀ (p : PortIx) (l : LanePos) (c : ChanIx) (w : Sweep) (s : State), (s.port p).state = .tune → (s.port p).channel = some c →
    s.esu.channels[c] = some w → w.port = p →
    let x := s.port p
    let put : (SweepLane → SweepLane) → Esu := fun f =>
      { s.esu with channels := s.esu.channels.set c (some { w with lanes := w.lanes.map fun z => if z.pos = l then f z else z }) }
    let half := (if x.L = 4 then 2 else 4)
    let failed : SweepLane → Prop := fun z => z.result ≠ some .converged ∧ z.result ≠ some .edge
    let halves : List SweepLane → Prop := fun zs => x.width = some .full ∧
      (∃ n, x.snapshot = some n ∧ n.entry.width = .halfOk) ∧ ∀ z ∈ zs, failed z → half ≤ z.logical.val
    let retried : Detail → State → Prop := fun d t => OnlyPort p s t ∧ x.keepsCourse (t.port p) ∧
      (t.port p).attempts = x.attempts + 1 ∧ (t.port p).cycle = x.cycle ∧
      (x.attempts = 2 → (t.port p).state = .faulted ∧ (t.port p).fault = some .tuneFail ∧
        t.esu = { s.esu with channels := s.esu.channels.set c none } ∧ (t.port p).channel = none ∧
        (t.port p).counters = x.counters.set ctrFaults (x.counters[ctrFaults].bump 65535 1)) ∧
      (x.attempts < 2 → x.mode = .step → (t.port p).state = .paused ∧ (t.port p).pending = some .awaitSlot ∧
        t.esu = { s.esu with channels := s.esu.channels.set c none } ∧ (t.port p).channel = none ∧
        (t.port p).counters = x.counters ∧
        ((∀ k, (s.lane p k).autoLoop = false) → t.reports = s.reports.enterAll s.time.clock (portReports p [d, .stagePause .awaitSlot,
          .portState .tune .paused (some .awaitSlot) none x.cycle (x.attempts + 1)]))) ∧
      (x.attempts < 2 → x.mode ≠ .step →
        (t.port p).counters = (if x.cycle = .initial then x.counters.set ctrAttempts (x.counters[ctrAttempts].bump 65535 1)
          else x.counters) ∧
        (s.settings.sweepLimit < (s.esu.channels.toList.filter Option.isSome).length → (t.port p).state = .awaitSlot ∧
          t.esu = { s.esu with channels := s.esu.channels.set c none, queue := [{ port := p, cycle := x.cycle }] }) ∧
        ((s.esu.channels.toList.filter Option.isSome).length ≤ s.settings.sweepLimit → (t.port p).state = .tune ∧
          t.esu.queue = [] ∧ ∃ d v, (t.port p).channel = some d ∧ t.esu.channels[d] = some v ∧ v.port = p ∧
            v.lanes = x.byLogical.map SweepLane.start))
    let proceeds : Detail → Vector MapEntry 8 → Option Width → List Detail → State → Prop := fun d m v ds t => OnlyPort p s t ∧
      t.esu = { s.esu with channels := s.esu.channels.set c none } ∧ (t.port p).channel = none ∧ (t.port p).map = m ∧
      (t.port p).width = v ∧ (t.port p).attempts = x.attempts ∧ (t.port p).cycle = x.cycle ∧ (t.port p).counters = x.counters ∧
      (x.mode = .step → (t.port p).state = .paused ∧ (t.port p).pending = some .qualify ∧ ((∀ k, (s.lane p k).autoLoop = false) →
        t.reports = s.reports.enterAll s.time.clock (portReports p (d :: ds ++
          [.stagePause .qualify, .portState .tune .paused (some .qualify) none x.cycle x.attempts])))) ∧
      (x.mode ≠ .step → (∀ k f, (s.lane p k).rx.far = some f → f.stage = .disc ∨ f.stage = .wait) → (t.port p).state = .qualify ∧
        (t.port p).stageTimer = some { remaining := s.settings.farEndWait * 1000, halted := false } ∧
        (t.port p).qualify = some { begun := false, entries := { x with map := m }.byLogical.map QualEntry.start } ∧
        ((∀ k, (s.lane p k).autoLoop = false) → t.reports = s.reports.enterAll s.time.clock (portReports p (d :: ds ++
          [.portState .tune .qualify none none x.cycle x.attempts]))))
    let halved : Detail → WidthCause → State → Prop := fun d cause t =>
      proceeds d (Vector.ofFn fun k : LanePos => if (∃ i, x.map[k].logical = some i ∧ half ≤ i.val)
          then { x.map[k] with logical := none } else x.map[k]) (some .half)
        [.widthReduced cause (allLanes.filter fun k => decide (∃ i, x.map[k].logical = some i ∧ half ≤ i.val))] t
    (∀ z, w.lanes.find? (fun y => decide (y.pos = l)) = some z → s.gainInUse p l = z.point.gain) ∧
    (∀ (f : Byte) (g : SweepLane → SweepLane),
      (∀ z ∈ w.lanes, z.phase ≠ .measure → g z = z) →
      (∀ z ∈ w.lanes, z.phase = .measure →
        let best : Best := match z.best with
          | none => { point := z.point, figure := f }
          | some b => if f < b.figure then b else if b.figure < f then { point := z.point, figure := f }
              else if z.point.gain < b.point.gain ∨ z.point.gain = b.point.gain ∧ (z.point.pre < b.point.pre ∨
                z.point.pre = b.point.pre ∧ z.point.post < b.point.post) then { point := z.point, figure := f } else b
        (∀ h : z.point.gain.val + 1 < 16, g z =
          { z with measured := z.measured + 1, best := some best, point := { z.point with gain := ⟨z.point.gain.val + 1, h⟩ } }) ∧
        (z.point.gain = 15 →
          (∀ h : z.point.post.val + 1 < 16, g z =
            { z with measured := z.measured + 1, best := some best, phase := .settle
                     point := { z.point with post := ⟨z.point.post.val + 1, h⟩ } }) ∧
          (z.point.post = 15 →
            (∀ h : z.point.pre.val + 1 < 8, g z =
              { z with measured := z.measured + 1, best := some best, phase := .settle
                       point := { z.point with pre := ⟨z.point.pre.val + 1, h⟩, post := 0 } }) ∧
            (z.point.pre = 7 → g z =
              { z with measured := z.measured + 1, best := some best, phase := .closing, point := best.point })))) →
      exec (.figureOfMerit p l { sweep := w.number, value := f }) s = .next { s with esu := put g }.settled) ∧
    (∀ (me : LocalId) (z : SweepLane), s.identity = some me → x.content l = .prbs → w.lanes.find? (fun y => decide (y.pos = l)) = some z →
      z.phase = .settle → (s.lane p l).injection = none →
      (∃ b : Beacon, b.tap = some { pre := z.point.pre, post := z.point.post } ∧ b.chassis = me.chassis ∧ b.stage = .wait ∧
        b.lane = l ∧ exec (.beaconTransmit p l) s =
          .next ({ s with esu := put SweepLane.beaconSent }.modLane p l fun y => { y with sent := some (b.bytes false) }).settled) ∧
      z.beaconSent = { z with phase := .measure, point := { z.point with gain := 0 } }) ∧
    (∀ me : LocalId, s.slots → s.esu.queue = [] → s.identity = some me → x.content l = .prbs → (s.lane p l).injection = none →
      (w.lanes.map SweepLane.pos).Nodup → (∃ z ∈ w.lanes, z.pos = l) →
      (∀ z ∈ w.lanes, if z.pos = l then z.phase = .closing else z.phase = .finished) →
      let ended := w.lanes.map fun z => if z.pos = l then
          { z with phase := .finished
                   result := some (match z.best with
                     | none => .notConverged
                     | some b => if b.figure < 32 then .notConverged
                       else if b.point.gain = 15 ∨ b.point.pre = 7 ∨ b.point.post = 15 then .edge else .converged) }
        else z
      let done : Detail := .sweepDone c (s.time.clock - w.start).toNat ended
      let gains : State → Prop := fun t => ∀ k : LanePos, (t.lane p k).eq =
        (match (w.lanes.find? fun z => decide (z.pos = k)).bind SweepLane.best with
          | some b => { (s.lane p k).eq with gain := b.point.gain }
          | none => (s.lane p k).eq)
      ∃ t, exec (.beaconTransmit p l) s = .next t ∧ (t.lane p l).sent ≠ none ∧ gains t ∧
        ((∀ z ∈ ended, ¬failed z) → proceeds done x.map x.width [] t) ∧
        ((∃ z ∈ ended, failed z) → halves ended → halved done .sweep t) ∧
        ((∃ z ∈ ended, failed z) → ¬halves ended → retried done t)) ∧
    (s.slots → s.esu.queue = [] → (∃ z ∈ w.lanes, z.phase ≠ .finished) →
      let ended := w.lanes.map fun z => if z.phase = .finished then z else { z with result := some .notConverged }
      ∃ t, exec (.watchdogExpiry c) s = .next t ∧ (∀ k, (t.lane p k).eq = (s.lane p k).eq) ∧
        (halves ended → halved (.sweepTimeout c ended) .sweep t) ∧ (¬halves ended → retried (.sweepTimeout c ended) t))

/-! ### Sending -/

/-- A beacon sent (R1, R4, R14, R32): its fields come from port, lane and identity at that moment, a pending BAD_CHECK injection
complements its check and is counted down. In a near-end loopback the lane's own receiver hears it (R27), in the same step (the model's
choice, log entry 7). In HANDOVER it counts, and the last one due takes the port to ACTIVE with its mapped lanes given to the switch (R92,
R93, R17, R18). -/
def Obligations.BeaconTransmitSendsFields : Prop :=
  ∀ (p : PortIx) (l : LanePos) (me : LocalId) (s : State), s.identity = some me →
    (s.port p).content l = .beacon ∨ (s.port p).content l = .prbs → (s.port p).channel = none →
    let x := s.port p
    let y := s.lane p l
    let inject := ∃ n, y.injection = some { kind := .badCheck, remaining := n }
    let b : Beacon :=
      { chassis := me.chassis, portNum := BitVec.ofNat 8 (me.base.toNat + p.val), lane := l
        count := if x.state = .manual then .eight else match x.snapshot with
          | none => .eight
          | some n => if n.entry.kind = .unused then .eight else n.entry.count
        stage := if x.state ∈ [PortState.consult, .verified, .paused, .peerWait, .awaitSlot, .tune] then .wait
          else if x.state = .qualify then .qual else if x.state = .handover then .ready else .disc
        flags :=
          { hold := decide (x.state ∈ [PortState.consult, .verified, .paused] ∨
              x.state = .manual ∧ y.control.source = .beacon ∧ y.control.sendHold = true)
            retrain := decide (x.cycle = .retrain ∧ x.state ∈ [PortState.paused, .awaitSlot, .tune, .qualify])
            remoteFault := decide (y.rx.state = .silent)
            loopReq := decide (x.state = .manual ∧ y.control.source = .beacon ∧ y.control.sendLoopReq = true) }
        fault := if x.state = .faulted then x.fault else none
        tap := none }
    let sent : Lane → Lane := fun z => { z with sent := some (b.bytes false) }
    (¬inject → x.state ≠ .tune → x.state ≠ .handover → x.nearEnd l = false →
      exec (.beaconTransmit p l) s = .next (s.modLane p l sent).settled) ∧
    (∀ n, y.injection = some { kind := .badCheck, remaining := n } → x.state ≠ .tune → x.state ≠ .handover → x.nearEnd l = false →
      exec (.beaconTransmit p l) s = .next (s.modLane p l fun z =>
        { z with sent := some (b.bytes true)
                 injection := if 1 < n then some { kind := .badCheck, remaining := n - 1 } else none }).settled) ∧
    (¬inject → x.nearEnd l = true → y.rx.state ≠ .off → y.autoLoop = false → me.chassis ≠ 0 →
      ∃ t, exec (.beaconTransmit p l) s = .next t ∧ OnlyPort p s t ∧ (t.lane p l).rx = (y.rx.good b .normal).1 ∧
        (t.lane p l).sent = some (b.bytes false) ∧ (t.lane p l).control = y.control ∧ (∀ k, k ≠ l → t.lane p k = s.lane p k) ∧
        (t.lane p l).counters = y.counters.set ctrBeaconGood (y.counters[ctrBeaconGood].bump 4294967295 1)) ∧
    (¬inject → x.state = .handover → ∀ h : HandRecord, x.handover = some h →
      let g : HandRecord := { h with entries := h.entries.map fun e => if e.pos = l then { e with sent := e.sent + 1 } else e }
      (h.closing = false ∨ (∃ e ∈ g.entries, e.sent < 2) → exec (.beaconTransmit p l) s =
        .next ((s.modLane p l sent).modPort p fun z => { z with handover := some g }).settled) ∧
      (h.closing = true → (∀ e ∈ g.entries, 2 ≤ e.sent) → ∃ t, exec (.beaconTransmit p l) s = .next t ∧ OnlyPort p s t ∧
        t.esu = s.esu ∧ (t.port p).state = .active ∧ (t.port p).attempts = 0 ∧ (t.port p).cleanRun = some 60000 ∧
        (t.port p).handover = none ∧ (t.port p).stageTimer = none ∧ (t.port p).cycle = x.cycle ∧ (t.port p).unstable = x.unstable ∧
        (t.port p).map = x.map ∧ (t.port p).width = x.width ∧
        (∀ k : LanePos, (t.lane p k).monitor = { errors := 0, history := [], hunt := none } ∧
          (x.map[k].logical ≠ none → (t.lane p k).owner = .switch ∧ (t.lane p k).rx.far = none ∧
            (k.val < x.L → (s.lane p k).rx.state ≠ .off → (t.lane p k).rx.suspended = true) ∧ (t.lane p k).tap = some
              { logical := x.map[k].logical, eq := (s.lane p k).eq
                correction := match (s.lane p k).control.invert with
                  | .auto => x.map[k].polarity
                  | .forceNormal => .normal
                  | .forceInvert => .inverted }) ∧
          (x.map[k].logical = none → (t.lane p k).owner = .part)) ∧
        ((∀ k, (s.lane p k).autoLoop = false) →
          t.reports = s.reports.enterAll s.time.clock (portReports p [.portState .handover .active none none x.cycle 0]))))

/-! ### Test blocks -/

/-- Test blocks (R22, R23, R24, R32, R137, R141 to R145). Sending one runs the generator 2^20 bits on, with the pending PRBS_ERRORS
injection; that the generator is held as its place, and a block's flipped bit as a mark, is the model's (log entry 7). In a near-end
loopback the checker's next block begins with it (R27; log entry 33, and so where the block after a block stands). A counted block goes to
PRBS_ERR and PRBS_BLOCKS, with 2^19 errors where pattern lock was SEARCHING during it, else with the differences after the check
correction, those of the lane's own block in a near-end loopback: where the correction changed within the block, a free value (log entry
28). A block without an error is a counting event too (log entry 17). In an open window it also goes to the lane's entry, unless that is
closed; a failure that decides ends the window as a failed attempt; the block that closes the last entry ends it in HANDOVER, at HALF
width where failed lanes of the upper half alone stand in the way and the policy allows it. That the positions which WIDTH_REDUCED drops
ascend (log entry 24), and the entries of the handover record (log entry 35), is the model's choice. -/
def Obligations.TestBlocksCountAndQualify : Prop :=
  ∀ (p : PortIx) (l : LanePos) (line : Fin 1048577) (s : State),
    let x := s.port p
    let y := s.lane p l
    let manual : Polarity := match y.control.invert with
      | .auto => (y.rx.lastStable.map Identity.polarity).getD .normal
      | .forceNormal => .normal
      | .forceInvert => .inverted
    let lock : PatternLock := if x.nearEnd l then (if y.control.source = .prbs then .locked else .searching) else y.patternLock
    let begun : Checker := if x.nearEnd l then (match y.checker with
      | .block .between _ _ => .block .loop (decide (lock = .searching)) (some manual)
      | k => k) else y.checker
    (x.content l = .prbs →
      (∀ n, y.injection = some { kind := .prbsErrors, remaining := n } → exec (.testBlockTransmit p l) s =
        .next (s.modLane p l fun z =>
          { z with gen := y.gen.map fun g => (g + 2 ^ 20) % (2 ^ 31 - 1), block := some true, checker := begun
                   injection := if 1 < n then some { kind := .prbsErrors, remaining := n - 1 } else none }).settled) ∧
      ((∀ n, y.injection ≠ some { kind := .prbsErrors, remaining := n }) → exec (.testBlockTransmit p l) s =
        .next (s.modLane p l fun z =>
          { z with gen := y.gen.map fun g => (g + 2 ^ 20) % (2 ^ 31 - 1), block := some false, checker := begun }).settled)) ∧
    ∀ (start : BlockStart) (searching : Bool) (correction : Option Polarity) (raw errors : Nat),
      y.checker = .block start searching correction →
      raw = (if x.nearEnd l = true ∧ start = .loop then (match y.block with
        | some flipped => if flipped then 1 else 0
        | none => line.val) else line.val) →
      errors = (if searching then 2 ^ 19 else match correction with
        | some .normal => raw
        | some .inverted => 2 ^ 20 - raw
        | none => Config.splitBlock s.freeIx % (2 ^ 20 + 1)) →
      let next : BlockStart := match start with
        | .loop => if x.nearEnd l = true ∧ x.content l = .pattern then .astride else .between
        | .astride => .astride
        | _ => if searching = true ∨ x.nearEnd l = true ∧ x.content l = .pattern then .astride else .between
      let used : State := { s with freeIx := if searching = false ∧ correction = none then s.freeIx + 1 else s.freeIx }
      let counted : State → Prop := fun t => OnlyPort p used t ∧
        (t.lane p l).counters = (y.counters.set ctrPrbsErr (y.counters[ctrPrbsErr].bump 4294967295 errors)).set ctrPrbsBlocks
          (y.counters[ctrPrbsBlocks].bump 4294967295 1)
      (x.state = .manual → y.control.checkPrbs = true → ∃ t, exec (.testBlockEnd p l line) s = .next t ∧ counted t ∧
        t.esu = s.esu ∧ { t.port p with lanes := x.lanes } = x ∧ (∀ k, k ≠ l → t.lane p k = s.lane p k) ∧
        { t.lane p l with counters := y.counters, checker := y.checker, block := y.block } = y ∧
        (t.lane p l).block = (if x.nearEnd l then none else y.block) ∧
        (t.lane p l).checker = .block next (decide (lock = .searching)) (some manual)) ∧
      ∀ (n : Snapshot) (q : QualRecord) (pre post : List QualEntry) (e : QualEntry), x.state = .qualify → x.map[l].logical ≠ none →
        x.snapshot = some n → x.qualify = some q → q.begun = true → q.entries = pre ++ e :: post → e.pos = l →
        (∀ d ∈ pre ++ post, d.pos ≠ l) →
        (e.verdict ≠ .pending ∨ n.entry.window ≤ e.blocks → ∃ t, exec (.testBlockEnd p l line) s = .next t ∧ counted t ∧
          t.esu = s.esu ∧ { t.port p with lanes := x.lanes } = x) ∧
        (e.verdict = .pending → e.blocks < n.entry.window →
          let sum := min (2 ^ 32 - 1) (e.errors + errors)
          let most := earlyCeiling n.entry.grade n.entry.window
          let d : QualEntry :=
            { e with blocks := e.blocks + 1, errors := sum, grade := some (q2Grade (e.blocks + 1) sum), bound := decide (sum = 0)
                     verdict := if most < sum then .fail else .pending }
          let all := pre ++ d :: post
          let half := (if x.L = 4 then 2 else 4)
          let halfAllowed := x.width = some .full ∧ n.entry.width = .halfOk
          let decides := most < sum ∧ (e.logical.val < half ∨ x.width = some .half ∨ n.entry.width = .fullOnly)
          let closed : QualEntry → Prop := fun f => n.entry.window ≤ f.blocks ∨ f.verdict = .fail
          let judged := all.map fun f => if f.verdict = .pending then
              { f with verdict := if (∃ g, f.grade = some g ∧ n.entry.grade ≤ g) then .pass else .fail } else f
          let quiet := (∀ k, (s.lane p k).autoLoop = false ∧ (s.lane p k).rx.loopSeen = false) ∧
            y.counters[ctrPrbsErr].saturates 4294967295 errors = false ∧ y.counters[ctrPrbsBlocks].saturates 4294967295 1 = false
          let told : List QualEntry → Option (LanePos × LanePos) → QualOutcome → List Detail → State → Prop := fun es lane out ds t =>
            quiet → t.reports = s.reports.enterAll s.time.clock (portReports p
              (.qualifyDone lane n.entry.grade n.entry.window most x.cycle x.attempts es out :: ds))
          let fails : List QualEntry → Option (LanePos × LanePos) → State → Prop := fun es lane t =>
            counted t ∧ FailedAttempt p .qualifyFail s t ∧ (t.port p).qualify = some { begun := false, entries := es } ∧
            (x.attempts < 2 → x.mode = .step → told es lane .failedAttempt
              [.stagePause .awaitSlot, .portState .qualify .paused (some .awaitSlot) none x.cycle (x.attempts + 1)] t) ∧
            (2 ≤ x.attempts → x.counters[ctrFaults].saturates 65535 1 = false → told es lane .failedAttempt
              [.portFault .qualifyFail .qualify x.neighbour,
                .portState .qualify .faulted none (some .qualifyFail) x.cycle (x.attempts + 1)] t)
          let passes : Vector MapEntry 8 → Option Width → QualOutcome → List Detail → State → Prop := fun m v out ds t =>
            counted t ∧ t.esu = s.esu ∧ (t.port p).map = m ∧ (t.port p).width = v ∧ (t.port p).attempts = x.attempts ∧
            (t.port p).counters = x.counters ∧ (t.port p).qualify = some { begun := false, entries := judged } ∧
            (x.mode = .step → (t.port p).state = .paused ∧ (t.port p).pending = some .handover ∧ told judged none out
              (ds ++ [.stagePause .handover, .portState .qualify .paused (some .handover) none x.cycle x.attempts]) t) ∧
            (x.mode ≠ .step → (t.port p).state = .handover ∧
              (t.port p).stageTimer = some { remaining := s.settings.farEndWait * 1000, halted := false } ∧
              (t.port p).handover = some (HandRecord.mk false
                ({ x with map := m }.mappedLanes.map fun k => { pos := k, readyRun := 0, sent := 0 })) ∧
              told judged none out (ds ++ [.portState .qualify .handover none none x.cycle x.attempts]) t)
          (decides → x.mode = .step ∨ 2 ≤ x.attempts ∨ s.noGrant →
            ∃ t, exec (.testBlockEnd p l line) s = .next t ∧ fails all (some (l, e.logical)) t) ∧
          (¬decides → (∃ f ∈ all, ¬closed f) → ∃ t, exec (.testBlockEnd p l line) s = .next t ∧ counted t ∧ t.esu = s.esu ∧
            { t.port p with lanes := x.lanes, qualify := x.qualify } = x ∧
            (t.port p).qualify = some { begun := true, entries := all }) ∧
          (¬decides → (∀ f ∈ all, closed f) →
            ((∀ f ∈ judged, f.verdict = .pass) → ∃ t, exec (.testBlockEnd p l line) s = .next t ∧
              passes x.map x.width .handover [] t) ∧
            ((∃ f ∈ judged, f.verdict = .fail) → halfAllowed → (∀ f ∈ judged, f.verdict = .fail → half ≤ f.logical.val) →
              ∃ t, exec (.testBlockEnd p l line) s = .next t ∧
              passes (Vector.ofFn fun k : LanePos => if (∃ i, x.map[k].logical = some i ∧ half ≤ i.val)
                  then { x.map[k] with logical := none } else x.map[k]) (some .half) .halfHandover
                [.widthReduced .qualify (allLanes.filter fun k => decide (∃ i, x.map[k].logical = some i ∧ half ≤ i.val))] t) ∧
            ((∃ f ∈ judged, f.verdict = .fail) → ¬(halfAllowed ∧ ∀ f ∈ judged, f.verdict = .fail → half ≤ f.logical.val) →
              x.mode = .step ∨ 2 ≤ x.attempts ∨ s.noGrant →
              ∃ t, exec (.testBlockEnd p l line) s = .next t ∧ fails judged none t)))

/-! ### The line and the link -/

/-- The events of a lane tap and of a lane's timers (R23, R150, R154, R156, R157, R159): pattern lock set and a block in hand marked where
it is lost (an own block that is looped no more stands astride, log entry 33, and one whose check correction is another than its own holds
none, log entry 28); a symbol error counted in its period and in SYMBOL_ERR; the unstable count cleared after a clean run; block lock lost
counted and a hunt begun; regained, a LOCK_BLIP with the time the recovery timer has run (log entry 3: the model's clock); the recovery
timer, LINK_LOST and DISCOVER. A good beacon on a hunting lane that is, or becomes, STABLE joins the far end's retrain where it carries
RETRAIN (R157, R158), and one of another identity sends the port to DISCOVER, however the lane came to hear it (R157, log entry 27). The
order of the reports of one beacon is the model's reading (log entries 10 and 11), the ascending order of LINK_LOST's lanes its choice
(log entry 37). -/
def Obligations.LinkEventsActOnTheirLane : Prop :=
  ∀ (p : PortIx) (l : LanePos) (s : State),
    let x := s.port p
    let y := s.lane p l
    let onlyLane : State → Prop := fun t =>
      OnlyPort p s t ∧ t.esu = s.esu ∧ { t.port p with lanes := x.lanes } = x ∧ ∀ k, k ≠ l → t.lane p k = s.lane p k
    (y.owner = .part → y.rx.state ≠ .off → x.nearEnd l = false →
      ∀ (c : Instr) (lock : PatternLock), c = .patternLockLost p l ∧ lock = .searching ∨ c = .patternLockRegained p l ∧ lock = .locked →
      ∃ t, exec c s = .next t ∧ OnlyPort p s t ∧ t.esu = s.esu ∧ t.reports = s.reports ∧ { t.port p with lanes := x.lanes } = x ∧
        (∀ k, { t.lane p k with gen := (s.lane p k).gen, block := (s.lane p k).block, checker := (s.lane p k).checker
                                patternLock := (s.lane p k).patternLock } = s.lane p k) ∧
        (∀ k, k ≠ l → (t.lane p k).patternLock = (s.lane p k).patternLock) ∧ (t.lane p l).patternLock = lock ∧
        ∀ (st : BlockStart) (b : Bool) (k : Option Polarity), x.counts l = true → y.checker = .block st b k →
          (t.lane p l).checker =
            .block (if st = .loop then .astride else st) (b || decide (lock = .searching))
              (if k = some (x.checkCorrection l) then k else none)) ∧
    (y.owner = .switch →
      (∃ t, exec (.symbolError p l) s = .next t ∧ onlyLane t ∧
        t.lane p l =
          { y with monitor := { y.monitor with errors := if y.monitor.errors < 65535 then y.monitor.errors + 1 else 65535 }
                   counters := y.counters.set ctrSymbolErr (y.counters[ctrSymbolErr].bump 4294967295 1) } ∧
        (y.counters[ctrSymbolErr].saturates 4294967295 1 = false → t.reports = s.reports)) ∧
      (∃ t, exec (.blockLockLost p l) s = .next t ∧ onlyLane t ∧
        (t.lane p l).counters = y.counters.set ctrLockLoss (y.counters[ctrLockLoss].bump 65535 1) ∧ (t.lane p l).owner = .switch ∧
        (t.lane p l).monitor.errors = y.monitor.errors ∧ (t.lane p l).monitor.history = y.monitor.history ∧
        (∀ h, y.monitor.hunt = some h → (t.lane p l).monitor.hunt = some h ∧ (t.lane p l).rx = y.rx) ∧
        (y.monitor.hunt = none → (t.lane p l).monitor.hunt = some { remaining := 100, heard := false } ∧
          (t.lane p l).rx.state = .silent ∧ (t.lane p l).rx.suspended = false ∧ (t.lane p l).rx.goodRun = 0 ∧
          (t.lane p l).rx.badRun = 0 ∧ (t.lane p l).rx.stabRun = 0 ∧ (t.lane p l).rx.lastStable = y.rx.lastStable)) ∧
      ∀ h, y.monitor.hunt = some h →
        (∃ t, exec (.blockLockRegained p l) s = .next t ∧ onlyLane t ∧
          t.lane p l = { y with rx := { y.rx with suspended := true, silence := none, far := none }
                                monitor := { y.monitor with hunt := none } } ∧
          t.reports = s.reports.enter s.time.clock (Report.mk (some p) (some l) (.lockBlip (100 - h.remaining)))) ∧
        (x.state = .active → l.val < 4 → (s.plan.resolve p).entry.kind ≠ .unused →
          (∀ k, (s.lane p k).autoLoop = false ∧ (s.lane p k).rx.loopSeen = false) →
          ∃ t, exec (.recoveryTimerExpiry p l) s = .next t ∧ OnlyPort p s t ∧ t.esu = s.esu ∧
            x.rediscovered (t.port p) (s.plan.resolve p) s.settings ∧
            (∀ k : LanePos, (t.lane p k).owner = .part ∧ ((s.lane p k).owner = .switch → (t.lane p k).monitor.hunt = none)) ∧
            t.reports = s.reports.enterAll s.time.clock
              (Report.mk (some p) (some l) (.linkLost y.rx.lastStable
                  ((allLanes.filter fun k => x.map[k].logical.isSome && decide (k ≠ l)).map fun k =>
                    (k, (s.lane p k).monitor.hunt.isSome)) h.heard) ::
                portReports p [.portState .active .discover none none .initial 0])) ∧
        ∀ (bytes : List Byte) (b : Beacon) (pol : Polarity) (r : Receiver) (es : List LaneEvent), x.state = .active →
          classify bytes = .good b pol → (r, es) = y.rx.good b pol → y.rx.state ≠ .off → y.rx.suspended = false →
          (r.state = .stable → b.flags.retrain = true → (∀ e ∈ es, e = .stable ∨ e = .oneWay ∨ e = .twoWay) →
            x.mode = .step ∨ 3 ≤ x.unstable ∨ s.noGrant → ∃ t, exec (.beaconArrival p l bytes) s = .next t ∧ OnlyPort p s t ∧
            Retrained p s t ∧ (x.unstable < 3 → x.mode = .step → (∀ k, (s.lane p k).autoLoop = false) →
              x.counters[ctrRetrains].saturates 65535 1 = false → y.counters[ctrBeaconGood].saturates 4294967295 1 = false →
              t.reports = s.reports.enterAll s.time.clock (portReports p
                [.retrain .farEndRetrain l x.map[l].logical none (x.unstable + 1) x.width, .stagePause .awaitSlot,
                  .portState .active .paused (some .awaitSlot) none .retrain 0]))) ∧
          (∀ a c, LaneEvent.identityChanged a c ∈ es → l.val < 4 → (s.plan.resolve p).entry.kind ≠ .unused →
            (∀ k, (s.lane p k).autoLoop = false ∧ (s.lane p k).rx.loopSeen = false) →
            ∃ t, exec (.beaconArrival p l bytes) s = .next t ∧ OnlyPort p s t ∧ t.esu = s.esu ∧
              x.rediscovered (t.port p) (s.plan.resolve p) s.settings ∧
              (y.counters[ctrBeaconGood].saturates 4294967295 1 = false → t.reports = s.reports.enterAll s.time.clock
                (Report.mk (some p) (some l) (.identityChanged a c) :: Report.mk (some p) (some l) (.neighbourChanged a c) ::
                  portReports p [.portState .active .discover none none .initial 0])))) ∧
    (∀ n, x.state = .active → x.cleanRun = some n → exec (.cleanRunExpiry p) s =
      .next (s.modPort p fun z => { z with unstable := 0, cleanRun := none }).settled)

/-- The end of a monitor period (R150, R151, R152): time goes on by a millisecond, every monitored lane judges its period and counts an
errored one, and a single lane with two errored periods in the retrain window retrains its port: UNSTABLE at count 3, else the class
RETRAIN and, in STEP mode, a pause before AWAIT_SLOT, in the other modes a place at the tail of the RETRAIN class. That this command is
also the millisecond tick is log entry 3. -/
def Obligations.MonitorPeriodJudgesAndRetrains : Prop :=
  ∀ s : State,
    let watched : PortIx → LanePos → Prop := fun p l => (s.port p).state = .active ∧ (s.lane p l).owner = .switch
    let errored : PortIx → LanePos → Bool := fun p l => decide (s.settings.errThreshold ≤ (s.lane p l).monitor.errors)
    let history : PortIx → LanePos → List Bool := fun p l => (errored p l :: (s.lane p l).monitor.history).take 6
    let window : Nat := match s.settings.retrain with | .off => 0 | .four => 4 | .five => 5 | .six => 6
    let raises : PortIx → LanePos → Prop := fun p l => watched p l ∧ 2 ≤ ((history p l).take window).count true
    ((∀ p l, ¬raises p l) → ∃ t, exec .monitorPeriodEnd s = .next t ∧
      t.time = { clock := s.time.clock + 1, interval := s.time.interval } ∧ t.plan = s.plan ∧ t.settings = s.settings ∧
      t.identity = s.identity ∧ t.esu.queue = s.esu.queue ∧
      (∀ c : ChanIx, t.esu.channels[c] = s.esu.channels[c].map fun w => { w with watchdog := w.watchdog - 1 }) ∧
      (∀ p, { t.port p with lanes := (s.port p).lanes } =
        { s.port p with cleanRun := (s.port p).cleanRun.map fun n => n - 1
                        stageTimer := (s.port p).stageTimer.map fun u =>
                          { u with remaining := if u.halted then u.remaining else u.remaining - 1 } }) ∧
      ∀ p l,
        (watched p l → (t.lane p l).monitor.errors = 0 ∧ (t.lane p l).monitor.history = history p l ∧
          (t.lane p l).counters = (if errored p l then (s.lane p l).counters.set ctrErrPeriods
            ((s.lane p l).counters[ctrErrPeriods].bump 65535 1) else (s.lane p l).counters)) ∧
        (¬watched p l → (t.lane p l).monitor.errors = (s.lane p l).monitor.errors ∧
          (t.lane p l).monitor.history = (s.lane p l).monitor.history ∧ (t.lane p l).counters = (s.lane p l).counters) ∧
        (t.lane p l).monitor.hunt = (s.lane p l).monitor.hunt.map (fun h => { h with remaining := h.remaining - 1 }) ∧
        (t.lane p l).rx = { (s.lane p l).rx with silence := (s.lane p l).rx.silence.map fun n => n - 1 } ∧
        (t.lane p l).eq = (s.lane p l).eq ∧ (t.lane p l).control = (s.lane p l).control) ∧
    ∀ (p : PortIx) (l : LanePos), raises p l → (∀ q k, raises q k → q = p ∧ k = l) →
      let x := s.port p
      let ticked : Esu := { s.esu with channels := s.esu.channels.map fun o => o.map fun w => { w with watchdog := w.watchdog - 1 } }
      (x.mode = .step ∨ 3 ≤ x.unstable ∨ s.noGrant → ∃ t, exec .monitorPeriodEnd s = .next t ∧ (t.port p).cleanRun = none ∧
        Retrained p { s with esu := ticked } t ∧
        (x.unstable < 3 → x.mode = .step → (∀ k, (s.lane p k).autoLoop = false) →
          (∀ q k, (s.lane q k).counters[ctrErrPeriods].saturates 65535 1 = false) →
          x.counters[ctrRetrains].saturates 65535 1 = false →
          t.reports = s.reports.enterAll (s.time.clock + 1) (portReports p
            [.retrain .errorWindow l x.map[l].logical (some (s.settings.retrain, history p l)) (x.unstable + 1) x.width,
              .stagePause .awaitSlot, .portState .active .paused (some .awaitSlot) none .retrain 0])))

/-! ### Invariants -/

/-- Headline: from every state, a step keeps the report list and the request buffer as R181 and R172 give them, and every counter within
its maximum (R163); and a counter never falls but by COUNTER_WRITE or a reset, a RESTART's at the end of its reply among them (log entry
2). -/
def Obligations.StepKeepsListsAndCounters : Prop :=
  (∀ s t : State, s.reports.wf → s.mpt.bufferLegal → s.countersWithin → step s = .next t →
    t.reports.wf ∧ t.mpt.bufferLegal ∧ t.countersWithin) ∧
  ∀ (c : Instr) (s t : State), s.countersWithin → exec c s = .next t →
    (∀ a b d e f, c ≠ .counterWrite a b d e f) → (∀ a, c ≠ .portBlockReset a) → c ≠ .allPortsBlockReset → c ≠ .countersBlockReset →
    (∀ a b, c ≠ .powerOn a b) → (∀ a b, c ≠ .pinReset a b) → c ≠ .restart →
    (c = .replySent → ∀ e ∈ s.mpt.buffer.head?, e.restarts = false) →
    (∀ p (i : Fin 3), (s.port p).counters[i].live ≤ (t.port p).counters[i].live) ∧
    (∀ p l (i : Fin 7), (s.lane p l).counters[i].live ≤ (t.lane p l).counters[i].live) ∧
    ∀ i : Fin 2, s.mpt.counters[i].live ≤ t.mpt.counters[i].live

/-- Headline: from every state, a step keeps settings, plan entries, background, layer order and port snapshots within the sets the rules
give (R37, R40, R41, R42, R49, R176), and every port record to the fields of its own state: pending stage, fault reason, timers, sweep
channel, handover record, open window and lanes given to the switch (R17, R76, R77, R92, R122, R135, R154). -/
def Obligations.StepKeepsRecordsLegal : Prop :=
  ∀ s t : State, s.recordsLegal → step s = .next t → t.recordsLegal

/-- Headline: from every state, a step keeps wait queue and sweep channels in step with the ports: in the queue once exactly while in
AWAIT_SLOT, RETRAIN ahead of INITIAL, a channel busy exactly for the port in TUNE that names it (R117, R119, R120, R122). -/
def Obligations.StepKeepsQueueAndChannels : Prop := ∀ s t : State, s.slots → step s = .next t → t.slots

/-- The state after reset meets every invariant stated above. -/
def Obligations.ResetMeetsInvariants : Prop :=
  State.reset.reports.wf ∧ State.reset.mpt.bufferLegal ∧ State.reset.countersWithin ∧ State.reset.recordsLegal ∧ State.reset.slots
end

