-- ==== Sys2Proof/Laws/State.lean ====
section
/-! SUPPORT. One lemma per field per update of the state, and what reading a port or a lane gives after each. -/

namespace Sys2Proof.Machine

variable (s : State)

/-! ### setPort -/

@[simp] theorem State.setPort_ports (p : PortIx) (x : Port) : (s.setPort p x).ports = s.ports.set p x := rfl
@[simp] theorem State.setPort_plan (p : PortIx) (x : Port) : (s.setPort p x).plan = s.plan := rfl
@[simp] theorem State.setPort_esu (p : PortIx) (x : Port) : (s.setPort p x).esu = s.esu := rfl
@[simp] theorem State.setPort_reports (p : PortIx) (x : Port) : (s.setPort p x).reports = s.reports := rfl
@[simp] theorem State.setPort_mpt (p : PortIx) (x : Port) : (s.setPort p x).mpt = s.mpt := rfl
@[simp] theorem State.setPort_time (p : PortIx) (x : Port) : (s.setPort p x).time = s.time := rfl
@[simp] theorem State.setPort_settings (p : PortIx) (x : Port) : (s.setPort p x).settings = s.settings := rfl
@[simp] theorem State.setPort_identity (p : PortIx) (x : Port) : (s.setPort p x).identity = s.identity := rfl
@[simp] theorem State.setPort_countdown (p : PortIx) (x : Port) : (s.setPort p x).countdown = s.countdown := rfl
@[simp] theorem State.setPort_attn (p : PortIx) (x : Port) : (s.setPort p x).attn = s.attn := rfl
@[simp] theorem State.setPort_deferred (p : PortIx) (x : Port) : (s.setPort p x).deferred = s.deferred := rfl
@[simp] theorem State.setPort_freeIx (p : PortIx) (x : Port) : (s.setPort p x).freeIx = s.freeIx := rfl
@[simp] theorem State.setPort_pending (p : PortIx) (x : Port) : (s.setPort p x).pending = s.pending := rfl

/-! ### setSettings -/

@[simp] theorem State.setSettings_ports (x : Settings) : (s.setSettings x).ports = s.ports := rfl
@[simp] theorem State.setSettings_plan (x : Settings) : (s.setSettings x).plan = s.plan := rfl
@[simp] theorem State.setSettings_esu (x : Settings) : (s.setSettings x).esu = s.esu := rfl
@[simp] theorem State.setSettings_reports (x : Settings) : (s.setSettings x).reports = s.reports := rfl
@[simp] theorem State.setSettings_mpt (x : Settings) : (s.setSettings x).mpt = s.mpt := rfl
@[simp] theorem State.setSettings_time (x : Settings) : (s.setSettings x).time = s.time := rfl
@[simp] theorem State.setSettings_settings (x : Settings) : (s.setSettings x).settings = x := rfl
@[simp] theorem State.setSettings_identity (x : Settings) : (s.setSettings x).identity = s.identity := rfl
@[simp] theorem State.setSettings_countdown (x : Settings) : (s.setSettings x).countdown = s.countdown := rfl
@[simp] theorem State.setSettings_attn (x : Settings) : (s.setSettings x).attn = s.attn := rfl
@[simp] theorem State.setSettings_deferred (x : Settings) : (s.setSettings x).deferred = s.deferred := rfl
@[simp] theorem State.setSettings_freeIx (x : Settings) : (s.setSettings x).freeIx = s.freeIx := rfl
@[simp] theorem State.setSettings_pending (x : Settings) : (s.setSettings x).pending = s.pending := rfl
@[simp] theorem State.setSettings_port (x : Settings) (k : PortIx) : (s.setSettings x).port k = s.port k := rfl
@[simp] theorem State.setSettings_lane (x : Settings) (k : PortIx) (l : LanePos) : (s.setSettings x).lane k l = s.lane k l := rfl

/-! ### setPlan -/

@[simp] theorem State.setPlan_ports (x : Plan) : (s.setPlan x).ports = s.ports := rfl
@[simp] theorem State.setPlan_plan (x : Plan) : (s.setPlan x).plan = x := rfl
@[simp] theorem State.setPlan_esu (x : Plan) : (s.setPlan x).esu = s.esu := rfl
@[simp] theorem State.setPlan_reports (x : Plan) : (s.setPlan x).reports = s.reports := rfl
@[simp] theorem State.setPlan_mpt (x : Plan) : (s.setPlan x).mpt = s.mpt := rfl
@[simp] theorem State.setPlan_time (x : Plan) : (s.setPlan x).time = s.time := rfl
@[simp] theorem State.setPlan_settings (x : Plan) : (s.setPlan x).settings = s.settings := rfl
@[simp] theorem State.setPlan_identity (x : Plan) : (s.setPlan x).identity = s.identity := rfl
@[simp] theorem State.setPlan_countdown (x : Plan) : (s.setPlan x).countdown = s.countdown := rfl
@[simp] theorem State.setPlan_attn (x : Plan) : (s.setPlan x).attn = s.attn := rfl
@[simp] theorem State.setPlan_deferred (x : Plan) : (s.setPlan x).deferred = s.deferred := rfl
@[simp] theorem State.setPlan_freeIx (x : Plan) : (s.setPlan x).freeIx = s.freeIx := rfl
@[simp] theorem State.setPlan_pending (x : Plan) : (s.setPlan x).pending = s.pending := rfl
@[simp] theorem State.setPlan_port (x : Plan) (k : PortIx) : (s.setPlan x).port k = s.port k := rfl
@[simp] theorem State.setPlan_lane (x : Plan) (k : PortIx) (l : LanePos) : (s.setPlan x).lane k l = s.lane k l := rfl

/-! ### setEsu -/

@[simp] theorem State.setEsu_ports (x : Esu) : (s.setEsu x).ports = s.ports := rfl
@[simp] theorem State.setEsu_plan (x : Esu) : (s.setEsu x).plan = s.plan := rfl
@[simp] theorem State.setEsu_esu (x : Esu) : (s.setEsu x).esu = x := rfl
@[simp] theorem State.setEsu_reports (x : Esu) : (s.setEsu x).reports = s.reports := rfl
@[simp] theorem State.setEsu_mpt (x : Esu) : (s.setEsu x).mpt = s.mpt := rfl
@[simp] theorem State.setEsu_time (x : Esu) : (s.setEsu x).time = s.time := rfl
@[simp] theorem State.setEsu_settings (x : Esu) : (s.setEsu x).settings = s.settings := rfl
@[simp] theorem State.setEsu_identity (x : Esu) : (s.setEsu x).identity = s.identity := rfl
@[simp] theorem State.setEsu_countdown (x : Esu) : (s.setEsu x).countdown = s.countdown := rfl
@[simp] theorem State.setEsu_attn (x : Esu) : (s.setEsu x).attn = s.attn := rfl
@[simp] theorem State.setEsu_deferred (x : Esu) : (s.setEsu x).deferred = s.deferred := rfl
@[simp] theorem State.setEsu_freeIx (x : Esu) : (s.setEsu x).freeIx = s.freeIx := rfl
@[simp] theorem State.setEsu_pending (x : Esu) : (s.setEsu x).pending = s.pending := rfl
@[simp] theorem State.setEsu_port (x : Esu) (k : PortIx) : (s.setEsu x).port k = s.port k := rfl
@[simp] theorem State.setEsu_lane (x : Esu) (k : PortIx) (l : LanePos) : (s.setEsu x).lane k l = s.lane k l := rfl

/-! ### setReports -/

@[simp] theorem State.setReports_ports (x : ReportList) : (s.setReports x).ports = s.ports := rfl
@[simp] theorem State.setReports_plan (x : ReportList) : (s.setReports x).plan = s.plan := rfl
@[simp] theorem State.setReports_esu (x : ReportList) : (s.setReports x).esu = s.esu := rfl
@[simp] theorem State.setReports_reports (x : ReportList) : (s.setReports x).reports = x := rfl
@[simp] theorem State.setReports_mpt (x : ReportList) : (s.setReports x).mpt = s.mpt := rfl
@[simp] theorem State.setReports_time (x : ReportList) : (s.setReports x).time = s.time := rfl
@[simp] theorem State.setReports_settings (x : ReportList) : (s.setReports x).settings = s.settings := rfl
@[simp] theorem State.setReports_identity (x : ReportList) : (s.setReports x).identity = s.identity := rfl
@[simp] theorem State.setReports_countdown (x : ReportList) : (s.setReports x).countdown = s.countdown := rfl
@[simp] theorem State.setReports_attn (x : ReportList) : (s.setReports x).attn = s.attn := rfl
@[simp] theorem State.setReports_deferred (x : ReportList) : (s.setReports x).deferred = s.deferred := rfl
@[simp] theorem State.setReports_freeIx (x : ReportList) : (s.setReports x).freeIx = s.freeIx := rfl
@[simp] theorem State.setReports_pending (x : ReportList) : (s.setReports x).pending = s.pending := rfl
@[simp] theorem State.setReports_port (x : ReportList) (k : PortIx) : (s.setReports x).port k = s.port k := rfl
@[simp] theorem State.setReports_lane (x : ReportList) (k : PortIx) (l : LanePos) : (s.setReports x).lane k l = s.lane k l := rfl

/-! ### setMpt -/

@[simp] theorem State.setMpt_ports (x : Mpt) : (s.setMpt x).ports = s.ports := rfl
@[simp] theorem State.setMpt_plan (x : Mpt) : (s.setMpt x).plan = s.plan := rfl
@[simp] theorem State.setMpt_esu (x : Mpt) : (s.setMpt x).esu = s.esu := rfl
@[simp] theorem State.setMpt_reports (x : Mpt) : (s.setMpt x).reports = s.reports := rfl
@[simp] theorem State.setMpt_mpt (x : Mpt) : (s.setMpt x).mpt = x := rfl
@[simp] theorem State.setMpt_time (x : Mpt) : (s.setMpt x).time = s.time := rfl
@[simp] theorem State.setMpt_settings (x : Mpt) : (s.setMpt x).settings = s.settings := rfl
@[simp] theorem State.setMpt_identity (x : Mpt) : (s.setMpt x).identity = s.identity := rfl
@[simp] theorem State.setMpt_countdown (x : Mpt) : (s.setMpt x).countdown = s.countdown := rfl
@[simp] theorem State.setMpt_attn (x : Mpt) : (s.setMpt x).attn = s.attn := rfl
@[simp] theorem State.setMpt_deferred (x : Mpt) : (s.setMpt x).deferred = s.deferred := rfl
@[simp] theorem State.setMpt_freeIx (x : Mpt) : (s.setMpt x).freeIx = s.freeIx := rfl
@[simp] theorem State.setMpt_pending (x : Mpt) : (s.setMpt x).pending = s.pending := rfl
@[simp] theorem State.setMpt_port (x : Mpt) (k : PortIx) : (s.setMpt x).port k = s.port k := rfl
@[simp] theorem State.setMpt_lane (x : Mpt) (k : PortIx) (l : LanePos) : (s.setMpt x).lane k l = s.lane k l := rfl

/-! ### setTime -/

@[simp] theorem State.setTime_ports (x : TimeBase) : (s.setTime x).ports = s.ports := rfl
@[simp] theorem State.setTime_plan (x : TimeBase) : (s.setTime x).plan = s.plan := rfl
@[simp] theorem State.setTime_esu (x : TimeBase) : (s.setTime x).esu = s.esu := rfl
@[simp] theorem State.setTime_reports (x : TimeBase) : (s.setTime x).reports = s.reports := rfl
@[simp] theorem State.setTime_mpt (x : TimeBase) : (s.setTime x).mpt = s.mpt := rfl
@[simp] theorem State.setTime_time (x : TimeBase) : (s.setTime x).time = x := rfl
@[simp] theorem State.setTime_settings (x : TimeBase) : (s.setTime x).settings = s.settings := rfl
@[simp] theorem State.setTime_identity (x : TimeBase) : (s.setTime x).identity = s.identity := rfl
@[simp] theorem State.setTime_countdown (x : TimeBase) : (s.setTime x).countdown = s.countdown := rfl
@[simp] theorem State.setTime_attn (x : TimeBase) : (s.setTime x).attn = s.attn := rfl
@[simp] theorem State.setTime_deferred (x : TimeBase) : (s.setTime x).deferred = s.deferred := rfl
@[simp] theorem State.setTime_freeIx (x : TimeBase) : (s.setTime x).freeIx = s.freeIx := rfl
@[simp] theorem State.setTime_pending (x : TimeBase) : (s.setTime x).pending = s.pending := rfl
@[simp] theorem State.setTime_port (x : TimeBase) (k : PortIx) : (s.setTime x).port k = s.port k := rfl
@[simp] theorem State.setTime_lane (x : TimeBase) (k : PortIx) (l : LanePos) : (s.setTime x).lane k l = s.lane k l := rfl

/-! ### setCountdown -/

@[simp] theorem State.setCountdown_ports (n : Nat) : (s.setCountdown n).ports = s.ports := rfl
@[simp] theorem State.setCountdown_plan (n : Nat) : (s.setCountdown n).plan = s.plan := rfl
@[simp] theorem State.setCountdown_esu (n : Nat) : (s.setCountdown n).esu = s.esu := rfl
@[simp] theorem State.setCountdown_reports (n : Nat) : (s.setCountdown n).reports = s.reports := rfl
@[simp] theorem State.setCountdown_mpt (n : Nat) : (s.setCountdown n).mpt = s.mpt := rfl
@[simp] theorem State.setCountdown_time (n : Nat) : (s.setCountdown n).time = s.time := rfl
@[simp] theorem State.setCountdown_settings (n : Nat) : (s.setCountdown n).settings = s.settings := rfl
@[simp] theorem State.setCountdown_identity (n : Nat) : (s.setCountdown n).identity = s.identity := rfl
@[simp] theorem State.setCountdown_countdown (n : Nat) : (s.setCountdown n).countdown = n := rfl
@[simp] theorem State.setCountdown_attn (n : Nat) : (s.setCountdown n).attn = s.attn := rfl
@[simp] theorem State.setCountdown_deferred (n : Nat) : (s.setCountdown n).deferred = s.deferred := rfl
@[simp] theorem State.setCountdown_freeIx (n : Nat) : (s.setCountdown n).freeIx = s.freeIx := rfl
@[simp] theorem State.setCountdown_pending (n : Nat) : (s.setCountdown n).pending = s.pending := rfl
@[simp] theorem State.setCountdown_port (n : Nat) (k : PortIx) : (s.setCountdown n).port k = s.port k := rfl
@[simp] theorem State.setCountdown_lane (n : Nat) (k : PortIx) (l : LanePos) : (s.setCountdown n).lane k l = s.lane k l := rfl

/-! ### setIdentity -/

@[simp] theorem State.setIdentity_ports (x : LocalId) : (s.setIdentity x).ports = s.ports := rfl
@[simp] theorem State.setIdentity_plan (x : LocalId) : (s.setIdentity x).plan = s.plan := rfl
@[simp] theorem State.setIdentity_esu (x : LocalId) : (s.setIdentity x).esu = s.esu := rfl
@[simp] theorem State.setIdentity_reports (x : LocalId) : (s.setIdentity x).reports = s.reports := rfl
@[simp] theorem State.setIdentity_mpt (x : LocalId) : (s.setIdentity x).mpt = s.mpt := rfl
@[simp] theorem State.setIdentity_time (x : LocalId) : (s.setIdentity x).time = s.time := rfl
@[simp] theorem State.setIdentity_settings (x : LocalId) : (s.setIdentity x).settings = s.settings := rfl
@[simp] theorem State.setIdentity_identity (x : LocalId) : (s.setIdentity x).identity = some x := rfl
@[simp] theorem State.setIdentity_countdown (x : LocalId) : (s.setIdentity x).countdown = s.countdown := rfl
@[simp] theorem State.setIdentity_attn (x : LocalId) : (s.setIdentity x).attn = s.attn := rfl
@[simp] theorem State.setIdentity_deferred (x : LocalId) : (s.setIdentity x).deferred = s.deferred := rfl
@[simp] theorem State.setIdentity_freeIx (x : LocalId) : (s.setIdentity x).freeIx = s.freeIx := rfl
@[simp] theorem State.setIdentity_pending (x : LocalId) : (s.setIdentity x).pending = s.pending := rfl
@[simp] theorem State.setIdentity_port (x : LocalId) (k : PortIx) : (s.setIdentity x).port k = s.port k := rfl
@[simp] theorem State.setIdentity_lane (x : LocalId) (k : PortIx) (l : LanePos) : (s.setIdentity x).lane k l = s.lane k l := rfl

/-! ### setPending -/

@[simp] theorem State.setPending_ports (q : List Instr) : (s.setPending q).ports = s.ports := rfl
@[simp] theorem State.setPending_plan (q : List Instr) : (s.setPending q).plan = s.plan := rfl
@[simp] theorem State.setPending_esu (q : List Instr) : (s.setPending q).esu = s.esu := rfl
@[simp] theorem State.setPending_reports (q : List Instr) : (s.setPending q).reports = s.reports := rfl
@[simp] theorem State.setPending_mpt (q : List Instr) : (s.setPending q).mpt = s.mpt := rfl
@[simp] theorem State.setPending_time (q : List Instr) : (s.setPending q).time = s.time := rfl
@[simp] theorem State.setPending_settings (q : List Instr) : (s.setPending q).settings = s.settings := rfl
@[simp] theorem State.setPending_identity (q : List Instr) : (s.setPending q).identity = s.identity := rfl
@[simp] theorem State.setPending_countdown (q : List Instr) : (s.setPending q).countdown = s.countdown := rfl
@[simp] theorem State.setPending_attn (q : List Instr) : (s.setPending q).attn = s.attn := rfl
@[simp] theorem State.setPending_deferred (q : List Instr) : (s.setPending q).deferred = s.deferred := rfl
@[simp] theorem State.setPending_freeIx (q : List Instr) : (s.setPending q).freeIx = s.freeIx := rfl
@[simp] theorem State.setPending_pending (q : List Instr) : (s.setPending q).pending = q := rfl
@[simp] theorem State.setPending_port (q : List Instr) (k : PortIx) : (s.setPending q).port k = s.port k := rfl
@[simp] theorem State.setPending_lane (q : List Instr) (k : PortIx) (l : LanePos) : (s.setPending q).lane k l = s.lane k l := rfl

/-! ### useFree -/

@[simp] theorem State.useFree_ports : (s.useFree).ports = s.ports := rfl
@[simp] theorem State.useFree_plan : (s.useFree).plan = s.plan := rfl
@[simp] theorem State.useFree_esu : (s.useFree).esu = s.esu := rfl
@[simp] theorem State.useFree_reports : (s.useFree).reports = s.reports := rfl
@[simp] theorem State.useFree_mpt : (s.useFree).mpt = s.mpt := rfl
@[simp] theorem State.useFree_time : (s.useFree).time = s.time := rfl
@[simp] theorem State.useFree_settings : (s.useFree).settings = s.settings := rfl
@[simp] theorem State.useFree_identity : (s.useFree).identity = s.identity := rfl
@[simp] theorem State.useFree_countdown : (s.useFree).countdown = s.countdown := rfl
@[simp] theorem State.useFree_attn : (s.useFree).attn = s.attn := rfl
@[simp] theorem State.useFree_deferred : (s.useFree).deferred = s.deferred := rfl
@[simp] theorem State.useFree_freeIx : (s.useFree).freeIx = s.freeIx + 1 := rfl
@[simp] theorem State.useFree_pending : (s.useFree).pending = s.pending := rfl
@[simp] theorem State.useFree_port (k : PortIx) : (s.useFree).port k = s.port k := rfl
@[simp] theorem State.useFree_lane (k : PortIx) (l : LanePos) : (s.useFree).lane k l = s.lane k l := rfl

/-! ### deferReport -/

@[simp] theorem State.deferReport_ports (r : Report) : (s.deferReport r).ports = s.ports := rfl
@[simp] theorem State.deferReport_plan (r : Report) : (s.deferReport r).plan = s.plan := rfl
@[simp] theorem State.deferReport_esu (r : Report) : (s.deferReport r).esu = s.esu := rfl
@[simp] theorem State.deferReport_reports (r : Report) : (s.deferReport r).reports = s.reports := rfl
@[simp] theorem State.deferReport_mpt (r : Report) : (s.deferReport r).mpt = s.mpt := rfl
@[simp] theorem State.deferReport_time (r : Report) : (s.deferReport r).time = s.time := rfl
@[simp] theorem State.deferReport_settings (r : Report) : (s.deferReport r).settings = s.settings := rfl
@[simp] theorem State.deferReport_identity (r : Report) : (s.deferReport r).identity = s.identity := rfl
@[simp] theorem State.deferReport_countdown (r : Report) : (s.deferReport r).countdown = s.countdown := rfl
@[simp] theorem State.deferReport_attn (r : Report) : (s.deferReport r).attn = s.attn := rfl
@[simp] theorem State.deferReport_deferred (r : Report) : (s.deferReport r).deferred = s.deferred ++ [r] := rfl
@[simp] theorem State.deferReport_freeIx (r : Report) : (s.deferReport r).freeIx = s.freeIx := rfl
@[simp] theorem State.deferReport_pending (r : Report) : (s.deferReport r).pending = s.pending := rfl
@[simp] theorem State.deferReport_port (r : Report) (k : PortIx) : (s.deferReport r).port k = s.port k := rfl
@[simp] theorem State.deferReport_lane (r : Report) (k : PortIx) (l : LanePos) : (s.deferReport r).lane k l = s.lane k l := rfl

/-! ### opened -/

@[simp] theorem State.opened_ports : (s.opened).ports = s.ports := rfl
@[simp] theorem State.opened_plan : (s.opened).plan = s.plan := rfl
@[simp] theorem State.opened_esu : (s.opened).esu = s.esu := rfl
@[simp] theorem State.opened_reports : (s.opened).reports = s.reports := rfl
@[simp] theorem State.opened_mpt : (s.opened).mpt = s.mpt := rfl
@[simp] theorem State.opened_time : (s.opened).time = s.time := rfl
@[simp] theorem State.opened_settings : (s.opened).settings = s.settings := rfl
@[simp] theorem State.opened_identity : (s.opened).identity = s.identity := rfl
@[simp] theorem State.opened_countdown : (s.opened).countdown = s.countdown := rfl
@[simp] theorem State.opened_attn : (s.opened).attn = s.attn := rfl
@[simp] theorem State.opened_deferred : (s.opened).deferred = [] := rfl
@[simp] theorem State.opened_freeIx : (s.opened).freeIx = s.freeIx := rfl
@[simp] theorem State.opened_pending : (s.opened).pending = s.pending := rfl
@[simp] theorem State.opened_port (k : PortIx) : (s.opened).port k = s.port k := rfl
@[simp] theorem State.opened_lane (k : PortIx) (l : LanePos) : (s.opened).lane k l = s.lane k l := rfl

/-! ### pinned -/

@[simp] theorem State.pinned_ports : (s.pinned).ports = s.ports := rfl
@[simp] theorem State.pinned_plan : (s.pinned).plan = s.plan := rfl
@[simp] theorem State.pinned_esu : (s.pinned).esu = s.esu := rfl
@[simp] theorem State.pinned_reports : (s.pinned).reports = s.reports := rfl
@[simp] theorem State.pinned_mpt : (s.pinned).mpt = s.mpt := rfl
@[simp] theorem State.pinned_time : (s.pinned).time = s.time := rfl
@[simp] theorem State.pinned_settings : (s.pinned).settings = s.settings := rfl
@[simp] theorem State.pinned_identity : (s.pinned).identity = s.identity := rfl
@[simp] theorem State.pinned_countdown : (s.pinned).countdown = s.countdown := rfl
@[simp] theorem State.pinned_attn : (s.pinned).attn = s.attention := rfl
@[simp] theorem State.pinned_deferred : (s.pinned).deferred = s.deferred := rfl
@[simp] theorem State.pinned_freeIx : (s.pinned).freeIx = s.freeIx := rfl
@[simp] theorem State.pinned_pending : (s.pinned).pending = s.pending := rfl
@[simp] theorem State.pinned_port (k : PortIx) : (s.pinned).port k = s.port k := rfl
@[simp] theorem State.pinned_lane (k : PortIx) (l : LanePos) : (s.pinned).lane k l = s.lane k l := rfl

/-! ### mapPorts -/

@[simp] theorem State.mapPorts_ports (f : PortIx → Port → Port) : (s.mapPorts f).ports = Vector.ofFn fun p : PortIx => f p (s.port p) := by simp only [State.mapPorts]
@[simp] theorem State.mapPorts_plan (f : PortIx → Port → Port) : (s.mapPorts f).plan = s.plan := by simp only [State.mapPorts]
@[simp] theorem State.mapPorts_esu (f : PortIx → Port → Port) : (s.mapPorts f).esu = s.esu := by simp only [State.mapPorts]
@[simp] theorem State.mapPorts_reports (f : PortIx → Port → Port) : (s.mapPorts f).reports = s.reports := by simp only [State.mapPorts]
@[simp] theorem State.mapPorts_mpt (f : PortIx → Port → Port) : (s.mapPorts f).mpt = s.mpt := by simp only [State.mapPorts]
@[simp] theorem State.mapPorts_time (f : PortIx → Port → Port) : (s.mapPorts f).time = s.time := by simp only [State.mapPorts]
@[simp] theorem State.mapPorts_settings (f : PortIx → Port → Port) : (s.mapPorts f).settings = s.settings := by simp only [State.mapPorts]
@[simp] theorem State.mapPorts_identity (f : PortIx → Port → Port) : (s.mapPorts f).identity = s.identity := by simp only [State.mapPorts]
@[simp] theorem State.mapPorts_countdown (f : PortIx → Port → Port) : (s.mapPorts f).countdown = s.countdown := by simp only [State.mapPorts]
@[simp] theorem State.mapPorts_attn (f : PortIx → Port → Port) : (s.mapPorts f).attn = s.attn := by simp only [State.mapPorts]
@[simp] theorem State.mapPorts_deferred (f : PortIx → Port → Port) : (s.mapPorts f).deferred = s.deferred := by simp only [State.mapPorts]
@[simp] theorem State.mapPorts_freeIx (f : PortIx → Port → Port) : (s.mapPorts f).freeIx = s.freeIx := by simp only [State.mapPorts]
@[simp] theorem State.mapPorts_pending (f : PortIx → Port → Port) : (s.mapPorts f).pending = s.pending := by simp only [State.mapPorts]

/-! ### Reading a port after writing one -/

@[simp] theorem State.setPort_port (p k : PortIx) (x : Port) : (s.setPort p x).port k = if p = k then x else s.port k := by
  simp only [State.port, State.setPort, Fin.getElem_fin, Vector.getElem_set, Fin.ext_iff]

theorem State.setPort_port_same (p : PortIx) (x : Port) : (s.setPort p x).port p = x := by simp

theorem State.setPort_port_other {p k : PortIx} (h : p ≠ k) (x : Port) : (s.setPort p x).port k = s.port k := by simp [h]

@[simp] theorem State.mapPorts_port (f : PortIx → Port → Port) (k : PortIx) : (s.mapPorts f).port k = f k (s.port k) := by
  simp only [State.port, State.mapPorts, Fin.getElem_fin, Vector.getElem_ofFn]

theorem State.modPort_eq (p : PortIx) (f : Port → Port) : s.modPort p f = s.setPort p (f (s.port p)) := rfl

@[simp] theorem State.modPort_port (p k : PortIx) (f : Port → Port) :
    (s.modPort p f).port k = if p = k then f (s.port p) else s.port k := by simp [State.modPort]

/-- Two states with the same other fields are equal where every port is. -/
theorem State.ports_ext {s t : State} (h : ∀ p, s.port p = t.port p) : s.ports = t.ports := by
  apply Vector.ext
  intro i hi
  exact h ⟨i, hi⟩

/-! ### Reading a lane after writing one -/

@[simp] theorem Port.setLane_lane (x : Port) (l k : LanePos) (y : Lane) : (x.setLane l y).lane k = if l = k then y else x.lane k := by
  simp only [Port.lane, Port.setLane, Fin.getElem_fin, Vector.getElem_set, Fin.ext_iff]

@[simp] theorem Port.modLane_lane (x : Port) (l k : LanePos) (f : Lane → Lane) :
    (x.modLane l f).lane k = if l = k then f (x.lane l) else x.lane k := by simp [Port.modLane]

@[simp] theorem Port.mapLanes_lane (x : Port) (f : LanePos → Lane → Lane) (k : LanePos) :
    (x.mapLanes f).lane k = f k (x.lane k) := by
  simp only [Port.lane, Port.mapLanes, Fin.getElem_fin, Vector.getElem_ofFn]

theorem State.modLane_lane (p q : PortIx) (l k : LanePos) (f : Lane → Lane) :
    (s.modLane p l f).lane q k = if p = q ∧ l = k then f (s.lane p l) else s.lane q k := by
  by_cases hp : p = q
  · subst hp
    by_cases hl : l = k <;> simp [State.modLane, State.lane, hl]
  · simp [State.modLane, State.lane, hp]

/-! ### The port record under the lane updates -/

@[simp] theorem Port.setLane_state (x : Port) (l : LanePos) (y : Lane) : (x.setLane l y).state = x.state := rfl
@[simp] theorem Port.setLane_mode (x : Port) (l : LanePos) (y : Lane) : (x.setLane l y).mode = x.mode := rfl
@[simp] theorem Port.setLane_pending (x : Port) (l : LanePos) (y : Lane) : (x.setLane l y).pending = x.pending := rfl
@[simp] theorem Port.setLane_fault (x : Port) (l : LanePos) (y : Lane) : (x.setLane l y).fault = x.fault := rfl
@[simp] theorem Port.setLane_snapshot (x : Port) (l : LanePos) (y : Lane) : (x.setLane l y).snapshot = x.snapshot := rfl
@[simp] theorem Port.setLane_neighbour (x : Port) (l : LanePos) (y : Lane) : (x.setLane l y).neighbour = x.neighbour := rfl
@[simp] theorem Port.setLane_verdict (x : Port) (l : LanePos) (y : Lane) : (x.setLane l y).verdict = x.verdict := rfl
@[simp] theorem Port.setLane_accepted (x : Port) (l : LanePos) (y : Lane) : (x.setLane l y).accepted = x.accepted := rfl
@[simp] theorem Port.setLane_map (x : Port) (l : LanePos) (y : Lane) : (x.setLane l y).map = x.map := rfl
@[simp] theorem Port.setLane_mapClass (x : Port) (l : LanePos) (y : Lane) : (x.setLane l y).mapClass = x.mapClass := rfl
@[simp] theorem Port.setLane_width (x : Port) (l : LanePos) (y : Lane) : (x.setLane l y).width = x.width := rfl
@[simp] theorem Port.setLane_cycle (x : Port) (l : LanePos) (y : Lane) : (x.setLane l y).cycle = x.cycle := rfl
@[simp] theorem Port.setLane_attempts (x : Port) (l : LanePos) (y : Lane) : (x.setLane l y).attempts = x.attempts := rfl
@[simp] theorem Port.setLane_unstable (x : Port) (l : LanePos) (y : Lane) : (x.setLane l y).unstable = x.unstable := rfl
@[simp] theorem Port.setLane_stageTimer (x : Port) (l : LanePos) (y : Lane) : (x.setLane l y).stageTimer = x.stageTimer := rfl
@[simp] theorem Port.setLane_cleanRun (x : Port) (l : LanePos) (y : Lane) : (x.setLane l y).cleanRun = x.cleanRun := rfl
@[simp] theorem Port.setLane_channel (x : Port) (l : LanePos) (y : Lane) : (x.setLane l y).channel = x.channel := rfl
@[simp] theorem Port.setLane_qualify (x : Port) (l : LanePos) (y : Lane) : (x.setLane l y).qualify = x.qualify := rfl
@[simp] theorem Port.setLane_handover (x : Port) (l : LanePos) (y : Lane) : (x.setLane l y).handover = x.handover := rfl
@[simp] theorem Port.setLane_counters (x : Port) (l : LanePos) (y : Lane) : (x.setLane l y).counters = x.counters := rfl

@[simp] theorem Port.modLane_state (x : Port) (l : LanePos) (f : Lane → Lane) : (x.modLane l f).state = x.state := rfl
@[simp] theorem Port.modLane_mode (x : Port) (l : LanePos) (f : Lane → Lane) : (x.modLane l f).mode = x.mode := rfl
@[simp] theorem Port.modLane_pending (x : Port) (l : LanePos) (f : Lane → Lane) : (x.modLane l f).pending = x.pending := rfl
@[simp] theorem Port.modLane_fault (x : Port) (l : LanePos) (f : Lane → Lane) : (x.modLane l f).fault = x.fault := rfl
@[simp] theorem Port.modLane_snapshot (x : Port) (l : LanePos) (f : Lane → Lane) : (x.modLane l f).snapshot = x.snapshot := rfl
@[simp] theorem Port.modLane_neighbour (x : Port) (l : LanePos) (f : Lane → Lane) : (x.modLane l f).neighbour = x.neighbour := rfl
@[simp] theorem Port.modLane_verdict (x : Port) (l : LanePos) (f : Lane → Lane) : (x.modLane l f).verdict = x.verdict := rfl
@[simp] theorem Port.modLane_accepted (x : Port) (l : LanePos) (f : Lane → Lane) : (x.modLane l f).accepted = x.accepted := rfl
@[simp] theorem Port.modLane_map (x : Port) (l : LanePos) (f : Lane → Lane) : (x.modLane l f).map = x.map := rfl
@[simp] theorem Port.modLane_mapClass (x : Port) (l : LanePos) (f : Lane → Lane) : (x.modLane l f).mapClass = x.mapClass := rfl
@[simp] theorem Port.modLane_width (x : Port) (l : LanePos) (f : Lane → Lane) : (x.modLane l f).width = x.width := rfl
@[simp] theorem Port.modLane_cycle (x : Port) (l : LanePos) (f : Lane → Lane) : (x.modLane l f).cycle = x.cycle := rfl
@[simp] theorem Port.modLane_attempts (x : Port) (l : LanePos) (f : Lane → Lane) : (x.modLane l f).attempts = x.attempts := rfl
@[simp] theorem Port.modLane_unstable (x : Port) (l : LanePos) (f : Lane → Lane) : (x.modLane l f).unstable = x.unstable := rfl
@[simp] theorem Port.modLane_stageTimer (x : Port) (l : LanePos) (f : Lane → Lane) : (x.modLane l f).stageTimer = x.stageTimer := rfl
@[simp] theorem Port.modLane_cleanRun (x : Port) (l : LanePos) (f : Lane → Lane) : (x.modLane l f).cleanRun = x.cleanRun := rfl
@[simp] theorem Port.modLane_channel (x : Port) (l : LanePos) (f : Lane → Lane) : (x.modLane l f).channel = x.channel := rfl
@[simp] theorem Port.modLane_qualify (x : Port) (l : LanePos) (f : Lane → Lane) : (x.modLane l f).qualify = x.qualify := rfl
@[simp] theorem Port.modLane_handover (x : Port) (l : LanePos) (f : Lane → Lane) : (x.modLane l f).handover = x.handover := rfl
@[simp] theorem Port.modLane_counters (x : Port) (l : LanePos) (f : Lane → Lane) : (x.modLane l f).counters = x.counters := rfl

@[simp] theorem Port.mapLanes_state (x : Port) (f : LanePos → Lane → Lane) : (x.mapLanes f).state = x.state := rfl
@[simp] theorem Port.mapLanes_mode (x : Port) (f : LanePos → Lane → Lane) : (x.mapLanes f).mode = x.mode := rfl
@[simp] theorem Port.mapLanes_pending (x : Port) (f : LanePos → Lane → Lane) : (x.mapLanes f).pending = x.pending := rfl
@[simp] theorem Port.mapLanes_fault (x : Port) (f : LanePos → Lane → Lane) : (x.mapLanes f).fault = x.fault := rfl
@[simp] theorem Port.mapLanes_snapshot (x : Port) (f : LanePos → Lane → Lane) : (x.mapLanes f).snapshot = x.snapshot := rfl
@[simp] theorem Port.mapLanes_neighbour (x : Port) (f : LanePos → Lane → Lane) : (x.mapLanes f).neighbour = x.neighbour := rfl
@[simp] theorem Port.mapLanes_verdict (x : Port) (f : LanePos → Lane → Lane) : (x.mapLanes f).verdict = x.verdict := rfl
@[simp] theorem Port.mapLanes_accepted (x : Port) (f : LanePos → Lane → Lane) : (x.mapLanes f).accepted = x.accepted := rfl
@[simp] theorem Port.mapLanes_map (x : Port) (f : LanePos → Lane → Lane) : (x.mapLanes f).map = x.map := rfl
@[simp] theorem Port.mapLanes_mapClass (x : Port) (f : LanePos → Lane → Lane) : (x.mapLanes f).mapClass = x.mapClass := rfl
@[simp] theorem Port.mapLanes_width (x : Port) (f : LanePos → Lane → Lane) : (x.mapLanes f).width = x.width := rfl
@[simp] theorem Port.mapLanes_cycle (x : Port) (f : LanePos → Lane → Lane) : (x.mapLanes f).cycle = x.cycle := rfl
@[simp] theorem Port.mapLanes_attempts (x : Port) (f : LanePos → Lane → Lane) : (x.mapLanes f).attempts = x.attempts := rfl
@[simp] theorem Port.mapLanes_unstable (x : Port) (f : LanePos → Lane → Lane) : (x.mapLanes f).unstable = x.unstable := rfl
@[simp] theorem Port.mapLanes_stageTimer (x : Port) (f : LanePos → Lane → Lane) : (x.mapLanes f).stageTimer = x.stageTimer := rfl
@[simp] theorem Port.mapLanes_cleanRun (x : Port) (f : LanePos → Lane → Lane) : (x.mapLanes f).cleanRun = x.cleanRun := rfl
@[simp] theorem Port.mapLanes_channel (x : Port) (f : LanePos → Lane → Lane) : (x.mapLanes f).channel = x.channel := rfl
@[simp] theorem Port.mapLanes_qualify (x : Port) (f : LanePos → Lane → Lane) : (x.mapLanes f).qualify = x.qualify := rfl
@[simp] theorem Port.mapLanes_handover (x : Port) (f : LanePos → Lane → Lane) : (x.mapLanes f).handover = x.handover := rfl
@[simp] theorem Port.mapLanes_counters (x : Port) (f : LanePos → Lane → Lane) : (x.mapLanes f).counters = x.counters := rfl

@[simp] theorem State.modPort_plan (p : PortIx) (g : Port → Port) : (s.modPort p g).plan = s.plan := rfl
@[simp] theorem State.modPort_esu (p : PortIx) (g : Port → Port) : (s.modPort p g).esu = s.esu := rfl
@[simp] theorem State.modPort_reports (p : PortIx) (g : Port → Port) : (s.modPort p g).reports = s.reports := rfl
@[simp] theorem State.modPort_mpt (p : PortIx) (g : Port → Port) : (s.modPort p g).mpt = s.mpt := rfl
@[simp] theorem State.modPort_time (p : PortIx) (g : Port → Port) : (s.modPort p g).time = s.time := rfl
@[simp] theorem State.modPort_settings (p : PortIx) (g : Port → Port) : (s.modPort p g).settings = s.settings := rfl
@[simp] theorem State.modPort_identity (p : PortIx) (g : Port → Port) : (s.modPort p g).identity = s.identity := rfl
@[simp] theorem State.modPort_countdown (p : PortIx) (g : Port → Port) : (s.modPort p g).countdown = s.countdown := rfl
@[simp] theorem State.modPort_attn (p : PortIx) (g : Port → Port) : (s.modPort p g).attn = s.attn := rfl
@[simp] theorem State.modPort_deferred (p : PortIx) (g : Port → Port) : (s.modPort p g).deferred = s.deferred := rfl
@[simp] theorem State.modPort_freeIx (p : PortIx) (g : Port → Port) : (s.modPort p g).freeIx = s.freeIx := rfl
@[simp] theorem State.modPort_pending (p : PortIx) (g : Port → Port) : (s.modPort p g).pending = s.pending := rfl
@[simp] theorem State.modLane_plan (p : PortIx) (l : LanePos) (g : Lane → Lane) : (s.modLane p l g).plan = s.plan := rfl
@[simp] theorem State.modLane_esu (p : PortIx) (l : LanePos) (g : Lane → Lane) : (s.modLane p l g).esu = s.esu := rfl
@[simp] theorem State.modLane_reports (p : PortIx) (l : LanePos) (g : Lane → Lane) : (s.modLane p l g).reports = s.reports := rfl
@[simp] theorem State.modLane_mpt (p : PortIx) (l : LanePos) (g : Lane → Lane) : (s.modLane p l g).mpt = s.mpt := rfl
@[simp] theorem State.modLane_time (p : PortIx) (l : LanePos) (g : Lane → Lane) : (s.modLane p l g).time = s.time := rfl
@[simp] theorem State.modLane_settings (p : PortIx) (l : LanePos) (g : Lane → Lane) : (s.modLane p l g).settings = s.settings := rfl
@[simp] theorem State.modLane_identity (p : PortIx) (l : LanePos) (g : Lane → Lane) : (s.modLane p l g).identity = s.identity := rfl
@[simp] theorem State.modLane_countdown (p : PortIx) (l : LanePos) (g : Lane → Lane) : (s.modLane p l g).countdown = s.countdown := rfl
@[simp] theorem State.modLane_attn (p : PortIx) (l : LanePos) (g : Lane → Lane) : (s.modLane p l g).attn = s.attn := rfl
@[simp] theorem State.modLane_deferred (p : PortIx) (l : LanePos) (g : Lane → Lane) : (s.modLane p l g).deferred = s.deferred := rfl
@[simp] theorem State.modLane_freeIx (p : PortIx) (l : LanePos) (g : Lane → Lane) : (s.modLane p l g).freeIx = s.freeIx := rfl
@[simp] theorem State.modLane_pending (p : PortIx) (l : LanePos) (g : Lane → Lane) : (s.modLane p l g).pending = s.pending := rfl

@[simp] theorem State.modLane_port (p k : PortIx) (l : LanePos) (g : Lane → Lane) :
    (s.modLane p l g).port k = if p = k then (s.port p).modLane l g else s.port k := by simp [State.modLane]

/-! ### Posting -/

@[simp] theorem State.post_ports (r : Report) : (s.post r).ports = s.ports := rfl
@[simp] theorem State.post_plan (r : Report) : (s.post r).plan = s.plan := rfl
@[simp] theorem State.post_esu (r : Report) : (s.post r).esu = s.esu := rfl
@[simp] theorem State.post_mpt (r : Report) : (s.post r).mpt = s.mpt := rfl
@[simp] theorem State.post_time (r : Report) : (s.post r).time = s.time := rfl
@[simp] theorem State.post_settings (r : Report) : (s.post r).settings = s.settings := rfl
@[simp] theorem State.post_identity (r : Report) : (s.post r).identity = s.identity := rfl
@[simp] theorem State.post_countdown (r : Report) : (s.post r).countdown = s.countdown := rfl
@[simp] theorem State.post_attn (r : Report) : (s.post r).attn = s.attn := rfl
@[simp] theorem State.post_deferred (r : Report) : (s.post r).deferred = s.deferred := rfl
@[simp] theorem State.post_freeIx (r : Report) : (s.post r).freeIx = s.freeIx := rfl
@[simp] theorem State.post_pending (r : Report) : (s.post r).pending = s.pending := rfl
@[simp] theorem State.post_reports (r : Report) : (s.post r).reports = s.reports.enter s.time.clock r := rfl
@[simp] theorem State.post_port (r : Report) (k : PortIx) : (s.post r).port k = s.port k := rfl
@[simp] theorem State.post_lane (r : Report) (k : PortIx) (l : LanePos) : (s.post r).lane k l = s.lane k l := rfl

/-! ### The end of a command -/

/-- Posting a list of reports changes the report list alone. -/
theorem State.foldl_post (rs : List Report) (s : State) :
    rs.foldl State.post s = s.setReports (rs.foldl (fun l r => l.enter s.time.clock r) s.reports) := by
  induction rs generalizing s with
  | nil => rfl
  | cons r rs ih => simp [List.foldl_cons, ih]; rfl

@[simp] theorem State.closed_ports : s.closed.ports = s.ports := by simp [State.closed, State.pinned, State.flushed, State.foldl_post]
@[simp] theorem State.closed_plan : s.closed.plan = s.plan := by simp [State.closed, State.pinned, State.flushed, State.foldl_post]
@[simp] theorem State.closed_esu : s.closed.esu = s.esu := by simp [State.closed, State.pinned, State.flushed, State.foldl_post]
@[simp] theorem State.closed_mpt : s.closed.mpt = s.mpt := by simp [State.closed, State.pinned, State.flushed, State.foldl_post]
@[simp] theorem State.closed_time : s.closed.time = s.time := by simp [State.closed, State.pinned, State.flushed, State.foldl_post]
@[simp] theorem State.closed_settings : s.closed.settings = s.settings := by simp [State.closed, State.pinned, State.flushed, State.foldl_post]
@[simp] theorem State.closed_identity : s.closed.identity = s.identity := by simp [State.closed, State.pinned, State.flushed, State.foldl_post]
@[simp] theorem State.closed_countdown : s.closed.countdown = s.countdown := by simp [State.closed, State.pinned, State.flushed, State.foldl_post]
@[simp] theorem State.closed_freeIx : s.closed.freeIx = s.freeIx := by simp [State.closed, State.pinned, State.flushed, State.foldl_post]
@[simp] theorem State.closed_pending : s.closed.pending = s.pending := by simp [State.closed, State.pinned, State.flushed, State.foldl_post]
@[simp] theorem State.closed_deferred : s.closed.deferred = [] := rfl

@[simp] theorem State.closed_port (k : PortIx) : s.closed.port k = s.port k := by
  simp [State.port, State.closed_ports]

@[simp] theorem State.closed_lane (k : PortIx) (l : LanePos) : s.closed.lane k l = s.lane k l := by simp [State.lane]

/-- The attention pin is right at the end of every command (R187). -/
theorem State.closed_attn : s.closed.attn = s.closed.attention := rfl

/-- Where no report is kept back, the end of a command sets the attention pin alone. -/
theorem State.closed_of_none (h : s.deferred = []) : s.closed = { s with attn := s.attention } := by
  cases s; simp_all [State.closed, State.flushed, State.pinned]

end Sys2Proof.Machine
end

