-- ==== Sys2Proof/Laws/Moves.lean ====
section
/-! SUPPORT. What the shared operations over ports, lanes, the ESU and the report list can do, said once: `Moves`. A snapshot changes
only to what the plan resolves or to none, a counter only by counting, sampling, and (where allowed) writing and clearing, and
nothing beside ports, ESU, report list, kept-back reports and the free values' count changes at all. -/

namespace Sys2Proof.Machine

/-! ### What one counter and one port may become -/

/-- A counter after counting events and boundaries; where `w` holds, also after writes and clears. -/
def Counter.mayBecome (w : Bool) (maximum : Nat) (c d : Counter) : Prop :=
  d = c ∨ d = c.sample ∨ (∃ a, d = c.bump maximum a) ∨ w = true ∧ (d = .zero ∨ ∃ v, v ≤ maximum ∧ d = .write v)

/-- A port record after a step: its snapshot kept, given up, or taken from the plan; its counters as above. -/
structure Port.mayBecome (w : Bool) (n : Snapshot) (x y : Port) : Prop where
  snapshot : y.snapshot = x.snapshot ∨ y.snapshot = none ∨ y.snapshot = some n
  counters : ∀ i : Fin 3, Counter.mayBecome w shortCounterMax x.counters[i] y.counters[i]
  lanes : ∀ (l : LanePos) (i : Fin 7), Counter.mayBecome w (laneCounterMax i) (x.lane l).counters[i] (y.lane l).counters[i]

/-- A change of a port that leaves its snapshot and every counter as they are. -/
structure Port.Keeps (x y : Port) : Prop where
  snapshot : y.snapshot = x.snapshot
  counters : y.counters = x.counters
  lanes : ∀ l, (y.lane l).counters = (x.lane l).counters

theorem Counter.mayBecome_refl (w : Bool) (m : Nat) (c : Counter) : Counter.mayBecome w m c c := .inl rfl

theorem Counter.mayBecome_bump (w : Bool) (m a : Nat) (c : Counter) : Counter.mayBecome w m c (c.bump m a) :=
  .inr (.inr (.inl ⟨a, rfl⟩))

theorem Counter.mayBecome_sample (w : Bool) (m : Nat) (c : Counter) : Counter.mayBecome w m c c.sample := .inr (.inl rfl)

theorem Counter.mayBecome_zero (m : Nat) (c : Counter) : Counter.mayBecome true m c .zero := .inr (.inr (.inr ⟨rfl, .inl rfl⟩))

theorem Counter.mayBecome_write {m v : Nat} (c : Counter) (h : v ≤ m) : Counter.mayBecome true m c (.write v) :=
  .inr (.inr (.inr ⟨rfl, .inr ⟨v, h, rfl⟩⟩))

theorem Port.Keeps.refl (x : Port) : x.Keeps x := ⟨rfl, rfl, fun _ => rfl⟩

theorem Port.Keeps.trans {x y z : Port} (h : x.Keeps y) (k : y.Keeps z) : x.Keeps z :=
  ⟨k.snapshot.trans h.snapshot, k.counters.trans h.counters, fun l => (k.lanes l).trans (h.lanes l)⟩

theorem Port.Keeps.mayBecome {x y : Port} (h : x.Keeps y) (w : Bool) (n : Snapshot) : Port.mayBecome w n x y where
  snapshot := .inl h.snapshot
  counters i := .inl (by rw [h.counters])
  lanes l i := .inl (by rw [h.lanes])

theorem Port.Keeps.mapLanes (x : Port) {f : LanePos → Lane → Lane} (h : ∀ l y, (f l y).counters = y.counters) :
    x.Keeps (x.mapLanes f) := ⟨rfl, rfl, fun l => by simp [h]⟩

theorem Port.Keeps.modLane (x : Port) (l : LanePos) {f : Lane → Lane} (h : ∀ y, (f y).counters = y.counters) :
    x.Keeps (x.modLane l f) := by
  refine ⟨rfl, rfl, fun k => ?_⟩
  by_cases hk : l = k
  · subst hk; simp [h]
  · simp [hk]

/-! ### What the state may become -/

/-- What the shared operations can do to the state, one change after another. -/
inductive Moves (w : Bool) (s : State) : State → Prop
  | refl : Moves w s s
  | port {t : State} (p : PortIx) (x : Port) (h : Moves w s t) (k : Port.mayBecome w (t.plan.resolve p) (t.port p) x) :
      Moves w s (t.setPort p x)
  | ports {t : State} (f : PortIx → Port → Port) (h : Moves w s t)
      (k : ∀ p, Port.mayBecome w (t.plan.resolve p) (t.port p) (f p (t.port p))) : Moves w s (t.mapPorts f)
  | esu {t : State} (e : Esu) (h : Moves w s t) : Moves w s (t.setEsu e)
  | post {t : State} (r : Report) (h : Moves w s t) (k : r.kind ≠ .listOverflow) : Moves w s (t.post r)
  | defer {t : State} (r : Report) (h : Moves w s t) (k : r.kind ≠ .listOverflow) : Moves w s (t.deferReport r)
  | free {t : State} (h : Moves w s t) : Moves w s t.useFree

variable {w : Bool} {s t u : State}

theorem Moves.trans (h : Moves w s t) (k : Moves w t u) : Moves w s u := by
  induction k with
  | refl => exact h
  | port p x _ hx ih => exact ih.port p x hx
  | ports f _ hf ih => exact ih.ports f hf
  | esu e _ ih => exact ih.esu e
  | post r _ hr ih => exact ih.post r hr
  | defer r _ hr ih => exact ih.defer r hr
  | free _ ih => exact ih.free

theorem Moves.widen (h : Moves false s t) : Moves w s t := by
  have cw : ∀ {m c d}, Counter.mayBecome false m c d → Counter.mayBecome w m c d := by
    intro m c d hc
    rcases hc with hc | hc | hc | ⟨hc, -⟩
    · exact .inl hc
    · exact .inr (.inl hc)
    · exact .inr (.inr (.inl hc))
    · cases hc
  have pw : ∀ {n x y}, Port.mayBecome false n x y → Port.mayBecome w n x y := fun hx =>
    ⟨hx.snapshot, fun i => cw (hx.counters i), fun l i => cw (hx.lanes l i)⟩
  induction h with
  | refl => exact .refl
  | port p x _ hx ih => exact ih.port p x (pw hx)
  | ports f _ hf ih => exact ih.ports f fun p => pw (hf p)
  | esu e _ ih => exact ih.esu e
  | post r _ hr ih => exact ih.post r hr
  | defer r _ hr ih => exact ih.defer r hr
  | free _ ih => exact ih.free

/-! ### What no move changes -/

theorem Moves.plan (h : Moves w s t) : t.plan = s.plan := by induction h <;> simp_all
theorem Moves.mpt (h : Moves w s t) : t.mpt = s.mpt := by induction h <;> simp_all
theorem Moves.time (h : Moves w s t) : t.time = s.time := by induction h <;> simp_all
theorem Moves.settings (h : Moves w s t) : t.settings = s.settings := by induction h <;> simp_all
theorem Moves.identity (h : Moves w s t) : t.identity = s.identity := by induction h <;> simp_all
theorem Moves.countdown (h : Moves w s t) : t.countdown = s.countdown := by induction h <;> simp_all
theorem Moves.pending (h : Moves w s t) : t.pending = s.pending := by induction h <;> simp_all
theorem Moves.attn (h : Moves w s t) : t.attn = s.attn := by induction h <;> simp_all

/-- No report kept back is a LIST_OVERFLOW, where none was. -/
theorem Moves.deferred (h : Moves w s t) (k : ∀ r ∈ s.deferred, r.kind ≠ .listOverflow) :
    ∀ r ∈ t.deferred, r.kind ≠ .listOverflow := by
  induction h with
  | defer r _ hr ih => intro q hq; simp only [State.deferReport_deferred, List.mem_append, List.mem_singleton] at hq; rcases hq with hq | rfl <;> simp_all
  | _ => simp_all

/-! ### Steps as moves -/

theorem Moves.keep (p : PortIx) {x : Port} (h : Moves w s t) (k : (t.port p).Keeps x) : Moves w s (t.setPort p x) :=
  h.port p x (k.mayBecome w _)

theorem Moves.modPort (s : State) (p : PortIx) {f : Port → Port} (k : (s.port p).Keeps (f (s.port p))) : Moves w s (s.modPort p f) :=
  Moves.refl.keep p k

theorem Moves.modLane (s : State) (p : PortIx) (l : LanePos) {f : Lane → Lane} (k : ∀ y, (f y).counters = y.counters) :
    Moves w s (s.modLane p l f) := Moves.modPort s p (.modLane _ l k)

theorem Moves.foldl {α : Type} {f : State → α → State} (xs : List α) (h : ∀ t a, Moves w t (f t a)) (s : State) :
    Moves w s (xs.foldl f s) := by
  induction xs generalizing s with
  | nil => exact .refl
  | cons a xs ih => exact (h s a).trans (ih (f s a))

theorem State.postPort_moves (s : State) (p : PortIx) (d : Detail) (h : d.kind ≠ .listOverflow) : Moves w s (s.postPort p d) :=
  Moves.refl.post _ h

theorem State.postLane_moves (s : State) (p : PortIx) (l : LanePos) (d : Detail) (h : d.kind ≠ .listOverflow) :
    Moves w s (s.postLane p l d) := Moves.refl.post _ h

theorem State.setEsu_moves (s : State) (e : Esu) : Moves w s (s.setEsu e) := Moves.refl.esu e

theorem State.countLane_moves (s : State) (p : PortIx) (l : LanePos) (i : Fin 7) (a : Nat) : Moves w s (s.countLane p l i a) := by
  have hp : Port.mayBecome w (s.plan.resolve p) (s.port p) ((s.port p).modLane l fun x =>
      { x with counters := x.counters.set i ((s.lane p l).counters[i].bump (laneCounterMax i) a) }) := by
    refine ⟨.inl rfl, fun j => .inl rfl, fun k j => ?_⟩
    by_cases hk : l = k
    · subst hk
      by_cases hj : i = j
      · subst hj; simp [State.lane, Counter.mayBecome_bump]
      · have : (i : Nat) ≠ j := fun h => hj (Fin.ext h)
        simp [Counter.mayBecome, this]
    · simp [hk, Counter.mayBecome_refl]
  have hm : Moves w s (s.modLane p l fun x =>
      { x with counters := x.counters.set i ((s.lane p l).counters[i].bump (laneCounterMax i) a) }) := Moves.refl.port p _ hp
  unfold State.countLane
  dsimp only
  split
  · exact hm.defer _ (by simp [Report.kind, Detail.kind])
  · exact hm

theorem State.countPort_moves (s : State) (p : PortIx) (i : Fin 3) : Moves w s (s.countPort p i) := by
  have hp : Port.mayBecome w (s.plan.resolve p) (s.port p)
      { s.port p with counters := (s.port p).counters.set i ((s.port p).counters[i].bump shortCounterMax 1) } := by
    refine ⟨.inl rfl, fun j => ?_, fun k j => .inl rfl⟩
    by_cases hj : i = j
    · subst hj; simp [Counter.mayBecome_bump]
    · have : (i : Nat) ≠ j := fun h => hj (Fin.ext h)
      simp [Counter.mayBecome, this]
  have hm := Moves.refl.port p _ hp
  unfold State.countPort
  dsimp only [State.modPort_eq]
  split
  · exact hm.defer _ (by simp [Report.kind, Detail.kind])
  · exact hm

end Sys2Proof.Machine
end

