-- ==== Sys2Proof/Laws/Operations.lean ====
section
/-! SUPPORT. Every shared operation on ports and lanes is a move: one lemma each. -/

namespace Sys2Proof.Machine

variable {w : Bool}

/-! ### Changes of a port record -/

theorem Port.mayBecome.then {n : Snapshot} {x y z : Port} (h : Port.mayBecome w n x y) (k : y.Keeps z) : Port.mayBecome w n x z where
  snapshot := by rw [k.snapshot]; exact h.snapshot
  counters i := by rw [k.counters]; exact h.counters i
  lanes l i := by rw [k.lanes]; exact h.lanes l i

theorem Port.Keeps.then {n : Snapshot} {x y z : Port} (h : x.Keeps y) (k : Port.mayBecome w n y z) : Port.mayBecome w n x z where
  snapshot := by rw [← h.snapshot]; exact k.snapshot
  counters i := by rw [← h.counters]; exact k.counters i
  lanes l i := by rw [← h.lanes]; exact k.lanes l i

theorem Lane.takeBack_counters (y : Lane) : y.takeBack.counters = y.counters := by unfold Lane.takeBack; split <;> rfl

theorem Lane.listen_counters (y : Lane) (on : Bool) : (y.listen on).counters = y.counters := by
  unfold Lane.listen; split
  · rfl
  · split <;> rfl

theorem Port.relisten_keeps (x : Port) : x.Keeps x.relisten := .mapLanes _ fun _ y => y.listen_counters _

theorem Port.sync_keeps (x : Port) : x.Keeps x.sync := .mapLanes _ fun _ _ => rfl

/-- The rest of a record that no counter and no snapshot stands in. -/
theorem Port.Keeps.fields {x y : Port} (h : y.snapshot = x.snapshot) (k : y.counters = x.counters) (m : y.lanes = x.lanes) : x.Keeps y :=
  ⟨h, k, fun l => by simp [Port.lane, m]⟩

theorem Port.undo_keeps (x : Port) : x.Keeps x.undo :=
  ⟨rfl, rfl, fun l => by
    unfold Port.undo; rw [Port.mapLanes_lane]
    split <;> exact (Port.lane _ l).takeBack_counters⟩

theorem Port.giveLanes_keeps (x : Port) : x.Keeps x.giveLanes := .mapLanes _ fun l y => by split <;> rfl

theorem Port.loopEntered_keeps (x : Port) : x.Keeps x.loopEntered := by unfold Port.loopEntered; split <;> exact ⟨rfl, rfl, fun _ => rfl⟩

theorem Port.loopLeft_keeps (x : Port) (g : Settings) : x.Keeps (x.loopLeft g) := by
  unfold Port.loopLeft; split <;> exact ⟨rfl, rfl, fun _ => rfl⟩

theorem Port.toDiscover_mayBecome (x : Port) (n : Snapshot) (g : Settings) : Port.mayBecome w n x (x.toDiscover n g) :=
  ⟨.inr (.inr rfl), fun _ => .inl rfl, fun _ _ => .inl rfl⟩

theorem Port.blockReset_mayBecome (n : Snapshot) (x : Port) : Port.mayBecome true n x x.blockReset where
  snapshot := .inr (.inl rfl)
  counters i := by simpa [Port.blockReset] using Counter.mayBecome_zero _ _
  lanes l i := by simpa [Port.blockReset] using Counter.mayBecome_zero _ _

/-! ### Lanes and loops -/

theorem State.syncPort_moves (s : State) (p : PortIx) : Moves w s (s.syncPort p) := .modPort s p (Port.sync_keeps _)

theorem State.judgeLoop_moves (s : State) (p : PortIx) (l : LanePos) : Moves w s (s.judgeLoop p l) := by
  unfold State.judgeLoop
  split
  · exact .refl
  · split
    · refine Moves.trans ?_ (.modPort _ p (Port.loopEntered_keeps _))
      refine Moves.trans ?_ (State.postLane_moves _ _ _ .loopEntered nofun)
      exact Moves.modLane s p l fun _ => rfl
    · refine Moves.trans ?_ (.modPort _ p (Port.loopLeft_keeps _ _))
      refine Moves.trans ?_ (State.postLane_moves _ _ _ .loopLeft nofun)
      exact Moves.modLane s p l fun _ => rfl

theorem State.endLoops_moves (s : State) (p : PortIx) : Moves w s (s.endLoops p) := by
  unfold State.endLoops
  refine Moves.foldl _ (fun t l => ?_) s
  split
  · refine Moves.trans ?_ (State.postLane_moves _ _ _ .loopLeft nofun)
    exact Moves.modLane t p l fun _ => rfl
  · exact .refl

theorem State.judgeLoops_moves (s : State) (p : PortIx) : Moves w s (s.judgeLoops p) :=
  Moves.foldl _ (fun t l => t.judgeLoop_moves p l) s

/-! ### Changes of state -/

theorem State.abortSweep_moves (s : State) (p : PortIx) : Moves w s (s.abortSweep p) := by
  unfold State.abortSweep; split
  · exact s.setEsu_moves _
  · exact .refl

theorem State.dequeue_moves (s : State) (p : PortIx) : Moves w s (s.dequeue p) := s.setEsu_moves _

theorem State.undo_moves (s : State) (p : PortIx) : Moves w s (s.undo p) := by
  unfold State.undo
  dsimp only
  split
  · refine Moves.trans ?_ (.modPort _ p (Port.undo_keeps _))
    refine Moves.trans ?_ (State.endLoops_moves _ p)
    exact s.abortSweep_moves p
  · refine Moves.trans ?_ (.modPort _ p (Port.undo_keeps _))
    refine Moves.trans ?_ (State.endLoops_moves _ p)
    exact s.dequeue_moves p
  · refine Moves.trans ?_ (.modPort _ p (Port.undo_keeps _))
    exact State.endLoops_moves _ p

/-- A transition is a move, where the change it makes to the record is one. -/
theorem State.transition_moves (s : State) (p : PortIx) (new : PortState) {f : Port → Port}
    (h : ∀ x, Port.mayBecome w (s.plan.resolve p) x (f x)) : Moves w s (s.transition p new f) := by
  have hu := s.undo_moves (w := w) p
  have hm : Moves w s ((s.undo p).modPort p fun x => Port.relisten { f x with state := new }) := by
    refine hu.port p _ ?_
    rw [hu.plan]
    have k : ∀ x : Port, x.Keeps { x with state := new } := fun x => .fields rfl rfl rfl
    exact ((h _).then (k _)).then (Port.relisten_keeps { f _ with state := new })
  unfold State.transition
  refine Moves.trans ?_ (State.syncPort_moves _ p)
  refine Moves.trans ?_ (State.judgeLoops_moves _ p)
  refine Moves.trans ?_ (State.postPort_moves _ _ _ (by simp [Port.stateDetail, Detail.kind]))
  exact hm

/-- A transition whose change of the record leaves snapshot, counters and lanes alone is a move. -/
theorem State.transition_moves' (s : State) (p : PortIx) (new : PortState) {f : Port → Port} (h : ∀ x : Port, x.Keeps (f x)) :
    Moves w s (s.transition p new f) := s.transition_moves p new fun x => (h x).mayBecome w _

theorem State.grantTo_moves (s : State) (p : PortIx) (c : ChanIx) : Moves w s (s.grantTo p c) := by
  unfold State.grantTo
  refine Moves.trans ?_ (State.transition_moves' _ p _ fun _ => .fields rfl rfl rfl)
  exact s.setEsu_moves _

theorem State.grant_moves (s : State) : Moves w s s.grant := by
  unfold State.grant; split
  · split
    · exact s.grantTo_moves _ _
    · exact .refl
  · exact .refl

theorem State.grantTest_moves (s : State) : Moves w s s.grantTest := by
  unfold State.grantTest
  refine Moves.trans ?_ (State.grant_moves _)
  refine Moves.trans ?_ (State.grant_moves _)
  refine Moves.trans ?_ (State.grant_moves _)
  exact s.grant_moves

theorem State.afterAbort_moves (s : State) (z : PortState) : Moves w s (s.afterAbort z) := by
  unfold State.afterAbort; split
  · exact s.grantTest_moves
  · exact .refl

theorem State.enterPaused_moves (s : State) (p : PortIx) (g : PendingStage) : Moves w s (s.enterPaused p g) := by
  unfold State.enterPaused
  refine Moves.trans ?_ (State.transition_moves' _ p _ fun _ => .fields rfl rfl rfl)
  exact s.postPort_moves p _ (by simp [Detail.kind])

theorem State.joinQueue_moves (s : State) (p : PortIx) : Moves w s (s.joinQueue p) := s.setEsu_moves _

theorem State.countAttempt_moves (s : State) (p : PortIx) : Moves w s (s.countAttempt p) := by
  unfold State.countAttempt; split
  · exact s.countPort_moves p _
  · exact .refl

theorem State.enterAwaitSlot_moves (s : State) (p : PortIx) : Moves w s (s.enterAwaitSlot p) := by
  unfold State.enterAwaitSlot
  refine Moves.trans ?_ (State.grantTest_moves _)
  refine Moves.trans ?_ (State.countAttempt_moves _ p)
  refine Moves.trans ?_ (State.joinQueue_moves _ p)
  exact s.transition_moves' p _ fun x => .refl x

theorem State.toAwaitSlot_moves (s : State) (p : PortIx) : Moves w s (s.toAwaitSlot p) := by
  unfold State.toAwaitSlot; split
  · exact s.enterPaused_moves p _
  · exact s.enterAwaitSlot_moves p

theorem State.peerTest_moves (s : State) (p : PortIx) : Moves w s (s.peerTest p) := by
  unfold State.peerTest; split
  · exact s.toAwaitSlot_moves p
  · exact .refl

theorem State.enterPeerWait_moves (s : State) (p : PortIx) : Moves w s (s.enterPeerWait p) := by
  unfold State.enterPeerWait
  refine Moves.trans ?_ (State.peerTest_moves _ p)
  exact s.transition_moves' p _ fun _ => .fields rfl rfl rfl

theorem State.toPeerWait_moves (s : State) (p : PortIx) : Moves w s (s.toPeerWait p) := by
  unfold State.toPeerWait; split
  · exact s.enterPaused_moves p _
  · exact s.enterPeerWait_moves p

theorem State.windowTest_moves (s : State) (p : PortIx) : Moves w s (s.windowTest p) := by
  unfold State.windowTest; split
  · refine Moves.trans ?_ (State.syncPort_moves _ p)
    exact Moves.modPort s p (.fields rfl rfl rfl)
  · exact .refl

theorem State.enterQualify_moves (s : State) (p : PortIx) : Moves w s (s.enterQualify p) := by
  unfold State.enterQualify
  refine Moves.trans ?_ (State.windowTest_moves _ p)
  exact s.transition_moves' p _ fun _ => .fields rfl rfl rfl

theorem State.toQualify_moves (s : State) (p : PortIx) : Moves w s (s.toQualify p) := by
  unfold State.toQualify; split
  · exact s.enterPaused_moves p _
  · exact s.enterQualify_moves p

theorem State.enterHandover_moves (s : State) (p : PortIx) : Moves w s (s.enterHandover p) :=
  s.transition_moves' p _ fun _ => .fields rfl rfl rfl

theorem State.toHandover_moves (s : State) (p : PortIx) : Moves w s (s.toHandover p) := by
  unfold State.toHandover; split
  · exact s.enterPaused_moves p _
  · exact s.enterHandover_moves p

theorem State.enterActive_moves (s : State) (p : PortIx) : Moves w s (s.enterActive p) :=
  by
  refine s.transition_moves' p _ fun x => ?_
  have h : x.Keeps { x with attempts := 0, cleanRun := some Config.cleanRunMs } := .fields rfl rfl rfl
  exact h.trans (Port.giveLanes_keeps _)

theorem State.enterFaulted_moves (s : State) (p : PortIx) (r : FaultReason) : Moves w s (s.enterFaulted p r) := by
  unfold State.enterFaulted
  refine Moves.trans ?_ (State.afterAbort_moves _ _)
  refine Moves.trans ?_ (State.countPort_moves _ p _)
  refine Moves.trans ?_ (State.transition_moves' _ p _ fun _ => .fields rfl rfl rfl)
  exact s.postPort_moves p _ (by simp [Detail.kind])

theorem State.failedAttempt_moves (s : State) (p : PortIx) (r : FaultReason) : Moves w s (s.failedAttempt p r) := by
  have h : Moves w s (s.modPort p fun x => { x with attempts := x.attempts + 1 }) := .modPort s p (.fields rfl rfl rfl)
  unfold State.failedAttempt
  dsimp only
  split
  · refine Moves.trans ?_ (State.enterFaulted_moves _ p r)
    exact h
  · refine Moves.trans ?_ (State.toAwaitSlot_moves _ p)
    exact h

theorem State.reduceWidth_moves (s : State) (p : PortIx) (c : WidthCause) : Moves w s (s.reduceWidth p c) := by
  unfold State.reduceWidth
  refine Moves.trans ?_ (State.syncPort_moves _ p)
  refine Moves.trans ?_ (.modPort _ p (.fields rfl rfl rfl))
  exact s.postPort_moves p _ (by simp [Detail.kind])

theorem State.enterVerified_moves (s : State) (p : PortIx) : Moves w s (s.enterVerified p) :=
  s.transition_moves' p _ fun x => .refl x

theorem State.enterConsult_moves (s : State) (p : PortIx) (n : Snapshot) : Moves w s (s.enterConsult p n) := by
  unfold State.enterConsult
  refine Moves.trans ?_ (State.transition_moves' _ p _ fun _ => .fields rfl rfl rfl)
  exact s.postPort_moves p _ (by simp [Port.consultDetail, Detail.kind])

theorem State.byMode_moves (s : State) (p : PortIx) : Moves w s (s.byMode p) := by
  unfold State.byMode; split
  · exact s.enterVerified_moves p
  · exact s.toPeerWait_moves p

theorem State.decide8_moves (s : State) (p : PortIx) (n : Snapshot) (v : Option Verdict) (m : Vector MapEntry 8 × MapClass × Width) :
    Moves w s (s.decide8 p n v m) := by
  have h : Moves w s (s.modPort p fun x => { x with map := m.1, mapClass := some m.2.1, width := some m.2.2 }) :=
    .modPort s p (.fields rfl rfl rfl)
  unfold State.decide8
  dsimp only
  split
  · refine Moves.trans ?_ (State.enterConsult_moves _ p n)
    exact h
  · refine Moves.trans ?_ (State.byMode_moves _ p)
    exact h

theorem State.derivation_moves (s : State) (p : PortIx) : Moves w s (s.derivation p) := by
  unfold State.derivation
  split
  · exact .refl
  · rename_i n _
    have h : Moves w s (s.modPort p fun x =>
        { x with neighbour := (derive n (s.port p).usables).neighbour, verdict := (derive n (s.port p).usables).verdict }) :=
      .modPort s p (.fields rfl rfl rfl)
    dsimp only
    split
    · refine Moves.trans ?_ (State.enterFaulted_moves _ p _)
      exact h
    · refine Moves.trans ?_ (State.decide8_moves _ p _ _ _)
      exact h

theorem State.discoveryTest_moves (s : State) (p : PortIx) : Moves w s (s.discoveryTest p) := by
  unfold State.discoveryTest; split
  · exact s.derivation_moves p
  · exact .refl

theorem State.darkTest_moves (s : State) (p : PortIx) : Moves w s (s.darkTest p) := by
  unfold State.darkTest; split
  · exact s.enterFaulted_moves p _
  · exact .refl

theorem State.enterDiscover_moves (s : State) (p : PortIx) : Moves w s (s.enterDiscover p) := by
  unfold State.enterDiscover
  refine Moves.trans ?_ (State.darkTest_moves _ p)
  refine Moves.trans ?_ (State.discoveryTest_moves _ p)
  refine Moves.trans ?_ (State.afterAbort_moves _ _)
  exact s.transition_moves p _ fun x => Port.toDiscover_mayBecome x _ _

theorem State.stopPort_moves (s : State) (p : PortIx) : Moves w s (s.stopPort p) := by
  unfold State.stopPort; split
  · exact .refl
  · exact s.transition_moves' p _ fun _ => .fields rfl rfl rfl

theorem State.resetPort_moves (s : State) (p : PortIx) : Moves true s (s.resetPort p) := by
  unfold State.resetPort
  refine Moves.trans ?_ (Moves.refl.port p _ (Port.blockReset_mayBecome _ _))
  exact s.stopPort_moves p

/-! ### Sweeps -/

theorem State.setSweep_moves (s : State) (c : ChanIx) (v : Sweep) : Moves w s (s.setSweep c v) := s.setEsu_moves _

theorem State.sweepOutcome_moves (s : State) (p : PortIx) (ys : List SweepLane) : Moves w s (s.sweepOutcome p ys) := by
  unfold State.sweepOutcome; split
  · exact s.toQualify_moves p
  · split
    · refine Moves.trans ?_ (State.toQualify_moves _ p)
      exact s.reduceWidth_moves p _
    · exact s.failedAttempt_moves p _

theorem State.endSweep_moves (s : State) (c : ChanIx) (v : Sweep) (d : Detail) (h : d.kind ≠ .listOverflow) :
    Moves w s (s.endSweep c v d) := by
  unfold State.endSweep
  refine Moves.trans ?_ (State.grantTest_moves _)
  refine Moves.trans ?_ (State.sweepOutcome_moves _ _ _)
  refine Moves.trans ?_ (State.postPort_moves _ _ d h)
  exact s.setEsu_moves _

theorem State.writeGains_moves (s : State) (v : Sweep) : Moves w s (s.writeGains v) := by
  unfold State.writeGains
  refine Moves.foldl _ (fun t y => ?_) s
  split
  · exact .modLane t _ _ fun _ => rfl
  · exact .refl

theorem State.completeSweep_moves (s : State) (c : ChanIx) (v : Sweep) : Moves w s (s.completeSweep c v) := by
  unfold State.completeSweep
  refine Moves.trans ?_ (State.endSweep_moves _ c v _ (by simp [Detail.kind]))
  exact s.writeGains_moves v

theorem State.watchdog_moves (s : State) (c : ChanIx) : Moves w s (s.watchdog c) := by
  unfold State.watchdog; split
  · exact .refl
  · exact s.endSweep_moves c _ _ (by simp [Detail.kind])

theorem State.sweepBeacon_moves (s : State) (p : PortIx) (l : LanePos) : Moves w s (s.sweepBeacon p l) := by
  unfold State.sweepBeacon; split
  · exact .refl
  · dsimp only; split
    · exact s.completeSweep_moves _ _
    · exact s.setSweep_moves _ _

theorem State.sweepFigure_moves (s : State) (p : PortIx) (l : LanePos) (n : Nat) (g : Byte) : Moves w s (s.sweepFigure p l n g) := by
  unfold State.sweepFigure; split
  · exact .refl
  · split
    · exact s.setSweep_moves _ _
    · exact .refl

theorem State.sendBack_moves (s : State) (p : PortIx) : Moves w s (s.sendBack p) := by
  unfold State.sendBack; split
  · exact s.enterPaused_moves p _
  · exact s.transition_moves' p _ fun x => .refl x

/-! ### Lane events -/

theorem State.takeRetrain_moves (s : State) (p : PortIx) (l : LanePos) (c : RetrainCause) (v : Option (RetrainWindow × List Bool)) :
    Moves w s (s.takeRetrain p l c v) := by
  unfold State.takeRetrain; split
  · exact s.enterFaulted_moves p _
  · dsimp only
    refine Moves.trans ?_ (State.toAwaitSlot_moves _ p)
    refine Moves.trans ?_ (.modPort _ p (.fields rfl rfl rfl))
    refine Moves.trans ?_ (State.postPort_moves _ p _ (by simp [Detail.kind]))
    refine Moves.trans ?_ (State.countPort_moves _ p _)
    exact Moves.modPort s p (.fields rfl rfl rfl)

theorem State.discoverEvent_moves (s : State) (p : PortIx) (l : LanePos) (e : LaneEvent) : Moves w s (s.discoverEvent p l e) := by
  unfold State.discoverEvent
  split
  · exact s.discoveryTest_moves p
  · exact s.discoveryTest_moves p
  · split
    · exact .modPort s p (.fields rfl rfl rfl)
    · exact .refl
  all_goals exact .refl

theorem State.darkEvent_moves (s : State) (p : PortIx) (l : LanePos) (e : LaneEvent) : Moves w s (s.darkEvent p l e) := by
  unfold State.darkEvent
  split
  · split
    · exact .refl
    · exact s.enterFaulted_moves p _
  · exact .refl

theorem State.withdraw_moves (s : State) (p : PortIx) (l : LanePos) (e : WithdrawEvent) : Moves w s (s.withdraw p l e) := by
  unfold State.withdraw
  refine Moves.trans ?_ (State.enterDiscover_moves _ p)
  exact s.postLane_moves p l _ (by simp [Detail.kind])

theorem State.consultEvent_moves (s : State) (p : PortIx) (l : LanePos) (e : LaneEvent) : Moves w s (s.consultEvent p l e) := by
  unfold State.consultEvent
  split
  · split
    · exact s.withdraw_moves p l _
    · exact .refl
  · split
    · exact s.withdraw_moves p l _
    · exact .refl
  · split
    · exact s.withdraw_moves p l _
    · exact .refl
  all_goals exact .refl

theorem State.lostEvent_moves (s : State) (p : PortIx) (l : LanePos) (e : LaneEvent) : Moves w s (s.lostEvent p l e) := by
  unfold State.lostEvent
  split
  · refine Moves.trans ?_ (State.enterDiscover_moves _ p)
    exact s.postLane_moves p l _ (by simp [Detail.kind])
  · refine Moves.trans ?_ (State.enterDiscover_moves _ p)
    exact s.postLane_moves p l _ (by simp [Detail.kind])
  all_goals exact .refl

theorem State.huntEvent_moves (s : State) (p : PortIx) (l : LanePos) (e : LaneEvent) : Moves w s (s.huntEvent p l e) := by
  unfold State.huntEvent
  split
  · refine Moves.trans ?_ (State.enterDiscover_moves _ p)
    exact s.postLane_moves p l _ (by simp [Detail.kind])
  · exact .refl

theorem State.laneEvent_moves (s : State) (p : PortIx) (l : LanePos) (e : LaneEvent) : Moves w s (s.laneEvent p l e) := by
  unfold State.laneEvent
  split <;> first
    | exact .refl
    | exact s.darkEvent_moves p l e
    | exact s.consultEvent_moves p l e
    | split <;> first
      | exact .refl
      | exact s.discoverEvent_moves p l e
      | exact s.darkEvent_moves p l e
      | exact s.lostEvent_moves p l e
      | exact s.huntEvent_moves p l e

theorem State.farEndEvent_moves (s : State) (p : PortIx) (l : LanePos) (b : Beacon) (g : Option Stage) :
    Moves w s (s.farEndEvent p l b g) := by
  unfold State.farEndEvent
  dsimp only
  split
  · exact s.enterFaulted_moves p _
  · split
    · exact s.peerTest_moves p
    · split
      · exact s.enterDiscover_moves p
      · exact .refl
    · split
      · exact s.enterDiscover_moves p
      · exact .refl
    · split
      · exact s.enterDiscover_moves p
      · exact .refl
    · split
      · exact s.enterDiscover_moves p
      · split
        · split
          · exact s.failedAttempt_moves p _
          · exact .refl
        · exact s.windowTest_moves p
    · split
      · exact s.enterDiscover_moves p
      · split
        · exact s.failedAttempt_moves p _
        · exact .modPort s p (.fields rfl rfl rfl)
    · exact .refl

theorem State.farTests_moves (s : State) (p : PortIx) (l : LanePos) (b : Beacon) (g : Option Stage) :
    Moves w s (s.farTests p l b g) := by
  unfold State.farTests
  split <;> first
    | exact .refl
    | split <;> first
      | exact .refl
      | exact s.farEndEvent_moves p l b g
      | exact s.takeRetrain_moves p l _ _

theorem State.reportChange_moves (s : State) (p : PortIx) (l : LanePos) (e : LaneEvent) : Moves w s (s.reportChange p l e) := by
  unfold State.reportChange; split
  · exact s.postLane_moves p l _ (by simp [Detail.kind])
  · exact .refl

theorem State.loopCheck_moves (s : State) (p : PortIx) (l : LanePos) : Moves w s (s.loopCheck p l) := by
  unfold State.loopCheck; split
  · refine Moves.trans ?_ (State.discoveryTest_moves _ p)
    exact s.judgeLoop_moves p l
  · exact s.judgeLoop_moves p l

theorem State.handEvents_moves (s : State) (p : PortIx) (l : LanePos) (es : List LaneEvent) : Moves w s (s.handEvents p l es) := by
  unfold State.handEvents
  refine Moves.trans ?_ (Moves.foldl es (fun t e => t.laneEvent_moves p l e) _)
  refine Moves.trans ?_ (State.loopCheck_moves _ p l)
  exact Moves.foldl es (fun t e => t.reportChange_moves p l e) s

theorem Lane.received_counters (y : Lane) (c : Bool) (t : Option Taps) (r : Receiver) (near : Bool) (k : PatternLock) (q : Polarity) :
    ((if c then y.honour t else y).received r near k q).counters = y.counters := by
  unfold Lane.received Lane.honour; split <;> (try split) <;> rfl

theorem State.receiveGood_moves (s : State) (p : PortIx) (l : LanePos) (b : Beacon) (pol : Polarity) :
    Moves w s (s.receiveGood p l b pol) := by
  have h : Moves w s ((((s.countLane p l ctrBeaconGood 1).modLane p l fun y =>
      (if (s.port p).honoursTaps then y.honour b.tap else y).received (((s.port p).lane l).rx.good b pol).1
        ((s.port p).nearEnd l) ((s.port p).lock l) ((s.port p).correctionAfter l (((s.port p).lane l).rx.good b pol).1))).handEvents p l (((s.port p).lane l).rx.good b pol).2) := by
    refine Moves.trans ?_ (State.handEvents_moves _ p l _)
    refine Moves.trans ?_ (.modLane _ p l fun y => y.received_counters _ _ _ _ _ _)
    exact s.countLane_moves p l _ 1
  unfold State.receiveGood
  dsimp only
  by_cases hc : ((((s.countLane p l ctrBeaconGood 1).modLane p l fun y =>
      (if (s.port p).honoursTaps then y.honour b.tap else y).received (((s.port p).lane l).rx.good b pol).1
        ((s.port p).nearEnd l) ((s.port p).lock l) ((s.port p).correctionAfter l (((s.port p).lane l).rx.good b pol).1)).handEvents p l (((s.port p).lane l).rx.good b pol).2).port p).state = (s.port p).state
  · rw [if_pos hc]
    exact h.trans (State.farTests_moves _ p l b _)
  · rw [if_neg hc]
    exact h

theorem State.readyLost_moves (s : State) (p : PortIx) (l : LanePos) : Moves w s (s.readyLost p l) := by
  unfold State.readyLost; split
  · exact .modPort s p (.fields rfl rfl rfl)
  · exact .refl

theorem State.receiveBad_moves (s : State) (p : PortIx) (l : LanePos) : Moves w s (s.receiveBad p l) := by
  unfold State.receiveBad
  dsimp only
  refine Moves.trans ?_ (State.handEvents_moves _ p l _)
  refine Moves.trans ?_ (State.readyLost_moves _ p l)
  refine Moves.trans ?_ (.modLane _ p l fun _ => rfl)
  exact s.countLane_moves p l ctrBeaconBad 1

theorem State.receive_moves (s : State) (p : PortIx) (l : LanePos) (c : Classed) : Moves w s (s.receive p l c) := by
  cases c with
  | nothing => exact .refl
  | bad => exact s.receiveBad_moves p l
  | good b pol => exact s.receiveGood_moves p l b pol

theorem State.silence_moves (s : State) (p : PortIx) (l : LanePos) : Moves w s (s.silence p l) := by
  unfold State.silence
  refine Moves.trans ?_ (State.handEvents_moves _ p l _)
  exact Moves.modLane s p l fun _ => rfl

/-! ### Qualification -/

theorem State.takeOutcome_moves (s : State) (p : PortIx) (o : QualOutcome) : Moves w s (s.takeOutcome p o) := by
  cases o with
  | handover => exact s.toHandover_moves p
  | halfHandover => exact (s.reduceWidth_moves p _).trans (State.toHandover_moves _ p)
  | failedAttempt => exact s.failedAttempt_moves p _

theorem State.endWindow_moves (s : State) (p : PortIx) (n : PlanEntry) (q : QualRecord) (d : Option (LanePos × LanePos)) :
    Moves w s (s.endWindow p n q d) := by
  unfold State.endWindow
  refine Moves.trans ?_ (State.takeOutcome_moves _ p _)
  exact s.postPort_moves p _ (by simp [Detail.kind])

theorem State.afterBlock_moves (s : State) (p : PortIx) (n : PlanEntry) (q : QualRecord) (e : QualEntry) :
    Moves w s (s.afterBlock p n q e) := by
  unfold State.afterBlock; split
  · refine Moves.trans ?_ (State.endWindow_moves _ p _ _ _)
    exact Moves.modPort s p (.fields rfl rfl rfl)
  · split
    · refine Moves.trans ?_ (State.endWindow_moves _ p _ _ _)
      exact Moves.modPort s p (.fields rfl rfl rfl)
    · exact .modPort s p (.fields rfl rfl rfl)

theorem State.qualifyBlock_moves (s : State) (p : PortIx) (l : LanePos) (n : Nat) : Moves w s (s.qualifyBlock p l n) := by
  unfold State.qualifyBlock
  split
  · split
    · split
      · exact s.afterBlock_moves p _ _ _
      · exact .refl
    · exact .refl
  · exact .refl

theorem Port.nextBlock_keeps (x : Port) (l : LanePos) : x.Keeps (x.nextBlock l) := .modLane x l fun _ => rfl

theorem State.countBlock_moves (s : State) (p : PortIx) (l : LanePos) (n : Nat) : Moves w s (s.countBlock p l n) := by
  have h : Moves w s (((s.modPort p (·.nextBlock l)).countLane p l ctrPrbsErr n).countLane p l ctrPrbsBlocks 1) := by
    refine Moves.trans ?_ (State.countLane_moves _ p l _ _)
    refine Moves.trans ?_ (State.countLane_moves _ p l _ _)
    exact Moves.modPort s p (Port.nextBlock_keeps _ l)
  unfold State.countBlock
  dsimp only
  split
  · exact h.trans (State.qualifyBlock_moves _ p l n)
  · exact h

/-! ### Monitoring -/

theorem State.judgePeriod_moves (s : State) (p : PortIx) (l : LanePos) : Moves w s (s.judgePeriod p l) := by
  unfold State.judgePeriod
  split
  · dsimp only
    split
    · refine Moves.trans ?_ (State.countLane_moves _ p l _ _)
      exact Moves.modLane s p l fun _ => rfl
    · exact .modLane s p l fun _ => rfl
  · exact .refl

theorem State.takeTrigger_moves (s : State) (p : PortIx) (l : LanePos) : Moves w s (s.takeTrigger p l) := by
  unfold State.takeTrigger; split
  · exact s.takeRetrain_moves p l _ _
  · exact .refl

theorem State.takeTriggers_moves (n : Nat) (ks : List (PortIx × LanePos)) (s : State) : Moves w s (State.takeTriggers n ks s) := by
  induction n generalizing ks s with
  | zero => exact .refl
  | succ n ih =>
    match ks with
    | [] => exact .refl
    | [k] => exact s.takeTrigger_moves _ _
    | a :: b :: ks => exact (Moves.refl.free.trans (State.takeTrigger_moves _ _ _)).trans (ih _ _)

theorem State.linkLost_moves (s : State) (p : PortIx) (l : LanePos) (h : Hunt) : Moves w s (s.linkLost p l h) := by
  unfold State.linkLost
  refine Moves.trans ?_ (State.enterDiscover_moves _ p)
  exact s.postLane_moves p l _ (by simp [Detail.kind])

/-! ### Plan, requests and lane control -/

theorem State.driftCheck_moves (s : State) : Moves w s s.driftCheck := by
  unfold State.driftCheck
  refine Moves.foldl _ (fun t p => ?_) s
  split
  · rename_i d hd
    refine t.postPort_moves p d ?_
    simp only [driftDetail, Option.bind_eq_some_iff] at hd
    obtain ⟨_, _, hd⟩ := hd
    split at hd
    · cases hd; simp [Detail.kind]
    · cases hd
  · exact .refl

theorem State.startInto_moves (s : State) (p : PortIx) (m : Mode) : Moves w s (s.startInto p m) := by
  cases m with
  | manual => exact s.transition_moves' p _ fun x => .refl x
  | verify => exact s.enterDiscover_moves p
  | auto => show Moves w s (if _ then _ else _); split; exacts [s.toPeerWait_moves p, s.enterDiscover_moves p]
  | step => show Moves w s (if _ then _ else _); split; exacts [s.toPeerWait_moves p, s.enterDiscover_moves p]

theorem State.stepInto_moves (s : State) (p : PortIx) (g : Option PendingStage) : Moves w s (s.stepInto p g) := by
  match g with
  | none => exact .refl
  | some .peerWait => exact s.enterPeerWait_moves p
  | some .awaitSlot => exact s.enterAwaitSlot_moves p
  | some .qualify => exact s.enterQualify_moves p
  | some .handover => exact s.enterHandover_moves p

theorem State.takeAnswer_moves (s : State) (p : PortIx) (a : Bool) : Moves w s (s.takeAnswer p a) := by
  unfold State.takeAnswer; split
  · refine Moves.trans ?_ (State.byMode_moves _ p)
    exact Moves.modPort s p (.fields rfl rfl rfl)
  · exact s.enterFaulted_moves p _

theorem Lane.retap_counters (y : Lane) (q : Polarity) : (y.retap q).counters = y.counters := by unfold Lane.retap; split <;> rfl

theorem Port.storeControl_keeps (x : Port) (l : LanePos) (c : Control) : x.Keeps (x.storeControl l c) := by
  have h : x.Keeps (x.modLane l fun y => y.setControl c) := .modLane x l fun _ => rfl
  unfold Port.storeControl
  dsimp only
  refine Port.Keeps.trans ?_ (.modLane _ l fun y => y.retap_counters _)
  unfold Port.turnNearEnd
  split
  · exact h.trans (.modLane _ l fun _ => rfl)
  · split
    · exact h.trans (.modLane _ l fun _ => rfl)
    · exact h

theorem State.afterExclude_moves (s : State) (p : PortIx) (l : LanePos) : Moves w s (s.afterExclude p l) := by
  unfold State.afterExclude; split
  · exact s.withdraw_moves p l _
  · exact .refl

theorem State.afterInclude_moves (s : State) (p : PortIx) : Moves w s (s.afterInclude p) := by
  unfold State.afterInclude; split
  · exact s.discoveryTest_moves p
  · exact s.darkTest_moves p

theorem State.storeControl_moves (s : State) (p : PortIx) (l : LanePos) (c : Control) : Moves w s (s.storeControl p l c) := by
  have h : Moves w s (((s.modPort p (·.storeControl l c)).loopCheck p l).syncPort p) :=
    ((Moves.modPort s p (Port.storeControl_keeps _ l c)).trans (State.loopCheck_moves _ p l)).trans (State.syncPort_moves _ p)
  unfold State.storeControl
  dsimp only
  split
  · refine Moves.trans ?_ (State.afterExclude_moves _ p l)
    exact h
  · split
    · refine Moves.trans ?_ (State.afterInclude_moves _ p)
      exact h
    · exact h

/-! ### The line -/

theorem State.loopBack_moves (s : State) (p : PortIx) (l : LanePos) (bs : List Byte) : Moves w s (s.loopBack p l bs) := by
  unfold State.loopBack; split
  · exact .modLane s p l fun _ => rfl
  · exact .refl

theorem State.setLock_moves (s : State) (p : PortIx) (l : LanePos) (k : PatternLock) : Moves w s (s.setLock p l k) := by
  unfold State.setLock
  refine Moves.trans ?_ (State.syncPort_moves _ p)
  exact Moves.modLane s p l fun _ => rfl

theorem State.handBeacon_moves (s : State) (p : PortIx) (l : LanePos) : Moves w s (s.handBeacon p l) := by
  have h : Moves w s (s.modPort p fun x => { x with handover := x.handover.map (·.addSent l) }) := .modPort s p (.fields rfl rfl rfl)
  unfold State.handBeacon
  dsimp only
  split
  · refine Moves.trans ?_ (State.enterActive_moves _ p)
    exact h
  · exact h

theorem State.afterBeacon_moves (s : State) (p : PortIx) (l : LanePos) : Moves w s (s.afterBeacon p l) := by
  unfold State.afterBeacon; split
  · exact s.sweepBeacon_moves p l
  · exact s.handBeacon_moves p l
  · exact .refl

theorem State.hearOwn_moves (s : State) (p : PortIx) (l : LanePos) (bs : List Byte) : Moves w s (s.hearOwn p l bs) := by
  unfold State.hearOwn; split
  · exact s.receive_moves p l _
  · exact .refl

theorem Lane.spend_counters (y : Lane) (k : InjectKind) : (y.spend k).counters = y.counters := by unfold Lane.spend; split <;> rfl

theorem State.sendBeacon_moves (s : State) (p : PortIx) (l : LanePos) (me : LocalId) : Moves w s (s.sendBeacon p l me) := by
  unfold State.sendBeacon
  refine Moves.trans ?_ (State.hearOwn_moves _ p l _)
  refine Moves.trans ?_ (State.afterBeacon_moves _ p l)
  exact Moves.modLane s p l fun y => y.spend_counters _

theorem State.discoveryExpiry_moves (s : State) (p : PortIx) : Moves w s (s.discoveryExpiry p) := by
  unfold State.discoveryExpiry
  split
  · split
    · exact s.enterFaulted_moves p _
    · exact s.derivation_moves p
  · split
    · exact s.enterFaulted_moves p _
    · exact s.transition_moves' p _ fun x => .refl x

/-! ### The checker (R22, R23, R24) -/

variable (k : Checker) (lock : PatternLock) (c : Polarity)

/-- What a beacon does to a checker: it begins the first block or the next, or corrects one that may have begun. -/
theorem Checker.interleaved_cases (near : Bool) :
    k = .off ∧ k.interleaved near lock c = .off ∨
    k = .waiting ∧ k.interleaved near lock c = .fresh (if near then .between else .line) lock c ∨
    (∃ b q, k = .block .between b q ∧ k.interleaved near lock c =
      if near then .fresh .between lock c else .block .line (b || decide (lock = .searching)) (some c)) ∨
    ∃ start b q, start ≠ .between ∧ k = .block start b q ∧ k.interleaved near lock c = .block start b (if q = some c then q else none) := by
  rcases k with _ | _ | ⟨_ | _ | _ | _, b, q⟩ <;> simp [Checker.interleaved, Checker.corrected, Checker.searched]

/-- What the beginning of an own block does to a checker: it begins a block that has no bit yet. -/
theorem Checker.looped_cases :
    (∃ b q, k = .block .between b q) ∧ k.looped lock c = .fresh .loop lock c ∨
    (∀ b q, k ≠ .block .between b q) ∧ k.looped lock c = k := by
  rcases k with _ | _ | ⟨_ | _ | _ | _, b, q⟩ <;> simp [Checker.looped]

/-- What a change around a checker does to it: off where it does not count, waiting where it begins to, a block in hand marked. -/
theorem Checker.follow_cases (counts near : Bool) (content : Content) :
    counts = false ∧ k.follow counts near content lock c = .off ∨
    counts = true ∧ (k = .off ∨ k = .waiting) ∧ k.follow counts near content lock c = .waiting ∨
    counts = true ∧ ∃ start b q, k = .block start b q ∧ k.follow counts near content lock c =
      .block (start.placed near content) (b || decide (lock = .searching)) (if q = some c then q else none) := by
  cases counts with
  | false => exact .inl ⟨rfl, rfl⟩
  | true => match k with
    | .off | .waiting => simp [Checker.follow]
    | .block start b q => exact .inr (.inr ⟨rfl, start, b, q, rfl, rfl⟩)

/-- A block stays between two of the sender's only where neither mark nor input tells otherwise, and one astride stays so. -/
theorem BlockStart.next_placed (start : BlockStart) (searching near : Bool) (content : Content) :
    (start.next searching).placed near content = .between ∧
        (start = .loop ∨ start ≠ .astride ∧ searching = false) ∧ ¬(near = true ∧ content = .pattern) ∨
      (start.next searching).placed near content = .astride := by
  cases start <;> cases searching <;> simp [BlockStart.next, BlockStart.placed] <;> tauto

end Sys2Proof.Machine
end

