-- ==== Sys2Proof/Laws/Records.lean ====
section
/-! SUPPORT. What the moves keep: the report list well formed (R181), counters within their maxima and never falling (R163), snapshots
legal (R51). -/

namespace Sys2Proof.Machine

variable {w : Bool} {s t : State}

/-! ### One report -/

theorem Record.ordinary_iff (x : Record) : x.ordinary = true ↔ x.report.kind ≠ .listOverflow := by simp [Record.ordinary]

theorem Report.sameKey_iff (r q : Report) : r.sameKey q = true ↔ r.kind = q.kind ∧ r.port = q.port ∧ r.lane = q.lane := by
  simp [Report.sameKey]

theorem Report.sameKey_symm (r q : Report) : r.sameKey q = q.sameKey r := by
  rw [Bool.eq_iff_iff, Report.sameKey_iff, Report.sameKey_iff]
  constructor <;> exact fun ⟨a, b, c⟩ => ⟨a.symm, b.symm, c.symm⟩

/-- Coalescing keeps a record's key (R183). -/
theorem Record.absorb_key {x : Record} {r : Report} (h : x.report.sameKey r = true) :
    (x.absorb r).report.kind = x.report.kind ∧ (x.absorb r).report.port = x.report.port ∧ (x.absorb r).report.lane = x.report.lane := by
  rw [Report.sameKey_iff] at h
  exact ⟨h.1.symm, rfl, rfl⟩

theorem Record.addLoss_key (x : Record) (r : Report) (h : x.report.kind ≠ .listOverflow) : x.addLoss r = x := by
  unfold Record.addLoss
  split
  · rename_i hd; simp [Report.kind, hd, Detail.kind] at h
  · rfl

theorem Record.addLoss_overflow (x : Record) (r : Report) (h : x.report.kind = .listOverflow) :
    (x.addLoss r).report.kind = .listOverflow ∧ (x.addLoss r).count = x.count := by
  unfold Record.addLoss
  split
  · exact ⟨rfl, rfl⟩
  · exact ⟨h, rfl⟩

/-- Where a change of records keeps each one's key, the filters by kind commute with it. -/
theorem filter_map_ordinary {f : Record → Record} {xs : List Record} (h : ∀ x, (f x).ordinary = x.ordinary) :
    (xs.map f).filter Record.ordinary = (xs.filter Record.ordinary).map f := by
  induction xs with
  | nil => rfl
  | cons x xs ih => by_cases hx : x.ordinary <;> simp [h, hx, ih]

theorem filter_map_overflow {f : Record → Record} {xs : List Record} (h : ∀ x, (f x).ordinary = x.ordinary) :
    (xs.map f).filter (fun x => !x.ordinary) = (xs.filter fun x => !x.ordinary).map f := by
  induction xs with
  | nil => rfl
  | cons x xs ih => by_cases hx : x.ordinary <;> simp [h, hx, ih]

/-- A report that is not itself a LIST_OVERFLOW keeps the list well formed (R182, R183, R184). -/
theorem ReportList.enter_wf {l : ReportList} (h : l.wf) (clock : Word) {r : Report} (hr : r.kind ≠ .listOverflow) :
    (l.enter clock r).wf := by
  have ho : ∀ x : Record, (if (x.ordinary && x.report.sameKey r) = true then x.absorb r else x).ordinary = x.ordinary := by
    intro x
    by_cases hx : (x.ordinary && x.report.sameKey r) = true
    · rw [if_pos hx]
      simp only [Bool.and_eq_true] at hx
      simp [Record.ordinary, (Record.absorb_key hx.2).1]
    · rw [if_neg hx]
  have hl : ∀ x : Record, (x.addLoss r).ordinary = x.ordinary := by
    intro x
    by_cases hx : x.report.kind = .listOverflow
    · simp [Record.ordinary, hx, (Record.addLoss_overflow x r hx).1]
    · rw [Record.addLoss_key x r hx]
  unfold ReportList.enter
  split
  · exact h
  split
  · refine ⟨?_, ?_, ?_, ?_⟩
    · rw [filter_map_ordinary ho, List.length_map]; exact h.ordinary
    · rw [filter_map_overflow ho, List.length_map]; exact h.overflow
    · rw [filter_map_ordinary ho, List.pairwise_map]
      refine h.distinct.imp fun {x y} hxy => ?_
      have key : ∀ x : Record, (if (x.ordinary && x.report.sameKey r) = true then x.absorb r else x).report.kind = x.report.kind ∧
          (if (x.ordinary && x.report.sameKey r) = true then x.absorb r else x).report.port = x.report.port ∧
          (if (x.ordinary && x.report.sameKey r) = true then x.absorb r else x).report.lane = x.report.lane := by
        intro x
        by_cases hx : (x.ordinary && x.report.sameKey r) = true
        · rw [if_pos hx]; simp only [Bool.and_eq_true] at hx; exact Record.absorb_key hx.2
        · rw [if_neg hx]; exact ⟨rfl, rfl, rfl⟩
      rw [Record.sameKey, Bool.eq_false_iff, ne_eq, Report.sameKey_iff] at hxy ⊢
      rw [(key x).1, (key x).2.1, (key x).2.2, (key y).1, (key y).2.1, (key y).2.2]
      exact hxy
    · intro x hx
      obtain ⟨y, hy, rfl⟩ := List.mem_map.mp hx
      have := h.counts y hy
      split
      · simp only [Record.absorb]; omega
      · exact this
  · rename_i hnew
    split
    · rename_i hroom
      have hr' : (Record.ordinary { report := r, time := clock, count := 1 }) = true := by simp [Record.ordinary, hr]
      refine ⟨?_, ?_, ?_, ?_⟩
      · simp only [List.filter_append, List.length_append, List.filter_cons, hr', List.filter_nil, if_true, List.length_singleton]; omega
      · simpa [List.filter_append, List.filter_cons, hr'] using h.overflow
      · simp only [List.filter_append, List.filter_cons, hr', List.filter_nil, if_true]
        rw [List.pairwise_append]
        refine ⟨h.distinct, List.pairwise_singleton _ _, ?_⟩
        intro x hx y hy
        rw [List.mem_singleton] at hy
        subst hy
        rw [List.mem_filter] at hx
        by_contra hc
        exact hnew (List.any_eq_true.mpr ⟨x, hx.1, by simp only [Bool.not_eq_false, Record.sameKey] at hc; simp [hx.2, hc]⟩)
      · intro x hx
        rcases List.mem_append.mp hx with hx | hx
        · exact h.counts x hx
        · rw [List.mem_singleton] at hx; subst hx; simp
    · unfold ReportList.lose
      split
      · exact h
      split
      · rename_i hall
        have hn : (Record.ordinary { report := overflowReport 1 r, time := clock, count := 1 }) = false := by
          simp [Record.ordinary, overflowReport, Report.kind, Detail.kind]
        refine ⟨?_, ?_, ?_, ?_⟩
        · simpa [List.filter_append, List.filter_cons, hn] using h.ordinary
        · rw [List.filter_append, List.length_append]
          have : (l.records.filter fun x => !x.ordinary) = [] := by
            rw [List.filter_eq_nil_iff]; intro x hx; simp [List.all_eq_true.mp hall x hx]
          simp [this, hn]
        · simpa [List.filter_append, List.filter_cons, hn] using h.distinct
        · intro x hx
          rcases List.mem_append.mp hx with hx | hx
          · exact h.counts x hx
          · rw [List.mem_singleton] at hx; subst hx; simp
      · refine ⟨?_, ?_, ?_, ?_⟩
        · rw [filter_map_ordinary hl, List.length_map]; exact h.ordinary
        · rw [filter_map_overflow hl, List.length_map]; exact h.overflow
        · rw [filter_map_ordinary hl]
          have : (l.records.filter Record.ordinary).map (·.addLoss r) = l.records.filter Record.ordinary := by
            conv_rhs => rw [← List.map_id (l.records.filter Record.ordinary)]
            refine List.map_congr_left fun x hx => ?_
            rw [List.mem_filter, Record.ordinary_iff] at hx
            exact Record.addLoss_key x r hx.2
          rw [this]; exact h.distinct
        · intro x hx
          obtain ⟨y, hy, rfl⟩ := List.mem_map.mp hx
          have := h.counts y hy
          by_cases hk : y.report.kind = .listOverflow
          · rw [(Record.addLoss_overflow y r hk).2]; exact this
          · rw [Record.addLoss_key y r hk]; exact this

/-! ### The report list under moves and at the end of a command -/

theorem Moves.reports (h : Moves w s t) (k : s.reports.wf) : t.reports.wf := by
  induction h with
  | post r _ hr ih => exact ReportList.enter_wf ih _ hr
  | _ => simp_all

theorem ReportList.enterAll_wf {l : ReportList} (h : l.wf) (clock : Word) (rs : List Report) (k : ∀ r ∈ rs, r.kind ≠ .listOverflow) :
    (l.enterAll clock rs).wf := by
  unfold ReportList.enterAll
  induction rs generalizing l with
  | nil => exact h
  | cons r rs ih =>
    exact ih (ReportList.enter_wf h clock (k r List.mem_cons_self)) fun q hq => k q (List.mem_cons_of_mem _ hq)

/-- The list at the end of a command is the list with the reports kept back entered (R163). -/
theorem State.closed_reports : s.closed.reports = s.reports.enterAll s.time.clock s.deferred := by
  simp [State.closed, State.flushed, State.pinned, State.foldl_post, ReportList.enterAll]

theorem State.closed_reports_wf (h : s.reports.wf) (k : ∀ r ∈ s.deferred, r.kind ≠ .listOverflow) : s.closed.reports.wf := by
  rw [State.closed_reports]; exact ReportList.enterAll_wf h _ _ k

/-! ### Counters -/

theorem Counter.bump_within {c : Counter} {m : Nat} (a : Nat) (h : c.within m) : (c.bump m a).within m :=
  ⟨Nat.min_le_left _ _, h.2⟩

theorem Counter.mayBecome.within {c d : Counter} {m : Nat} (h : Counter.mayBecome w m c d) (k : c.within m) : d.within m := by
  rcases h with rfl | rfl | ⟨a, rfl⟩ | ⟨-, rfl | ⟨v, hv, rfl⟩⟩
  · exact k
  · exact ⟨k.1, k.1⟩
  · exact Counter.bump_within a k
  · exact ⟨Nat.zero_le _, Nat.zero_le _⟩
  · exact ⟨hv, hv⟩

/-- Counting and boundaries never take a live value down (R163). -/
theorem Counter.mayBecome.rises {c d : Counter} {m : Nat} (h : Counter.mayBecome false m c d) (k : c.live ≤ m) : c.live ≤ d.live := by
  rcases h with rfl | rfl | ⟨a, rfl⟩ | ⟨h, -⟩
  · exact Nat.le_refl _
  · exact Nat.le_refl _
  · simp only [Counter.bump]; omega
  · cases h

theorem Port.mayBecome.within {n : Snapshot} {x y : Port} (h : Port.mayBecome w n x y) (k : x.countersWithin) : y.countersWithin :=
  ⟨fun i => (h.counters i).within (k.1 i), fun l i => (h.lanes l i).within (k.2 l i)⟩

theorem Moves.counters (h : Moves w s t) (k : ∀ p, (s.port p).countersWithin) : ∀ p, (t.port p).countersWithin := by
  induction h with
  | port p x _ hx ih =>
    intro q
    by_cases hq : p = q
    · subst hq; rw [State.setPort_port_same]; exact hx.within (ih p)
    · rw [State.setPort_port_other _ hq]; exact ih q
  | ports f _ hf ih => intro q; rw [State.mapPorts_port]; exact (hf q).within (ih q)
  | refl => exact k
  | esu _ _ ih => exact ih
  | post _ _ _ ih => exact ih
  | defer _ _ _ ih => exact ih
  | free _ ih => exact ih

/-- No counter of a port stands lower than it stood. -/
def Port.countersRise (x y : Port) : Prop :=
  (∀ i : Fin 3, x.counters[i].live ≤ y.counters[i].live) ∧ ∀ (l : LanePos) (i : Fin 7), (x.lane l).counters[i].live ≤ (y.lane l).counters[i].live

theorem Moves.rise (h : Moves false s t) (k : ∀ p, (s.port p).countersWithin) : ∀ p, (s.port p).countersRise (t.port p) := by
  have step : ∀ {n x y}, Port.mayBecome false n x y → x.countersWithin → x.countersRise y := fun hx hk =>
    ⟨fun i => (hx.counters i).rises (hk.1 i).1, fun l i => (hx.lanes l i).rises (hk.2 l i).1⟩
  have trans : ∀ {x y z : Port}, x.countersRise y → y.countersRise z → x.countersRise z := fun a b =>
    ⟨fun i => (a.1 i).trans (b.1 i), fun l i => (a.2 l i).trans (b.2 l i)⟩
  induction h with
  | refl => exact fun p => ⟨fun _ => Nat.le_refl _, fun _ _ => Nat.le_refl _⟩
  | port p x hm hx ih =>
    intro q
    by_cases hq : p = q
    · subst hq; rw [State.setPort_port_same]; exact trans (ih p) (step hx (hm.counters k p))
    · rw [State.setPort_port_other _ hq]; exact ih q
  | ports f hm hf ih => intro q; rw [State.mapPorts_port]; exact trans (ih q) (step (hf q) (hm.counters k q))
  | esu _ _ ih => exact ih
  | post _ _ _ ih => exact ih
  | defer _ _ _ ih => exact ih
  | free _ ih => exact ih

theorem State.countMpt_within {i : Fin 2} (h : ∀ j : Fin 2, s.mpt.counters[j].within shortCounterMax) :
    ∀ j : Fin 2, (s.countMpt i).mpt.counters[j].within shortCounterMax := by
  have k : ∀ j : Fin 2, (s.mpt.counters.set i (s.mpt.counters[i].bump shortCounterMax 1))[j].within shortCounterMax := by
    intro j
    by_cases hj : i = j
    · subst hj; simpa using Counter.bump_within 1 (h i)
    · have : (i : Nat) ≠ j := fun e => hj (Fin.ext e)
      simpa [this] using h j
  intro j
  unfold State.countMpt
  dsimp only
  split
  · exact k j
  · exact k j

/-! ### Plan and snapshots -/

/-- Resolution gives a legal entry that is not EMPTY (R49). -/
theorem Plan.resolve_legal {q : Plan} (h : q.legal) (p : PortIx) : (q.resolve p).entry.legal ∧ (q.resolve p).entry.kind ≠ .empty := by
  unfold Plan.resolve
  split
  · rename_i n hn
    have := List.find?_some hn
    simp only [Bool.and_eq_true, decide_eq_true_eq] at this
    exact ⟨h.entries n p, this.2⟩
  · exact h.background

theorem Moves.snapshots (h : Moves w s t) (hq : s.plan.legal) (k : ∀ p, (s.port p).snapshotLegal) : ∀ p, (t.port p).snapshotLegal := by
  have step : ∀ {q : Plan} {p x y}, q.legal → Port.mayBecome w (q.resolve p) x y → x.snapshotLegal → y.snapshotLegal := by
    intro q p x y hq hx hk n hn
    rcases hx.snapshot with e | e | e
    · exact hk n (e ▸ hn)
    · rw [e] at hn; cases hn
    · rw [e] at hn; cases hn; exact Plan.resolve_legal hq p
  induction h with
  | refl => exact k
  | port p x hm hx ih =>
    intro q
    by_cases he : p = q
    · subst he; rw [State.setPort_port_same]; exact step (hm.plan ▸ hq) hx (ih p)
    · rw [State.setPort_port_other _ he]; exact ih q
  | ports f hm hf ih => intro q; rw [State.mapPorts_port]; exact step (hm.plan ▸ hq) (hf q) (ih q)
  | esu _ _ ih => exact ih
  | post _ _ _ ih => exact ih
  | defer _ _ _ ih => exact ih
  | free _ ih => exact ih

end Sys2Proof.Machine
end

