-- ==== Sys2Proof/Laws/Transitions.lean ====
section
/-! SUPPORT. What a change of a port's state does, field by field: nothing to any other port; to its own record what the change says,
after R94 has undone the state left; to its lanes what R6 and R17 say; to the report list the reports of R29 and R103 in order. -/

namespace Sys2Proof.Machine

variable {s t : State}

/-! ### Records and lanes that agree -/

/-- Two port records that agree in every field but the stage timer and the lanes. -/
structure Port.RecordEq (x y : Port) : Prop where
  state : y.state = x.state
  mode : y.mode = x.mode
  pending : y.pending = x.pending
  fault : y.fault = x.fault
  snapshot : y.snapshot = x.snapshot
  neighbour : y.neighbour = x.neighbour
  verdict : y.verdict = x.verdict
  accepted : y.accepted = x.accepted
  map : y.map = x.map
  mapClass : y.mapClass = x.mapClass
  width : y.width = x.width
  cycle : y.cycle = x.cycle
  attempts : y.attempts = x.attempts
  unstable : y.unstable = x.unstable
  cleanRun : y.cleanRun = x.cleanRun
  channel : y.channel = x.channel
  qualify : y.qualify = x.qualify
  handover : y.handover = x.handover
  counters : y.counters = x.counters

/-- Two lanes that agree in all but what follows the port's content: loop mark, generator, block and checker. -/
structure Lane.LineEq (x y : Lane) : Prop where
  owner : y.owner = x.owner
  rx : y.rx = x.rx
  control : y.control = x.control
  injection : y.injection = x.injection
  eq : y.eq = x.eq
  patternLock : y.patternLock = x.patternLock
  sent : y.sent = x.sent
  tap : y.tap = x.tap
  monitor : y.monitor = x.monitor
  counters : y.counters = x.counters

theorem Port.RecordEq.refl (x : Port) : x.RecordEq x := by constructor <;> rfl

theorem Port.RecordEq.trans {x y z : Port} (h : x.RecordEq y) (k : y.RecordEq z) : x.RecordEq z :=
  ⟨k.state.trans h.state, k.mode.trans h.mode, k.pending.trans h.pending, k.fault.trans h.fault, k.snapshot.trans h.snapshot,
    k.neighbour.trans h.neighbour, k.verdict.trans h.verdict, k.accepted.trans h.accepted, k.map.trans h.map,
    k.mapClass.trans h.mapClass, k.width.trans h.width, k.cycle.trans h.cycle, k.attempts.trans h.attempts,
    k.unstable.trans h.unstable, k.cleanRun.trans h.cleanRun, k.channel.trans h.channel, k.qualify.trans h.qualify,
    k.handover.trans h.handover, k.counters.trans h.counters⟩

theorem Lane.LineEq.refl (x : Lane) : x.LineEq x := by constructor <;> rfl

theorem Lane.LineEq.trans {x y z : Lane} (h : x.LineEq y) (k : y.LineEq z) : x.LineEq z :=
  ⟨k.owner.trans h.owner, k.rx.trans h.rx, k.control.trans h.control, k.injection.trans h.injection, k.eq.trans h.eq,
    k.patternLock.trans h.patternLock, k.sent.trans h.sent, k.tap.trans h.tap, k.monitor.trans h.monitor,
    k.counters.trans h.counters⟩

/-- The changes around a change of state: one port's loop marks, generator, blocks, checkers and stage timer, and the report list. -/
structure Around (p : PortIx) (s t : State) : Prop where
  others : ∀ q, q ≠ p → t.port q = s.port q
  record : (s.port p).RecordEq (t.port p)
  lanes : ∀ l, (s.lane p l).LineEq (t.lane p l)
  esu : t.esu = s.esu

theorem Around.refl (p : PortIx) (s : State) : Around p s s := ⟨fun _ _ => rfl, .refl _, fun _ => .refl _, rfl⟩

theorem Around.trans {p : PortIx} {s t u : State} (h : Around p s t) (k : Around p t u) : Around p s u :=
  ⟨fun q hq => (k.others q hq).trans (h.others q hq), h.record.trans k.record, fun l => (h.lanes l).trans (k.lanes l), k.esu.trans h.esu⟩

theorem Around.foldl {α : Type} {p : PortIx} {f : State → α → State} (xs : List α) (h : ∀ t a, Around p t (f t a)) (s : State) :
    Around p s (xs.foldl f s) := by
  induction xs generalizing s with
  | nil => exact .refl p s
  | cons a xs ih => exact (h s a).trans (ih (f s a))

theorem Around.post (p : PortIx) (s : State) (r : Report) : Around p s (s.post r) := ⟨fun _ _ => rfl, .refl _, fun _ => .refl _, rfl⟩

/-- A change of one lane's loop mark. -/
theorem Around.mark (s : State) (p : PortIx) (l : LanePos) (b : Bool) : Around p s (s.modLane p l fun y => { y with autoLoop := b }) := by
  refine ⟨fun q hq => by simp [Ne.symm hq], ?_, fun k => ?_, rfl⟩
  · rw [State.modLane_port, if_pos rfl]; constructor <;> rfl
  · rw [State.modLane_lane]
    by_cases hk : l = k
    · subst hk; rw [if_pos ⟨rfl, rfl⟩]; constructor <;> rfl
    · rw [if_neg (fun h => hk h.2)]; exact .refl _

/-- A change of one port's stage timer. -/
theorem Around.timer (s : State) (p : PortIx) (v : Option StageTimer) : Around p s (s.modPort p fun x => { x with stageTimer := v }) := by
  refine ⟨fun q hq => by simp [Ne.symm hq], ?_, fun k => ?_, rfl⟩
  · rw [State.modPort_port, if_pos rfl]; constructor <;> rfl
  · simp only [State.lane, State.modPort_port, if_true]; exact .refl _

theorem State.judgeLoop_around (s : State) (p : PortIx) (l : LanePos) : Around p s (s.judgeLoop p l) := by
  have e : ∀ s : State, Around p s (s.modPort p Port.loopEntered) := fun s => by
    refine ⟨fun q hq => by simp [Ne.symm hq], ?_, fun k => ?_, rfl⟩
    · rw [State.modPort_port, if_pos rfl, Port.loopEntered]; split <;> constructor <;> rfl
    · simp only [State.lane, State.modPort_port, if_true, Port.loopEntered]; split <;> exact .refl _
  have f : ∀ (s : State) (g : Settings), Around p s (s.modPort p fun x => x.loopLeft g) := fun s g => by
    refine ⟨fun q hq => by simp [Ne.symm hq], ?_, fun k => ?_, rfl⟩
    · rw [State.modPort_port, if_pos rfl, Port.loopLeft]; split <;> constructor <;> rfl
    · simp only [State.lane, State.modPort_port, if_true, Port.loopLeft]; split <;> exact .refl _
  unfold State.judgeLoop
  split
  · exact .refl p s
  · split
    · exact ((Around.mark s p l true).trans (.post p _ _)).trans (e _)
    · exact ((Around.mark s p l false).trans (.post p _ _)).trans (f _ _)

theorem State.judgeLoops_around (s : State) (p : PortIx) : Around p s (s.judgeLoops p) :=
  Around.foldl _ (fun t l => t.judgeLoop_around p l) s

theorem State.endLoops_around (s : State) (p : PortIx) : Around p s (s.endLoops p) := by
  unfold State.endLoops
  refine Around.foldl _ (fun t l => ?_) s
  split
  · exact (Around.mark t p l false).trans (.post p _ _)
  · exact .refl p t

theorem State.syncPort_around (s : State) (p : PortIx) : Around p s (s.syncPort p) := by
  refine ⟨fun q hq => by simp [State.syncPort, Ne.symm hq], ?_, fun k => ?_, rfl⟩
  · simp only [State.syncPort, State.modPort_port, if_true]; constructor <;> rfl
  · simp only [State.syncPort, State.lane, State.modPort_port, if_true, Port.sync, Port.mapLanes_lane]; constructor <;> rfl

/-! ### Undoing the state left (R94) -/

/-- What undoing does to the ESU: the sweep aborted, or the place in the queue given up (R94). -/
def State.undoneEsu (s : State) (p : PortIx) : Esu :=
  match (s.port p).state with
  | .tune => (s.abortSweep p).esu
  | .awaitSlot => (s.dequeue p).esu
  | _ => s.esu

theorem State.abortSweep_port (s : State) (p q : PortIx) : (s.abortSweep p).port q = s.port q := by
  unfold State.abortSweep; split <;> rfl

theorem State.undo_port_other (s : State) {p q : PortIx} (h : q ≠ p) : (s.undo p).port q = s.port q := by
  unfold State.undo
  dsimp only
  rw [State.modPort_port, if_neg (Ne.symm h), (State.endLoops_around _ p).others q h]
  split
  · exact s.abortSweep_port p q
  · rfl
  · rfl

theorem State.undo_esu (s : State) (p : PortIx) : (s.undo p).esu = s.undoneEsu p := by
  unfold State.undo State.undoneEsu
  dsimp only
  rw [State.modPort_esu, (State.endLoops_around _ p).esu]
  cases (s.port p).state <;> rfl

theorem Port.undo_record {x y : Port} (h : x.RecordEq y) : x.undo.RecordEq y.undo where
  state := h.state
  mode := h.mode
  pending := rfl
  fault := rfl
  snapshot := h.snapshot
  neighbour := h.neighbour
  verdict := h.verdict
  accepted := h.accepted
  map := h.map
  mapClass := h.mapClass
  width := h.width
  cycle := h.cycle
  attempts := h.attempts
  unstable := h.unstable
  cleanRun := rfl
  channel := rfl
  qualify := by simp [Port.undo, Port.mapLanes, h.qualify]
  handover := rfl
  counters := h.counters

theorem State.undo_record (s : State) (p : PortIx) : (s.port p).undo.RecordEq ((s.undo p).port p) := by
  unfold State.undo
  dsimp only
  rw [State.modPort_port, if_pos rfl]
  refine Port.undo_record (Port.RecordEq.trans (y := _) ?_ (State.endLoops_around _ p).record)
  split
  · rw [s.abortSweep_port]; exact .refl _
  · exact .refl _
  · exact .refl _

theorem Lane.takeBack_line {x y : Lane} (h : x.LineEq y) : x.takeBack.LineEq y.takeBack := by
  unfold Lane.takeBack
  rw [h.owner]
  split
  · constructor <;> simp [h.rx, h.control, h.injection, h.eq, h.sent, h.tap, h.monitor, h.counters]
  · exact h

theorem Lane.leaveNearEnd_line {x y : Lane} (h : x.LineEq y) : x.leaveNearEnd.LineEq y.leaveNearEnd := by
  unfold Lane.leaveNearEnd
  constructor <;> simp [h.owner, h.rx, h.control, h.injection, h.eq, h.sent, h.tap, h.monitor, h.counters]

/-- A lane of a port that leaves its state: taken back from the switch, and in MANUAL its near-end loopback ended and its injection gone
(R17, R27, R31, R94). -/
def Port.undoneLane (x : Port) (l : LanePos) : Lane :=
  { (if x.nearEnd l then (x.lane l).takeBack.leaveNearEnd else (x.lane l).takeBack) with
    injection := if x.state = .manual then none else (x.lane l).injection }

/-- A near-end loopback depends on the port's state and the lane's control record alone (R27). -/
theorem Port.nearEnd_congr {x y : Port} {l : LanePos} (h : y.state = x.state) (k : (x.lane l).LineEq (y.lane l)) :
    y.nearEnd l = x.nearEnd l := by simp only [Port.nearEnd, h, k.control]

theorem Port.undo_lane (x : Port) (l : LanePos) : x.undo.lane l = x.undoneLane l := by
  unfold Port.undo; rw [Port.mapLanes_lane]; rfl

theorem State.undo_lane (s : State) (p : PortIx) (l : LanePos) : ((s.port p).undoneLane l).LineEq ((s.undo p).lane p l) := by
  have h : (s.lane p l).LineEq (((match (s.port p).state with
      | .tune => s.abortSweep p | .awaitSlot => s.dequeue p | _ => s).endLoops p).lane p l) := by
    refine Lane.LineEq.trans (y := _) ?_ ((State.endLoops_around _ p).lanes l)
    split
    · simp only [State.lane, s.abortSweep_port]; exact .refl _
    · exact .refl _
    · exact .refl _
  have hs : ∀ u : State, (u.port p).state = (s.port p).state → (s.lane p l).LineEq (u.lane p l) →
      ((s.port p).undoneLane l).LineEq ((u.port p).undoneLane l) := by
    intro u hu hl
    have ht : (if (s.port p).nearEnd l then ((s.port p).lane l).takeBack.leaveNearEnd else ((s.port p).lane l).takeBack).LineEq
        (if (u.port p).nearEnd l then ((u.port p).lane l).takeBack.leaveNearEnd else ((u.port p).lane l).takeBack) := by
      rw [Port.nearEnd_congr hu hl]
      split
      · exact Lane.leaveNearEnd_line (Lane.takeBack_line hl)
      · exact Lane.takeBack_line hl
    refine ⟨ht.owner, ht.rx, ht.control, ?_, ht.eq, ht.patternLock, ht.sent, ht.tap, ht.monitor, ht.counters⟩
    simp only [Port.undoneLane, hu]
    rw [show ((u.port p).lane l).injection = ((s.port p).lane l).injection from hl.injection]
  unfold State.undo State.lane
  dsimp only
  rw [State.modPort_port, if_pos rfl, Port.undo_lane]
  refine hs _ ?_ h
  rw [(State.endLoops_around _ p).record.state]
  split
  · rw [s.abortSweep_port]
  · rfl
  · rfl

/-! ### The transition -/

/-- The record a transition writes, before loops and checkers follow. -/
def State.entered (s : State) (p : PortIx) (new : PortState) (f : Port → Port) : Port := { f ((s.undo p).port p) with state := new }

theorem State.transition_around (s : State) (p : PortIx) (new : PortState) (f : Port → Port) :
    Around p ((s.undo p).modPort p fun x => Port.relisten { f x with state := new }) (s.transition p new f) :=
  ((Around.post p _ _).trans (State.judgeLoops_around _ p)).trans (State.syncPort_around _ p)

theorem State.transition_port_other (s : State) {p q : PortIx} (h : q ≠ p) (new : PortState) (f : Port → Port) :
    (s.transition p new f).port q = s.port q := by
  rw [(s.transition_around p new f).others q h, State.modPort_port, if_neg (Ne.symm h), s.undo_port_other h]

theorem State.transition_esu (s : State) (p : PortIx) (new : PortState) (f : Port → Port) :
    (s.transition p new f).esu = s.undoneEsu p := by
  rw [(s.transition_around p new f).esu, State.modPort_esu, s.undo_esu]

theorem State.transition_record (s : State) (p : PortIx) (new : PortState) (f : Port → Port) :
    (s.entered p new f).RecordEq ((s.transition p new f).port p) := by
  refine Port.RecordEq.trans (y := _) ?_ (s.transition_around p new f).record
  rw [State.modPort_port, if_pos rfl]
  constructor <;> rfl

theorem State.transition_state (s : State) (p : PortIx) (new : PortState) (f : Port → Port) :
    ((s.transition p new f).port p).state = new := (s.transition_record p new f).state

/-- A lane after a transition: undone, changed as the entry says, and listening as the new state calls for. -/
theorem State.transition_lane (s : State) (p : PortIx) (new : PortState) (f : Port → Port) (l : LanePos) :
    (((s.entered p new f).lane l).listen ((s.entered p new f).listens l)).LineEq ((s.transition p new f).lane p l) := by
  refine Lane.LineEq.trans (y := _) ?_ ((s.transition_around p new f).lanes l)
  simp only [State.lane, State.modPort_port, if_true, Port.relisten, Port.mapLanes_lane]
  exact .refl _

/-- Judging a lane's loop conditions posts at most its LOOP_ENTERED or LOOP_LEFT (R29). -/
theorem State.judgeLoop_reports (s : State) (p : PortIx) (l : LanePos) : ∃ rs : List Report,
    (∀ r ∈ rs, (r.kind = .loopEntered ∨ r.kind = .loopLeft) ∧ r.port = some p) ∧
    (s.judgeLoop p l).reports = s.reports.enterAll s.time.clock rs := by
  unfold State.judgeLoop
  split
  · exact ⟨[], by simp, rfl⟩
  · split
    · exact ⟨[{ port := some p, lane := some l, detail := .loopEntered }], by simp [Report.kind, Detail.kind], rfl⟩
    · exact ⟨[{ port := some p, lane := some l, detail := .loopLeft }], by simp [Report.kind, Detail.kind], rfl⟩

theorem State.judgeLoops_reports (p : PortIx) (ls : List LanePos) (s : State) : ∃ rs : List Report,
    (∀ r ∈ rs, (r.kind = .loopEntered ∨ r.kind = .loopLeft) ∧ r.port = some p) ∧
    (ls.foldl (fun t l => t.judgeLoop p l) s).reports = s.reports.enterAll s.time.clock rs := by
  induction ls generalizing s with
  | nil => exact ⟨[], by simp, rfl⟩
  | cons l ls ih =>
    obtain ⟨a, ha, ea⟩ := s.judgeLoop_reports p l
    obtain ⟨b, hb, eb⟩ := ih (s.judgeLoop p l)
    refine ⟨a ++ b, fun r hr => (List.mem_append.mp hr).elim (ha r) (hb r), ?_⟩
    rw [List.foldl_cons, eb, ea, (s.judgeLoop_moves (w := false) p l).time]
    simp [ReportList.enterAll, List.foldl_append]

/-- The loops that end with a state post a LOOP_LEFT each (R29). -/
theorem State.endLoops_reports (s : State) (p : PortIx) : ∃ rs : List Report, (∀ r ∈ rs, r.kind = .loopLeft ∧ r.port = some p) ∧
    (s.endLoops p).reports = s.reports.enterAll s.time.clock rs := by
  unfold State.endLoops
  generalize allLanes = ls
  induction ls generalizing s with
  | nil => exact ⟨[], by simp, rfl⟩
  | cons l ls ih =>
    rw [List.foldl_cons]
    by_cases hl : (s.lane p l).autoLoop = true
    · rw [if_pos hl]
      obtain ⟨b, hb, eb⟩ := ih ((s.modLane p l fun y => { y with autoLoop := false }).postLane p l .loopLeft)
      refine ⟨{ port := some p, lane := some l, detail := .loopLeft } :: b, ?_, ?_⟩
      · intro r hr
        rcases List.mem_cons.mp hr with rfl | hr
        · exact ⟨rfl, rfl⟩
        · exact hb r hr
      · rw [eb]; rfl
    · rw [if_neg hl]; exact ih s

theorem State.undo_reports (s : State) (p : PortIx) : ∃ rs : List Report, (∀ r ∈ rs, r.kind = .loopLeft ∧ r.port = some p) ∧
    (s.undo p).reports = s.reports.enterAll s.time.clock rs := by
  have key : ∀ t : State, t.reports = s.reports → t.time = s.time → ∃ rs : List Report,
      (∀ r ∈ rs, r.kind = .loopLeft ∧ r.port = some p) ∧ ((t.endLoops p).modPort p Port.undo).reports = s.reports.enterAll s.time.clock rs := by
    intro t hr ht
    obtain ⟨a, ha, ea⟩ := t.endLoops_reports p
    exact ⟨a, ha, by rw [State.modPort_reports, ea, hr, ht]⟩
  unfold State.undo
  dsimp only
  split
  · refine key _ ?_ ?_ <;> unfold State.abortSweep <;> split <;> rfl
  · exact key _ rfl rfl
  · exact key _ rfl rfl

/-- The state just before a transition posts its PORT_STATE report. -/
def State.arrived (s : State) (p : PortIx) (new : PortState) (f : Port → Port) : State :=
  (s.undo p).modPort p fun x => Port.relisten { f x with state := new }

theorem State.transition_eq (s : State) (p : PortIx) (new : PortState) (f : Port → Port) :
    s.transition p new f = (((s.arrived p new f).postPort p (((s.arrived p new f).port p).stateDetail (s.port p).state)).judgeLoops
      p).syncPort p := by rw [State.transition, State.arrived]

theorem Port.RecordEq.stateDetail {x y : Port} (h : x.RecordEq y) (z : PortState) : y.stateDetail z = x.stateDetail z := by
  rw [Port.stateDetail, Port.stateDetail, h.state, h.pending, h.fault, h.cycle, h.attempts]

/-- A state change tells its port's reports in order: the loops that end, PORT_STATE, the loops that begin anew (R29, R103). -/
theorem State.transition_reports (s : State) (p : PortIx) (new : PortState) (f : Port → Port) :
    ∃ before after : List Report,
      (∀ r ∈ before, r.kind = .loopLeft ∧ r.port = some p) ∧
      (∀ r ∈ after, (r.kind = .loopEntered ∨ r.kind = .loopLeft) ∧ r.port = some p) ∧
      (s.transition p new f).reports = s.reports.enterAll s.time.clock (before ++
        { port := some p, lane := none, detail := ((s.transition p new f).port p).stateDetail (s.port p).state } :: after) := by
  obtain ⟨a, ha, ea⟩ := s.undo_reports p
  have ht : (s.arrived p new f).time = s.time := by rw [State.arrived, State.modPort_time]; exact (s.undo_moves (w := false) p).time
  have hr : (s.arrived p new f).reports = s.reports.enterAll s.time.clock a := by rw [State.arrived, State.modPort_reports, ea]
  obtain ⟨b, hb, eb⟩ := State.judgeLoops_reports p allLanes
    ((s.arrived p new f).postPort p (((s.arrived p new f).port p).stateDetail (s.port p).state))
  refine ⟨a, b, ha, hb, ?_⟩
  rw [Port.RecordEq.stateDetail (s.transition_around p new f).record]
  rw [s.transition_eq, State.syncPort, State.modPort_reports, State.judgeLoops, eb, State.postPort, State.post_reports, State.post_time,
    hr, ht]
  simp [ReportList.enterAll, List.foldl_append, State.arrived]

end Sys2Proof.Machine
end

