-- ==== Sys2Proof/Laws/Slots.lean ====
section
/-! SUPPORT. How the shared operations act on the sweep channels, the wait queue and the ports' states (R117 to R121): the part of the
state `State.slots` speaks of, and what each operation does to it. -/

namespace Sys2Proof.Machine

/-! ### The view -/

/-- What `State.slots` reads of a state: every port's state and sweep channel, and the ESU. -/
@[ext] structure View where
  st : PortIx → PortState
  ch : PortIx → Option ChanIx
  esu : Esu

def State.view (s : State) : View := { st := fun p => (s.port p).state, ch := fun p => (s.port p).channel, esu := s.esu }

@[simp] theorem State.view_st (s : State) (p : PortIx) : s.view.st p = (s.port p).state := rfl
@[simp] theorem State.view_ch (s : State) (p : PortIx) : s.view.ch p = (s.port p).channel := rfl
@[simp] theorem State.view_esu (s : State) : s.view.esu = s.esu := rfl

/-- A view in which the ports of P are on their way between states: they stand in no queue and hold no channel; all others are as
`State.slots` says. -/
structure View.but (v : View) (P : PortIx → Prop) : Prop where
  queued : ∀ p, ¬ P p → (v.st p = .awaitSlot ↔ ∃ e ∈ v.esu.queue, e.port = p)
  out : ∀ e ∈ v.esu.queue, ¬ P e.port
  once : (v.esu.queue.map QueueEntry.port).Nodup
  ordered : queueOrdered v.esu.queue
  tuned : ∀ p c, ¬ P p → (v.st p = .tune ∧ v.ch p = some c ↔ ∃ w, v.esu.channels[c] = some w ∧ w.port = p)
  free : ∀ (c : ChanIx) w, v.esu.channels[c] = some w → ¬ P w.port
  channelled : ∀ p, ¬ P p → (v.st p = .tune ↔ v.ch p ≠ none)
  stale : ∀ p c, P p → v.ch p = some c → v.esu.channels[c] = none

theorem State.slots_iff (s : State) : s.slots ↔ s.view.but fun _ => False := by
  constructor
  · intro h
    exact ⟨fun p _ => h.queued p, fun _ _ => id, h.once, h.ordered, fun p c _ => h.tuned p c, fun _ _ _ => id,
      fun p _ => h.channelled p, fun _ _ => False.elim⟩
  · intro h
    exact ⟨fun p => h.queued p id, h.once, h.ordered, fun p c => h.tuned p c id, fun p => h.channelled p id⟩

theorem View.but.mono {v : View} {P Q : PortIx → Prop} (h : v.but P) (k : ∀ p, P p ↔ Q p) : v.but Q := by
  have : P = Q := funext fun p => propext (k p)
  exact this ▸ h

theorem State.slots_of_view {s t : State} (h : s.slots) (k : t.view = s.view) : t.slots := by
  rw [State.slots_iff] at h ⊢; rw [k]; exact h

/-! ### Quiet operations -/

theorem State.modPort_view (s : State) (p : PortIx) (f : Port → Port) (h : ∀ x : Port, (f x).state = x.state)
    (k : ∀ x : Port, (f x).channel = x.channel) : (s.modPort p f).view = s.view := by
  refine View.ext (funext fun q => ?_) (funext fun q => ?_) (by simp)
  · rw [State.view_st, State.view_st, State.modPort_port]
    by_cases hq : p = q
    · subst hq; rw [if_pos rfl, h]
    · rw [if_neg hq]
  · rw [State.view_ch, State.view_ch, State.modPort_port]
    by_cases hq : p = q
    · subst hq; rw [if_pos rfl, k]
    · rw [if_neg hq]

theorem State.mapPorts_view (s : State) (f : PortIx → Port → Port) (h : ∀ p x, (f p x).state = x.state)
    (k : ∀ p x, (f p x).channel = x.channel) : (s.mapPorts f).view = s.view := by
  refine View.ext (funext fun q => ?_) (funext fun q => ?_) (by simp) <;> simp [h, k]

theorem State.modLane_view (s : State) (p : PortIx) (l : LanePos) (f : Lane → Lane) : (s.modLane p l f).view = s.view :=
  s.modPort_view p _ (fun _ => rfl) fun _ => rfl

theorem State.post_view (s : State) (r : Report) : (s.post r).view = s.view := rfl

theorem State.deferReport_view (s : State) (r : Report) : (s.deferReport r).view = s.view := rfl

theorem Around.view {p : PortIx} {s t : State} (h : Around p s t) : t.view = s.view := by
  refine View.ext (funext fun q => ?_) (funext fun q => ?_) h.esu
  · by_cases hq : q = p
    · subst hq; exact h.record.state
    · simp only [State.view, h.others q hq]
  · by_cases hq : q = p
    · subst hq; exact h.record.channel
    · simp only [State.view, h.others q hq]

theorem State.countLane_view (s : State) (p : PortIx) (l : LanePos) (i : Fin 7) (a : Nat) : (s.countLane p l i a).view = s.view := by
  unfold State.countLane; dsimp only; split
  · rw [State.deferReport_view, State.modLane_view]
  · rw [State.modLane_view]

theorem State.countPort_view (s : State) (p : PortIx) (i : Fin 3) : (s.countPort p i).view = s.view := by
  unfold State.countPort; dsimp only; split
  · rw [State.deferReport_view]; exact s.modPort_view p _ (fun _ => rfl) fun _ => rfl
  · exact s.modPort_view p _ (fun _ => rfl) fun _ => rfl

theorem State.countAttempt_view (s : State) (p : PortIx) : (s.countAttempt p).view = s.view := by
  unfold State.countAttempt; split
  · exact s.countPort_view p _
  · rfl

theorem State.reduceWidth_view (s : State) (p : PortIx) (c : WidthCause) : (s.reduceWidth p c).view = s.view := by
  unfold State.reduceWidth
  rw [(State.syncPort_around _ p).view]
  exact State.modPort_view _ p _ (fun _ => rfl) fun _ => rfl

theorem State.writeGains_view (s : State) (w : Sweep) : (s.writeGains w).view = s.view := by
  unfold State.writeGains
  generalize w.lanes = ys
  induction ys generalizing s with
  | nil => rfl
  | cons y ys ih =>
    rw [List.foldl_cons, ih]
    split
    · exact s.modLane_view _ _ _
    · rfl

/-! ### Leaving a state -/

theorem QueueEntry.filter_out {q : List QueueEntry} {p : PortIx} {e : QueueEntry} (h : e ∈ q.filter fun e => decide (e.port ≠ p)) :
    e ∈ q ∧ e.port ≠ p := by simpa using h

/-- The ports of P and the one that leaves its state are on their way (R94, R120, R131). -/
theorem View.but.undone {s : State} {P : PortIx → Prop} (h : s.view.but P) (p : PortIx) :
    View.but { st := s.view.st, ch := fun q => if q = p then none else s.view.ch q, esu := s.undoneEsu p } fun q => P q ∨ q = p := by
  have hst : (s.port p).state = s.view.st p := rfl
  have hch : (s.port p).channel = s.view.ch p := rfl
  -- nothing of the ESU concerns p
  have none_of : ∀ e : Esu, e.queue = s.esu.queue → e.channels = s.esu.channels →
      (∀ x ∈ s.esu.queue, x.port ≠ p) → (∀ (c : ChanIx) w, s.esu.channels[c] = some w → w.port ≠ p) →
      View.but { st := s.view.st, ch := fun q => if q = p then none else s.view.ch q, esu := e } fun q => P q ∨ q = p := by
    intro e hq hc hout hfree
    have hv : s.view.esu = s.esu := rfl
    refine ⟨?_, ?_, ?_, ?_, ?_, ?_, ?_, ?_⟩
    · intro q hn; rw [not_or] at hn; simpa [hq] using h.queued q hn.1
    · intro x hx; simp only [hq] at hx; exact fun hp => hp.elim (h.out x hx) (hout x hx)
    · simpa [hq] using h.once
    · simpa [hq] using h.ordered
    · intro q c hn; rw [not_or] at hn; simpa [hc, hn.2] using h.tuned q c hn.1
    · intro c w hw; simp only [hc] at hw; exact fun hp => hp.elim (h.free c w hw) (hfree c w hw)
    · intro q hn; rw [not_or] at hn; simpa [hn.2] using h.channelled q hn.1
    · intro q c hp hqc
      by_cases he : q = p
      · simp [he] at hqc
      · simp only [he, if_false] at hqc
        rw [hc]; exact h.stale q c (hp.resolve_right he) hqc
  have hin : P p → (∀ x ∈ s.esu.queue, x.port ≠ p) := fun hp x hx e => h.out x hx (e ▸ hp)
  have hfr : P p → (∀ (c : ChanIx) w, s.esu.channels[c] = some w → w.port ≠ p) := fun hp c w hw e => h.free c w hw (e ▸ hp)
  have quiet : s.view.st p ≠ .awaitSlot → s.view.st p ≠ .tune → ¬ P p →
      (∀ x ∈ s.esu.queue, x.port ≠ p) ∧ ∀ (c : ChanIx) w, s.esu.channels[c] = some w → w.port ≠ p := by
    intro ha ht hp
    exact ⟨fun x hx e => ha ((h.queued p hp).mpr ⟨x, hx, e⟩), fun c w hw e => ht ((h.tuned p c hp).mpr ⟨w, hw, e⟩).1⟩
  unfold State.undoneEsu
  split
  · rename_i htune
    rw [hst] at htune
    have hna : s.view.st p ≠ .awaitSlot := by rw [htune]; nofun
    have hout : ∀ x ∈ s.esu.queue, x.port ≠ p := by
      by_cases hp : P p
      · exact hin hp
      · exact fun x hx e => hna ((h.queued p hp).mpr ⟨x, hx, e⟩)
    unfold State.abortSweep
    split
    · rename_i w hw
      -- the sweep in flight
      simp only [State.sweepOf, Option.bind_eq_some_iff, Option.map_eq_some_iff] at hw
      obtain ⟨c, hc, v, hv, rfl⟩ := hw
      rw [hch] at hc
      have hp : ¬ P p := fun hp => by have := h.stale p c hp hc; rw [show s.view.esu = s.esu from rfl, hv] at this; cases this
      have hport : v.port = p := by
        obtain ⟨u, hu, e⟩ := (h.tuned p c hp).mp ⟨htune, hc⟩
        rw [show s.view.esu = s.esu from rfl, hv] at hu; cases hu; exact e
      have get : ∀ d : ChanIx, (s.setEsu (s.esu.free c)).esu.channels[d] = if c = d then none else s.esu.channels[d] := by
        intro d; simp only [State.setEsu_esu, Esu.free, Fin.getElem_fin, Vector.getElem_set, Fin.ext_iff]
      refine ⟨?_, ?_, h.once, h.ordered, ?_, ?_, ?_, ?_⟩
      · intro q hn; rw [not_or] at hn; exact h.queued q hn.1
      · exact fun x hx hp' => hp'.elim (h.out x hx) (hout x hx)
      · intro q d hn
        rw [not_or] at hn
        simp only [hn.2, if_false]
        rw [get]
        by_cases hd : c = d
        · subst hd
          simp only [if_true]
          constructor
          · intro hq
            obtain ⟨u, hu, e⟩ := (h.tuned q c hn.1).mp hq
            rw [show s.view.esu = s.esu from rfl, hv] at hu; cases hu
            exact absurd (e.symm.trans hport) hn.2
          · rintro ⟨u, hu, -⟩; cases hu
        · rw [if_neg hd]; exact h.tuned q d hn.1
      · intro d u hu
        simp only at hu
        rw [get] at hu
        by_cases hd : c = d
        · rw [if_pos hd] at hu; cases hu
        · rw [if_neg hd] at hu
          rintro (hp' | e)
          · exact h.free d u hu hp'
          · have := (h.tuned p d hp).mpr ⟨u, hu, e⟩
            rw [hc] at this
            exact hd (Option.some.inj this.2)
      · intro q hn; rw [not_or] at hn; simpa [hn.2] using h.channelled q hn.1
      · intro q d hp' hqd
        by_cases he : q = p
        · simp [he] at hqd
        · simp only [he, if_false] at hqd
          simp only
          rw [get]
          split
          · rfl
          · exact h.stale q d (hp'.resolve_right he) hqd
    · rename_i hw
      -- no sweep: the port is between states already
      refine none_of _ rfl rfl hout ?_
      by_cases hp : P p
      · exact hfr hp
      · intro c w hw' e
        have := ((h.tuned p c hp).mpr ⟨w, hw', e⟩).2
        rw [← hch] at this
        simp only [State.sweepOf, this, Option.bind_some, Option.map_eq_none_iff] at hw
        rw [hw'] at hw; cases hw
  · rename_i hawait
    rw [hst] at hawait
    have hout : ∀ x ∈ s.esu.queue, P x.port → False := fun x hx hp => h.out x hx hp
    have hnt : s.view.st p ≠ .tune := by rw [hawait]; nofun
    have hfree : ∀ (c : ChanIx) w, s.esu.channels[c] = some w → w.port ≠ p := by
      by_cases hp : P p
      · exact hfr hp
      · exact fun c w hw e => hnt ((h.tuned p c hp).mpr ⟨w, hw, e⟩).1
    unfold State.dequeue
    refine ⟨?_, ?_, ?_, ?_, ?_, ?_, ?_, ?_⟩
    · intro q hn
      rw [not_or] at hn
      rw [h.queued q hn.1]
      constructor
      · rintro ⟨x, hx, e⟩
        refine ⟨x, ?_, e⟩
        simp only [State.setEsu_esu, List.mem_filter, decide_eq_true_eq]
        exact ⟨hx, e ▸ hn.2⟩
      · rintro ⟨x, hx, e⟩
        exact ⟨x, (QueueEntry.filter_out hx).1, e⟩
    · intro x hx hp
      have := QueueEntry.filter_out hx
      exact hp.elim (h.out x this.1) this.2
    · exact h.once.sublist (List.filter_sublist.map _)
    · exact h.ordered.sublist List.filter_sublist
    · intro q c hn; rw [not_or] at hn; simpa [hn.2] using h.tuned q c hn.1
    · intro c w hw hp; exact hp.elim (h.free c w hw) (hfree c w hw)
    · intro q hn; rw [not_or] at hn; simpa [hn.2] using h.channelled q hn.1
    · intro q c hp hqc
      by_cases he : q = p
      · simp [he] at hqc
      · simp only [he, if_false] at hqc
        exact h.stale q c (hp.resolve_right he) hqc
  · rename_i ht ha
    rw [hst] at ht ha
    by_cases hp : P p
    · exact none_of _ rfl rfl (hin hp) (hfr hp)
    · have := quiet ha ht hp
      exact none_of _ rfl rfl this.1 this.2

/-- The view after a transition that leaves the sweep channel to R94. -/
theorem State.transition_view (s : State) (p : PortIx) (new : PortState) (f : Port → Port) (k : ∀ x, (f x).channel = x.channel) :
    (s.transition p new f).view =
      { st := fun q => if q = p then new else s.view.st q, ch := fun q => if q = p then none else s.view.ch q, esu := s.undoneEsu p } := by
  refine View.ext (funext fun q => ?_) (funext fun q => ?_) (by rw [State.view_esu, s.transition_esu p new f])
  · by_cases hq : q = p
    · subst hq; simpa using s.transition_state q new f
    · simp [hq, s.transition_port_other hq]
  · by_cases hq : q = p
    · subst hq
      have h1 := (s.transition_record q new f).channel
      have h2 := (s.undo_record q).channel
      have h3 : (s.entered q new f).channel = none := by
        show (f ((s.undo q).port q)).channel = none
        rw [k, h2]; rfl
      simp [h1, h3]
    · simp [hq, s.transition_port_other hq]

/-- A port that arrives in a state without queue or channel is settled. -/
theorem State.transition_settles {s : State} {P : PortIx → Prop} (h : s.view.but P) (p : PortIx) (new : PortState) (f : Port → Port)
    (k : ∀ x, (f x).channel = x.channel) (ha : new ≠ .awaitSlot) (ht : new ≠ .tune) :
    (s.transition p new f).view.but fun q => P q ∧ q ≠ p := by
  have hu := h.undone p
  rw [s.transition_view p new f k]
  have hn : ∀ q, ¬ (P q ∧ q ≠ p) → q ≠ p → ¬ (P q ∨ q = p) := fun q hq he hp => hp.elim (fun a => hq ⟨a, he⟩) he
  refine ⟨?_, ?_, hu.once, hu.ordered, ?_, ?_, ?_, ?_⟩
  · intro q hq
    by_cases he : q = p
    · subst he
      simp only [if_true]
      exact ⟨fun e => absurd e ha, fun ⟨x, hx, e⟩ => absurd (.inr e) (hu.out x hx)⟩
    · simpa [he] using hu.queued q (hn q hq he)
  · exact fun x hx hp => hu.out x hx (.inl hp.1)
  · intro q c hq
    by_cases he : q = p
    · subst he
      simp only [if_true]
      exact ⟨fun e => absurd e.1 ht, fun ⟨w, hw, e⟩ => absurd (.inr e) (hu.free c w hw)⟩
    · simpa [he] using hu.tuned q c (hn q hq he)
  · exact fun c w hw hp => hu.free c w hw (.inl hp.1)
  · intro q hq
    by_cases he : q = p
    · subst he; simp [ht]
    · simpa [he] using hu.channelled q (hn q hq he)
  · intro q c hp hqc; exact hu.stale q c (.inl hp.1) hqc

/-- A port that arrives in AWAIT_SLOT is on its way until it joins the queue. -/
theorem State.transition_awaits {s : State} {P : PortIx → Prop} (h : s.view.but P) (p : PortIx) (f : Port → Port)
    (k : ∀ x, (f x).channel = x.channel) : (s.transition p .awaitSlot f).view.but fun q => P q ∨ q = p := by
  have hu := h.undone p
  rw [s.transition_view p .awaitSlot f k]
  refine ⟨?_, hu.out, hu.once, hu.ordered, ?_, hu.free, ?_, hu.stale⟩
  · intro q hq
    have he : q ≠ p := fun e => hq (.inr e)
    simpa [he] using hu.queued q hq
  · intro q c hq
    have he : q ≠ p := fun e => hq (.inr e)
    simpa [he] using hu.tuned q c hq
  · intro q hq
    have he : q ≠ p := fun e => hq (.inr e)
    simpa [he] using hu.channelled q hq

/-! ### The queue -/

theorem queueJoin_perm (q : List QueueEntry) (e : QueueEntry) : (queueJoin q e).Perm (e :: q) := by
  unfold queueJoin
  split
  · refine List.perm_middle.trans ?_
    rw [List.takeWhile_append_dropWhile]
  · exact List.perm_append_singleton e q

/-- A joining port keeps the classes in order (R119). -/
theorem queueJoin_ordered {q : List QueueEntry} (h : queueOrdered q) (e : QueueEntry) : queueOrdered (queueJoin q e) := by
  unfold queueOrdered queueJoin at *
  have cyc : ∀ x : QueueEntry, x.cycle ≠ .retrain → x.cycle = .initial := fun x hx => by cases hc : x.cycle <;> simp_all
  split
  · rename_i he
    have htake : ∀ x ∈ q.takeWhile (fun x => decide (x.cycle = .retrain)), x.cycle = .retrain := fun x hx => by
      simpa using List.mem_takeWhile_imp hx
    have hdrop : ∀ x ∈ q.dropWhile (fun x => decide (x.cycle = .retrain)), x.cycle = .initial := by
      clear he
      induction q with
      | nil => simp
      | cons y ys ih =>
        rw [List.pairwise_cons] at h
        intro x hx
        by_cases hy : y.cycle = .retrain
        · rw [List.dropWhile_cons_of_pos (by simpa using hy)] at hx
          refine ih h.2 (fun z hz => ?_) x hx
          simpa using List.mem_takeWhile_imp hz
        · rw [List.dropWhile_cons_of_neg (by simpa using hy)] at hx
          rcases List.mem_cons.mp hx with rfl | hx
          · exact cyc _ hy
          · exact h.1 x hx (cyc _ hy)
    rw [List.pairwise_append]
    refine ⟨h.sublist (List.takeWhile_sublist _), ?_, ?_⟩
    · rw [List.pairwise_cons]
      exact ⟨fun x hx _ => hdrop x hx, h.sublist (List.dropWhile_sublist _)⟩
    · intro x hx y hy hi
      rw [htake x hx] at hi; cases hi
  · rename_i he
    rw [List.pairwise_append]
    refine ⟨h, List.pairwise_singleton _ _, fun x hx y hy hi => ?_⟩
    rw [List.mem_singleton] at hy; subst hy; exact he

/-- A port on its way, in AWAIT_SLOT and with no channel, is settled when it joins the queue (R119). -/
theorem State.joinQueue_settles {s : State} {P : PortIx → Prop} {p : PortIx} (h : s.view.but P) (hp : P p)
    (ha : (s.port p).state = .awaitSlot) (hc : (s.port p).channel = none) : (s.joinQueue p).view.but fun q => P q ∧ q ≠ p := by
  have hperm := queueJoin_perm s.esu.queue { port := p, cycle := (s.port p).cycle }
  have hmem : ∀ x, x ∈ queueJoin s.esu.queue { port := p, cycle := (s.port p).cycle } ↔
      x = { port := p, cycle := (s.port p).cycle } ∨ x ∈ s.esu.queue := fun x => by rw [hperm.mem_iff, List.mem_cons]
  refine ⟨?_, ?_, ?_, queueJoin_ordered h.ordered _, ?_, ?_, ?_, ?_⟩
  · intro q hq
    by_cases he : q = p
    · subst he
      exact ⟨fun _ => ⟨_, (hmem _).mpr (.inl rfl), rfl⟩, fun _ => ha⟩
    · have hn : ¬ P q := fun hp' => hq ⟨hp', he⟩
      constructor
      · intro hs
        obtain ⟨x, hx, e⟩ := (h.queued q hn).mp hs
        exact ⟨x, (hmem x).mpr (.inr hx), e⟩
      · rintro ⟨x, hx, e⟩
        rcases (hmem x).mp hx with rfl | hx
        · exact absurd e.symm he
        · exact (h.queued q hn).mpr ⟨x, hx, e⟩
  · intro x hx hq
    rcases (hmem x).mp hx with rfl | hx
    · exact hq.2 rfl
    · exact h.out x hx hq.1
  · show ((queueJoin s.esu.queue _).map QueueEntry.port).Nodup
    rw [(hperm.map _).nodup_iff, List.map_cons, List.nodup_cons]
    refine ⟨fun hm => ?_, h.once⟩
    obtain ⟨x, hx, e⟩ := List.mem_map.mp hm
    exact h.out x hx (e ▸ hp)
  · intro q c hq
    by_cases he : q = p
    · subst he
      refine ⟨fun hs => ?_, fun ⟨w, hw, e⟩ => absurd (e ▸ hp) (h.free c w hw)⟩
      have := hs.1
      rw [show (s.joinQueue q).view.st q = (s.port q).state from rfl, ha] at this; cases this
    · exact h.tuned q c fun hp' => hq ⟨hp', he⟩
  · exact fun c w hw hq => h.free c w hw hq.1
  · intro q hq
    by_cases he : q = p
    · subst he
      show (s.port q).state = .tune ↔ (s.port q).channel ≠ none
      rw [ha, hc]; simp
    · exact h.channelled q fun hp' => hq ⟨hp', he⟩
  · exact fun q c hq hqc => h.stale q c hq.1 hqc

/-! ### The grant -/

theorem Esu.firstFree_none {e : Esu} {c : ChanIx} (h : e.firstFree = some c) : e.channels[c] = none := by
  simpa using List.find?_some h

/-- A grant takes the head of the queue into TUNE with the lowest free channel (R121). -/
theorem State.grantTo_slots {s : State} (h : s.slots) {e : QueueEntry} {q : List QueueEntry} {c : ChanIx} (hq : s.esu.queue = e :: q)
    (hc : s.esu.channels[c] = none) : (s.grantTo e.port c).slots := by
  have hstate : (s.port e.port).state = .awaitSlot := (h.queued e.port).mpr ⟨e, by simp [hq], rfl⟩
  have hnd := h.once
  rw [hq, List.map_cons, List.nodup_cons] at hnd
  have hne : ∀ x ∈ q, x.port ≠ e.port := fun x hx he => hnd.1 (List.mem_map.mpr ⟨x, hx, he⟩)
  let s1 : State := s.setEsu { channels := s.esu.channels.set c (some (s.newSweep e.port c)), queue := s.esu.queue.tail, grants := s.esu.grants + 1 }
  have ht : s.grantTo e.port c = s1.transition e.port .tune fun x => { x with channel := some c } := rfl
  have hesu : (s.grantTo e.port c).esu = { channels := s.esu.channels.set c (some (s.newSweep e.port c)), queue := q, grants := s.esu.grants + 1 } := by
    rw [ht, State.transition_esu, State.undoneEsu]
    have hs1 : (s1.port e.port).state = .awaitSlot := hstate
    rw [hs1]
    show Esu.mk _ _ _ = _
    have : (s1.esu.queue.filter fun x => decide (x.port ≠ e.port)) = q := by
      show ((s.esu.queue.tail).filter _) = q
      rw [hq, List.tail_cons, List.filter_eq_self]
      intro x hx; simpa using hne x hx
    rw [this]
    rfl
  have hp : ((s.grantTo e.port c).port e.port).state = .tune := by rw [ht]; exact State.transition_state _ _ _ _
  have hch : ((s.grantTo e.port c).port e.port).channel = some c := by
    rw [ht, (State.transition_record s1 e.port .tune _).channel]; rfl
  have ho : ∀ p, p ≠ e.port → (s.grantTo e.port c).port p = s.port p := fun p hp => by rw [ht, State.transition_port_other _ hp]; rfl
  have get : ∀ d : ChanIx, (s.grantTo e.port c).esu.channels[d] = if c = d then some (s.newSweep e.port c) else s.esu.channels[d] := by
    intro d; rw [hesu]; simp only [Fin.getElem_fin, Vector.getElem_set, Fin.ext_iff]
  have hqueue : (s.grantTo e.port c).esu.queue = q := by rw [hesu]
  refine ⟨?_, ?_, ?_, ?_, ?_⟩
  · intro p
    rw [hqueue]
    by_cases he : p = e.port
    · subst he
      rw [hp]
      exact ⟨nofun, fun ⟨x, hx, e'⟩ => absurd e' (hne x hx)⟩
    · rw [ho p he, h.queued p, hq]
      constructor
      · rintro ⟨x, hx, rfl⟩
        rcases List.mem_cons.mp hx with rfl | hx
        · exact absurd rfl he
        · exact ⟨x, hx, rfl⟩
      · exact fun ⟨x, hx, e'⟩ => ⟨x, List.mem_cons_of_mem _ hx, e'⟩
  · rw [hqueue]; exact hnd.2
  · rw [hqueue]
    have := h.ordered
    rw [hq] at this
    exact (List.pairwise_cons.mp this).2
  · intro p d
    rw [get d]
    by_cases he : p = e.port
    · subst he
      rw [hp, hch]
      by_cases hd : c = d
      · subst hd
        exact ⟨fun _ => ⟨s.newSweep e.port c, by simp, rfl⟩, fun _ => ⟨rfl, rfl⟩⟩
      · rw [if_neg hd]
        refine ⟨fun hx => absurd (Option.some.inj hx.2) hd, fun ⟨w, hw, e'⟩ => ?_⟩
        have := ((h.tuned e.port d).mpr ⟨w, hw, e'⟩).1
        rw [hstate] at this; cases this
    · rw [ho p he]
      by_cases hd : c = d
      · subst hd
        rw [if_pos rfl]
        constructor
        · intro hx
          obtain ⟨w, hw, -⟩ := (h.tuned p c).mp hx
          rw [hc] at hw; cases hw
        · rintro ⟨w, hw, e'⟩
          cases hw; exact absurd e'.symm he
      · rw [if_neg hd]; exact h.tuned p d
  · intro p
    by_cases he : p = e.port
    · subst he; rw [hp, hch]; simp
    · rw [ho p he]; exact h.channelled p

theorem State.grant_slots {s : State} (h : s.slots) : s.grant.slots := by
  unfold State.grant
  split
  · split
    · rename_i e q c hq hc
      exact State.grantTo_slots h hq (Esu.firstFree_none hc)
    · exact h
  · exact h

theorem State.grantTest_slots {s : State} (h : s.slots) : s.grantTest.slots :=
  State.grant_slots (State.grant_slots (State.grant_slots (State.grant_slots h)))

theorem State.afterAbort_slots {s : State} (h : s.slots) (z : PortState) : (s.afterAbort z).slots := by
  unfold State.afterAbort; split
  · exact State.grantTest_slots h
  · exact h

end Sys2Proof.Machine
end

