-- ==== Sys2Proof/Laws/SlotMoves.lean ====
section
/-! SUPPORT. Every shared operation keeps the ESU and the ports in step (`State.slots`), one lemma each. A port is `near` where it may
be between states: its sweep has just ended and its channel is free. -/

namespace Sys2Proof.Machine

/-- In step, or in step but for one port, which holds no channel and stands in no queue. -/
def State.near (s : State) (p : PortIx) : Prop := s.slots ∨ s.view.but fun q => q = p

variable {s t : State} {p : PortIx}

theorem State.slots.near (h : s.slots) (p : PortIx) : s.near p := .inl h

theorem State.near.of_view (h : s.near p) (k : t.view = s.view) : t.near p := by
  rcases h with h | h
  · exact .inl (State.slots_of_view h k)
  · exact .inr (by rw [k]; exact h)

theorem State.transition_slots (h : s.near p) {new : PortState} {f : Port → Port} (k : ∀ x, (f x).channel = x.channel)
    (ha : new ≠ .awaitSlot) (ht : new ≠ .tune) : (s.transition p new f).slots := by
  rw [State.slots_iff]
  rcases h with h | h
  · rw [State.slots_iff] at h
    exact (State.transition_settles h p new f k ha ht).mono fun q => by simp
  · exact (State.transition_settles h p new f k ha ht).mono fun q => by simp

theorem State.enterPaused_slots (h : s.near p) (g : PendingStage) : (s.enterPaused p g).slots :=
  State.transition_slots (s := s.postPort p _) (h.of_view rfl) (fun _ => rfl) nofun nofun

theorem State.enterAwaitSlot_slots (h : s.near p) : (s.enterAwaitSlot p).slots := by
  have ht : (s.transition p .awaitSlot id).view.but fun q => q = p := by
    rcases h with h | h
    · rw [State.slots_iff] at h
      exact (State.transition_awaits h p id fun _ => rfl).mono fun q => by simp
    · exact (State.transition_awaits h p id fun _ => rfl).mono fun q => by simp
  have hv := s.transition_view p .awaitSlot id fun _ => rfl
  have hc : ((s.transition p .awaitSlot id).port p).channel = none := by
    have := congrArg (fun v => v.ch p) hv; simpa using this
  have hj := State.joinQueue_settles ht rfl (s.transition_state p .awaitSlot id) hc
  unfold State.enterAwaitSlot
  refine State.grantTest_slots ?_
  rw [State.slots_iff, State.countAttempt_view]
  exact hj.mono fun q => by simp

theorem State.toAwaitSlot_slots (h : s.near p) : (s.toAwaitSlot p).slots := by
  unfold State.toAwaitSlot; split
  · exact State.enterPaused_slots h _
  · exact State.enterAwaitSlot_slots h

theorem State.peerTest_slots (h : s.slots) (p : PortIx) : (s.peerTest p).slots := by
  unfold State.peerTest; split
  · exact State.toAwaitSlot_slots (h.near p)
  · exact h

theorem State.enterPeerWait_slots (h : s.near p) : (s.enterPeerWait p).slots := by
  unfold State.enterPeerWait
  refine State.peerTest_slots ?_ p
  exact State.transition_slots h (fun _ => rfl) (by decide) (by decide)

theorem State.toPeerWait_slots (h : s.near p) : (s.toPeerWait p).slots := by
  unfold State.toPeerWait; split
  · exact State.enterPaused_slots h _
  · exact State.enterPeerWait_slots h

theorem State.syncPort_view (s : State) (p : PortIx) : (s.syncPort p).view = s.view := (s.syncPort_around p).view

theorem State.windowTest_slots (h : s.slots) (p : PortIx) : (s.windowTest p).slots := by
  unfold State.windowTest; split
  · refine State.slots_of_view h ?_
    rw [State.syncPort_view]
    exact s.modPort_view p _ (fun _ => rfl) fun _ => rfl
  · exact h

theorem State.enterQualify_slots (h : s.near p) : (s.enterQualify p).slots := by
  unfold State.enterQualify
  refine State.windowTest_slots ?_ p
  exact State.transition_slots h (fun _ => rfl) (by decide) (by decide)

theorem State.toQualify_slots (h : s.near p) : (s.toQualify p).slots := by
  unfold State.toQualify; split
  · exact State.enterPaused_slots h _
  · exact State.enterQualify_slots h

theorem State.enterHandover_slots (h : s.near p) : (s.enterHandover p).slots := State.transition_slots h (fun _ => rfl) nofun nofun

theorem State.toHandover_slots (h : s.near p) : (s.toHandover p).slots := by
  unfold State.toHandover; split
  · exact State.enterPaused_slots h _
  · exact State.enterHandover_slots h

theorem State.enterActive_slots (h : s.near p) : (s.enterActive p).slots := State.transition_slots h (fun _ => rfl) nofun nofun

theorem State.enterFaulted_slots (h : s.near p) (r : FaultReason) : (s.enterFaulted p r).slots := by
  unfold State.enterFaulted
  refine State.afterAbort_slots ?_ _
  refine State.slots_of_view ?_ (State.countPort_view _ p _)
  exact State.transition_slots (s := s.postPort p _) (h.of_view rfl) (fun _ => rfl) nofun nofun

theorem State.failedAttempt_slots (h : s.near p) (r : FaultReason) : (s.failedAttempt p r).slots := by
  have k : (s.modPort p fun x => { x with attempts := x.attempts + 1 }).near p :=
    h.of_view (s.modPort_view p _ (fun _ => rfl) fun _ => rfl)
  unfold State.failedAttempt
  dsimp only
  split
  · exact State.enterFaulted_slots k r
  · exact State.toAwaitSlot_slots k

theorem State.enterVerified_slots (h : s.near p) : (s.enterVerified p).slots := State.transition_slots h (fun _ => rfl) nofun nofun

theorem State.enterConsult_slots (h : s.near p) (n : Snapshot) : (s.enterConsult p n).slots :=
  State.transition_slots (s := s.postPort p _) (h.of_view rfl) (fun _ => rfl) nofun nofun

theorem State.byMode_slots (h : s.near p) : (s.byMode p).slots := by
  unfold State.byMode; split
  · exact State.enterVerified_slots h
  · exact State.toPeerWait_slots h

theorem State.decide8_slots (h : s.near p) (n : Snapshot) (v : Option Verdict) (m : Vector MapEntry 8 × MapClass × Width) :
    (s.decide8 p n v m).slots := by
  have k : (s.modPort p fun x => { x with map := m.1, mapClass := some m.2.1, width := some m.2.2 }).near p :=
    h.of_view (s.modPort_view p _ (fun _ => rfl) fun _ => rfl)
  unfold State.decide8
  dsimp only
  split
  · exact State.enterConsult_slots k n
  · exact State.byMode_slots k

theorem State.derivation_slots (h : s.slots) (p : PortIx) : (s.derivation p).slots := by
  unfold State.derivation
  split
  · exact h
  · rename_i n _
    have k : (s.modPort p fun x =>
        { x with neighbour := (derive n (s.port p).usables).neighbour, verdict := (derive n (s.port p).usables).verdict }).near p :=
      (h.near p).of_view (s.modPort_view p _ (fun _ => rfl) fun _ => rfl)
    dsimp only
    split
    · exact State.enterFaulted_slots k _
    · exact State.decide8_slots k n _ _

theorem State.discoveryTest_slots (h : s.slots) (p : PortIx) : (s.discoveryTest p).slots := by
  unfold State.discoveryTest; split
  · exact State.derivation_slots h p
  · exact h

theorem State.darkTest_slots (h : s.slots) (p : PortIx) : (s.darkTest p).slots := by
  unfold State.darkTest; split
  · exact State.enterFaulted_slots (h.near p) _
  · exact h

theorem State.enterDiscover_slots (h : s.near p) : (s.enterDiscover p).slots := by
  unfold State.enterDiscover
  refine State.darkTest_slots (State.discoveryTest_slots (State.afterAbort_slots ?_ _) p) p
  exact State.transition_slots h (fun _ => rfl) (by decide) (by decide)

theorem State.stopPort_slots (h : s.slots) (p : PortIx) : (s.stopPort p).slots := by
  unfold State.stopPort; split
  · exact h
  · exact State.transition_slots (h.near p) (fun _ => rfl) nofun nofun

theorem State.resetPort_slots (h : s.slots) (p : PortIx) : (s.resetPort p).slots :=
  State.slots_of_view (State.stopPort_slots h p) (State.modPort_view _ p _ (fun _ => rfl) fun _ => rfl)

/-! ### Sweeps -/

/-- A channel freed while its port is still in TUNE leaves that port on its way (R127, R128). -/
theorem State.free_near (h : s.slots) {c : ChanIx} {w : Sweep} (hw : s.esu.channels[c] = some w) :
    (s.setEsu (s.esu.free c)).near w.port := by
  have ht := (h.tuned w.port c).mpr ⟨w, hw, rfl⟩
  have get : ∀ d : ChanIx, (s.setEsu (s.esu.free c)).esu.channels[d] = if c = d then none else s.esu.channels[d] := by
    intro d; simp only [State.setEsu_esu, Esu.free, Fin.getElem_fin, Vector.getElem_set, Fin.ext_iff]
  have other : ∀ (d : ChanIx) (u : Sweep), c ≠ d → s.esu.channels[d] = some u → u.port ≠ w.port := by
    intro d u hd hu e
    have := (h.tuned w.port d).mpr ⟨u, hu, e⟩
    rw [ht.2] at this
    exact hd (Option.some.inj this.2)
  refine .inr ⟨?_, ?_, h.once, h.ordered, ?_, ?_, ?_, ?_⟩
  · exact fun q _ => h.queued q
  · intro e he hp
    have := (h.queued w.port).mpr ⟨e, he, hp⟩
    rw [ht.1] at this; cases this
  · intro q d hq
    rw [State.view_esu, get d]
    by_cases hd : c = d
    · subst hd
      rw [if_pos rfl]
      constructor
      · intro hx
        obtain ⟨u, hu, e⟩ := (h.tuned q c).mp hx
        rw [hw] at hu; cases hu; exact absurd e.symm hq
      · rintro ⟨u, hu, -⟩; cases hu
    · rw [if_neg hd]; exact h.tuned q d
  · intro d u hu
    rw [State.view_esu, get d] at hu
    by_cases hd : c = d
    · rw [if_pos hd] at hu; cases hu
    · rw [if_neg hd] at hu; exact other d u hd hu
  · exact fun q _ => h.channelled q
  · intro q d hq hd
    rw [State.view_esu, get d]
    subst hq
    rw [show (s.setEsu (s.esu.free c)).view.ch w.port = (s.port w.port).channel from rfl, ht.2] at hd
    cases hd
    rw [if_pos rfl]

theorem State.sweepOutcome_slots (h : s.near p) (ys : List SweepLane) : (s.sweepOutcome p ys).slots := by
  unfold State.sweepOutcome; split
  · exact State.toQualify_slots h
  · split
    · exact State.toQualify_slots (h.of_view (s.reduceWidth_view p _))
    · exact State.failedAttempt_slots h _

theorem State.endSweep_slots (h : s.slots) {c : ChanIx} {w v : Sweep} (hw : s.esu.channels[c] = some w) (hv : v.port = w.port) (d : Detail) :
    (s.endSweep c v d).slots := by
  unfold State.endSweep
  rw [hv]
  refine State.grantTest_slots (State.sweepOutcome_slots ?_ _)
  have hpost : ∀ t : State, t.near w.port → (t.postPort w.port d).near w.port := fun t ht => ht.of_view rfl
  exact hpost _ (State.free_near h hw)

theorem State.setSweep_slots (h : s.slots) {c : ChanIx} {w v : Sweep} (hw : s.esu.channels[c] = some w) (hv : v.port = w.port) :
    (s.setSweep c v).slots := by
  refine ⟨h.queued, h.once, h.ordered, fun q d => ?_, h.channelled⟩
  have get : (s.setSweep c v).esu.channels[d] = if c = d then some v else s.esu.channels[d] := by
    simp only [State.setSweep, State.setEsu_esu, Fin.getElem_fin, Vector.getElem_set, Fin.ext_iff]
  rw [get]
  by_cases hd : c = d
  · subst hd
    rw [if_pos rfl]
    refine Iff.trans (h.tuned q c) ⟨?_, ?_⟩
    · rintro ⟨u, hu, e⟩; rw [hw] at hu; cases hu; exact ⟨v, rfl, hv.trans e⟩
    · rintro ⟨u, hu, e⟩; cases hu; exact ⟨w, hw, hv.symm.trans e⟩
  · rw [if_neg hd]; exact h.tuned q d

theorem State.completeSweep_slots (h : s.slots) {c : ChanIx} {w v : Sweep} (hw : s.esu.channels[c] = some w) (hv : v.port = w.port) :
    (s.completeSweep c v).slots := by
  have hg := s.writeGains_view v
  have hc : (s.writeGains v).esu.channels[c] = some w := by
    rw [← State.view_esu, hg]; exact hw
  exact State.endSweep_slots (State.slots_of_view h hg) hc hv _

theorem State.watchdog_slots (h : s.slots) (c : ChanIx) : (s.watchdog c).slots := by
  unfold State.watchdog; split
  · exact h
  · rename_i w hw
    have hv : ({ w with lanes := w.lanes.map SweepLane.timedOut } : Sweep).port = w.port := rfl
    exact State.endSweep_slots h hw hv _

theorem State.sweepOf_some {c : ChanIx} {w : Sweep} (h : s.sweepOf p = some (c, w)) : s.esu.channels[c] = some w := by
  simp only [State.sweepOf, Option.bind_eq_some_iff, Option.map_eq_some_iff] at h
  obtain ⟨d, -, v, hv, e⟩ := h
  cases e; exact hv

theorem State.sweepBeacon_slots (h : s.slots) (p : PortIx) (l : LanePos) : (s.sweepBeacon p l).slots := by
  unfold State.sweepBeacon; split
  · exact h
  · rename_i c w hw
    dsimp only; split
    · exact State.completeSweep_slots h (State.sweepOf_some hw) rfl
    · exact State.setSweep_slots h (State.sweepOf_some hw) rfl

theorem State.sweepFigure_slots (h : s.slots) (p : PortIx) (l : LanePos) (n : Nat) (g : Byte) : (s.sweepFigure p l n g).slots := by
  unfold State.sweepFigure; split
  · exact h
  · rename_i c w hw
    split
    · exact State.setSweep_slots h (State.sweepOf_some hw) rfl
    · exact h

/-! ### Lane events -/

theorem State.modPort_slots (h : s.slots) (p : PortIx) {f : Port → Port} (k : ∀ x, (f x).state = x.state)
    (m : ∀ x, (f x).channel = x.channel) : (s.modPort p f).slots := State.slots_of_view h (s.modPort_view p f k m)

theorem State.takeRetrain_slots (h : s.slots) (p : PortIx) (l : LanePos) (c : RetrainCause) (v : Option (RetrainWindow × List Bool)) :
    (s.takeRetrain p l c v).slots := by
  unfold State.takeRetrain; split
  · exact State.enterFaulted_slots (h.near p) _
  · dsimp only
    refine State.toAwaitSlot_slots (State.slots.near ?_ p)
    refine State.modPort_slots ?_ p (fun _ => rfl) fun _ => rfl
    refine State.slots_of_view h ?_
    rw [State.postPort, State.post_view, State.countPort_view]
    exact s.modPort_view p _ (fun _ => rfl) fun _ => rfl

theorem State.withdraw_slots (h : s.slots) (p : PortIx) (l : LanePos) (e : WithdrawEvent) : (s.withdraw p l e).slots :=
  State.enterDiscover_slots ((State.slots_of_view h (t := s.postLane p l _) rfl).near p)

theorem State.lostEvent_slots (h : s.slots) (p : PortIx) (l : LanePos) (e : LaneEvent) : (s.lostEvent p l e).slots := by
  unfold State.lostEvent
  split
  · exact State.enterDiscover_slots ((State.slots_of_view h (t := s.postLane p l _) rfl).near p)
  · exact State.enterDiscover_slots ((State.slots_of_view h (t := s.postLane p l _) rfl).near p)
  all_goals exact h

theorem State.huntEvent_slots (h : s.slots) (p : PortIx) (l : LanePos) (e : LaneEvent) : (s.huntEvent p l e).slots := by
  unfold State.huntEvent
  split
  · exact State.enterDiscover_slots ((State.slots_of_view h (t := s.postLane p l _) rfl).near p)
  · exact h

theorem State.discoverEvent_slots (h : s.slots) (p : PortIx) (l : LanePos) (e : LaneEvent) : (s.discoverEvent p l e).slots := by
  unfold State.discoverEvent
  split
  · exact State.discoveryTest_slots h p
  · exact State.discoveryTest_slots h p
  · split
    · exact State.modPort_slots h p (fun _ => rfl) fun _ => rfl
    · exact h
  all_goals exact h

theorem State.darkEvent_slots (h : s.slots) (p : PortIx) (l : LanePos) (e : LaneEvent) : (s.darkEvent p l e).slots := by
  unfold State.darkEvent
  split
  · split
    · exact h
    · exact State.enterFaulted_slots (h.near p) _
  · exact h

theorem State.postPort_slots (h : s.slots) (p : PortIx) (d : Detail) : (s.postPort p d).slots := State.slots_of_view h rfl

theorem State.consultEvent_slots (h : s.slots) (p : PortIx) (l : LanePos) (e : LaneEvent) : (s.consultEvent p l e).slots := by
  unfold State.consultEvent
  split <;> first
    | exact h
    | split <;> first
      | exact h
      | exact State.withdraw_slots h p l _

theorem State.laneEvent_slots (h : s.slots) (p : PortIx) (l : LanePos) (e : LaneEvent) : (s.laneEvent p l e).slots := by
  unfold State.laneEvent
  split <;> first
    | exact h
    | exact State.darkEvent_slots h p l e
    | exact State.consultEvent_slots h p l e
    | split <;> first
      | exact h
      | exact State.discoverEvent_slots h p l e
      | exact State.darkEvent_slots h p l e
      | exact State.lostEvent_slots h p l e
      | exact State.huntEvent_slots h p l e

theorem State.farEndEvent_slots (h : s.slots) (p : PortIx) (l : LanePos) (b : Beacon) (g : Option Stage) :
    (s.farEndEvent p l b g).slots := by
  have hd := State.enterDiscover_slots (h.near p)
  have hf := State.failedAttempt_slots (h.near p) .qualifyFail
  unfold State.farEndEvent
  dsimp only
  split
  · exact State.enterFaulted_slots (h.near p) _
  · split
    · exact State.peerTest_slots h p
    · split <;> assumption
    · split <;> assumption
    · split <;> assumption
    · split
      · exact hd
      · split
        · split <;> assumption
        · exact State.windowTest_slots h p
    · split
      · exact hd
      · split
        · exact hf
        · exact State.modPort_slots h p (fun _ => rfl) fun _ => rfl
    · exact h

theorem State.farTests_slots (h : s.slots) (p : PortIx) (l : LanePos) (b : Beacon) (g : Option Stage) : (s.farTests p l b g).slots := by
  unfold State.farTests
  split <;> first
    | exact h
    | split <;> first
      | exact h
      | exact State.farEndEvent_slots h p l b g
      | exact State.takeRetrain_slots h p l _ _

theorem State.foldl_slots {α : Type} {f : State → α → State} (xs : List α) (k : ∀ t a, t.slots → (f t a).slots) (h : s.slots) :
    (xs.foldl f s).slots := by
  induction xs generalizing s with
  | nil => exact h
  | cons a xs ih => exact ih (k s a h)

theorem State.loopCheck_slots (h : s.slots) (p : PortIx) (l : LanePos) : (s.loopCheck p l).slots := by
  have k : (s.judgeLoop p l).slots := State.slots_of_view h (s.judgeLoop_around p l).view
  unfold State.loopCheck; split
  · exact State.discoveryTest_slots k p
  · exact k

theorem State.handEvents_slots (h : s.slots) (p : PortIx) (l : LanePos) (es : List LaneEvent) : (s.handEvents p l es).slots := by
  unfold State.handEvents
  refine State.foldl_slots es (fun t e ht => State.laneEvent_slots ht p l e) (State.loopCheck_slots ?_ p l)
  refine State.foldl_slots es (fun t e ht => ?_) h
  unfold State.reportChange; split
  · exact State.slots_of_view ht rfl
  · exact ht

theorem State.receiveGood_slots (h : s.slots) (p : PortIx) (l : LanePos) (b : Beacon) (pol : Polarity) :
    (s.receiveGood p l b pol).slots := by
  have k : ((((s.countLane p l ctrBeaconGood 1).modLane p l fun y =>
      (if (s.port p).honoursTaps then y.honour b.tap else y).received (((s.port p).lane l).rx.good b pol).1
        ((s.port p).nearEnd l) ((s.port p).lock l) ((s.port p).correctionAfter l (((s.port p).lane l).rx.good b pol).1))).handEvents p l (((s.port p).lane l).rx.good b pol).2).slots := by
    refine State.handEvents_slots (State.slots_of_view h ?_) p l _
    rw [State.modLane_view, State.countLane_view]
  unfold State.receiveGood
  dsimp only
  by_cases hc : ((((s.countLane p l ctrBeaconGood 1).modLane p l fun y =>
      (if (s.port p).honoursTaps then y.honour b.tap else y).received (((s.port p).lane l).rx.good b pol).1
        ((s.port p).nearEnd l) ((s.port p).lock l) ((s.port p).correctionAfter l (((s.port p).lane l).rx.good b pol).1)).handEvents p l (((s.port p).lane l).rx.good b pol).2).port p).state = (s.port p).state
  · rw [if_pos hc]; exact State.farTests_slots k p l b _
  · rw [if_neg hc]; exact k

theorem State.receiveBad_slots (h : s.slots) (p : PortIx) (l : LanePos) : (s.receiveBad p l).slots := by
  unfold State.receiveBad
  dsimp only
  refine State.handEvents_slots ?_ p l _
  have k : ((s.countLane p l ctrBeaconBad 1).modLane p l fun y =>
      y.received ((s.port p).lane l).rx.bad.1 ((s.port p).nearEnd l) ((s.port p).lock l)
        ((s.port p).correctionAfter l ((s.port p).lane l).rx.bad.1)).slots := by
    refine State.slots_of_view h ?_
    rw [State.modLane_view, State.countLane_view]
  unfold State.readyLost; split
  · exact State.modPort_slots k p (fun _ => rfl) fun _ => rfl
  · exact k

theorem State.receive_slots (h : s.slots) (p : PortIx) (l : LanePos) (c : Classed) : (s.receive p l c).slots := by
  cases c with
  | nothing => exact h
  | bad => exact State.receiveBad_slots h p l
  | good b pol => exact State.receiveGood_slots h p l b pol

theorem State.silence_slots (h : s.slots) (p : PortIx) (l : LanePos) : (s.silence p l).slots := by
  unfold State.silence
  dsimp only
  exact State.handEvents_slots (State.slots_of_view h (s.modLane_view p l _)) p l _

/-! ### Qualification and monitoring -/

theorem State.takeOutcome_slots (h : s.slots) (p : PortIx) (o : QualOutcome) : (s.takeOutcome p o).slots := by
  cases o with
  | handover => exact State.toHandover_slots (h.near p)
  | halfHandover => exact State.toHandover_slots ((h.near p).of_view (s.reduceWidth_view p _))
  | failedAttempt => exact State.failedAttempt_slots (h.near p) _

theorem State.endWindow_slots (h : s.slots) (p : PortIx) (n : PlanEntry) (q : QualRecord) (d : Option (LanePos × LanePos)) :
    (s.endWindow p n q d).slots := by
  unfold State.endWindow
  exact State.takeOutcome_slots (State.postPort_slots h p _) p _

theorem State.afterBlock_slots (h : s.slots) (p : PortIx) (n : PlanEntry) (q : QualRecord) (e : QualEntry) :
    (s.afterBlock p n q e).slots := by
  have k : ∀ q, (s.modPort p (·.setQualify q)).slots := fun q => State.modPort_slots h p (fun _ => rfl) fun _ => rfl
  unfold State.afterBlock; split
  · exact State.endWindow_slots (k _) p _ _ _
  · split
    · exact State.endWindow_slots (k _) p _ _ _
    · exact k _

theorem State.qualifyBlock_slots (h : s.slots) (p : PortIx) (l : LanePos) (n : Nat) : (s.qualifyBlock p l n).slots := by
  unfold State.qualifyBlock
  split
  · split
    · split
      · exact State.afterBlock_slots h p _ _ _
      · exact h
    · exact h
  · exact h

theorem State.countBlock_slots (h : s.slots) (p : PortIx) (l : LanePos) (n : Nat) : (s.countBlock p l n).slots := by
  have k : (((s.modPort p (·.nextBlock l)).countLane p l ctrPrbsErr n).countLane p l ctrPrbsBlocks 1).slots := by
    refine State.slots_of_view h ?_
    rw [State.countLane_view, State.countLane_view]
    exact s.modPort_view p _ (fun _ => rfl) fun _ => rfl
  unfold State.countBlock
  dsimp only
  split
  · exact State.qualifyBlock_slots k p l n
  · exact k

theorem State.judgePeriod_slots (h : s.slots) (p : PortIx) (l : LanePos) : (s.judgePeriod p l).slots := by
  refine State.slots_of_view h ?_
  unfold State.judgePeriod
  split
  · dsimp only; split
    · rw [State.countLane_view, State.modLane_view]
    · rw [State.modLane_view]
  · rfl

theorem State.takeTrigger_slots (h : s.slots) (p : PortIx) (l : LanePos) : (s.takeTrigger p l).slots := by
  unfold State.takeTrigger; split
  · exact State.takeRetrain_slots h p l _ _
  · exact h

theorem State.takeTriggers_slots (n : Nat) (ks : List (PortIx × LanePos)) (h : s.slots) : (State.takeTriggers n ks s).slots := by
  induction n generalizing ks s with
  | zero => exact h
  | succ n ih =>
    match ks with
    | [] => exact h
    | [k] => exact State.takeTrigger_slots h _ _
    | a :: b :: ks => exact ih _ (State.takeTrigger_slots (State.slots_of_view (t := s.useFree) h rfl) _ _)

theorem State.linkLost_slots (h : s.slots) (p : PortIx) (l : LanePos) (v : Hunt) : (s.linkLost p l v).slots :=
  State.enterDiscover_slots ((State.slots_of_view h (t := s.postLane p l _) rfl).near p)

/-! ### Requests -/

theorem State.driftCheck_slots (h : s.slots) : s.driftCheck.slots := by
  unfold State.driftCheck
  refine State.foldl_slots _ (fun t p ht => ?_) h
  split
  · exact State.slots_of_view ht rfl
  · exact ht

theorem State.startInto_slots (h : s.slots) (p : PortIx) (m : Mode) : (s.startInto p m).slots := by
  cases m with
  | manual => exact State.transition_slots (h.near p) (fun _ => rfl) nofun nofun
  | verify => exact State.enterDiscover_slots (h.near p)
  | auto =>
    show State.slots (if _ then _ else _); split
    exacts [State.toPeerWait_slots (h.near p), State.enterDiscover_slots (h.near p)]
  | step =>
    show State.slots (if _ then _ else _); split
    exacts [State.toPeerWait_slots (h.near p), State.enterDiscover_slots (h.near p)]

theorem State.stepInto_slots (h : s.slots) (p : PortIx) (g : Option PendingStage) : (s.stepInto p g).slots := by
  match g with
  | none => exact h
  | some .peerWait => exact State.enterPeerWait_slots (h.near p)
  | some .awaitSlot => exact State.enterAwaitSlot_slots (h.near p)
  | some .qualify => exact State.enterQualify_slots (h.near p)
  | some .handover => exact State.enterHandover_slots (h.near p)

theorem State.takeAnswer_slots (h : s.slots) (p : PortIx) (a : Bool) : (s.takeAnswer p a).slots := by
  unfold State.takeAnswer; split
  · have k : (s.modPort p fun x => { x with accepted := true }).slots := State.modPort_slots h p (fun _ => rfl) fun _ => rfl
    exact State.byMode_slots (k.near p)
  · exact State.enterFaulted_slots (h.near p) _

theorem Port.storeControl_state (x : Port) (l : LanePos) (c : Control) : (x.storeControl l c).state = x.state := by
  unfold Port.storeControl Port.turnNearEnd; dsimp only; split <;> (try split) <;> rfl

theorem Port.storeControl_channel (x : Port) (l : LanePos) (c : Control) : (x.storeControl l c).channel = x.channel := by
  unfold Port.storeControl Port.turnNearEnd; dsimp only; split <;> (try split) <;> rfl

theorem State.storeControl_slots (h : s.slots) (p : PortIx) (l : LanePos) (c : Control) : (s.storeControl p l c).slots := by
  have k : (((s.modPort p (·.storeControl l c)).loopCheck p l).syncPort p).slots := by
    refine State.slots_of_view (State.loopCheck_slots ?_ p l) (State.syncPort_view _ p)
    exact State.modPort_slots h p (fun x => x.storeControl_state l c) fun x => x.storeControl_channel l c
  unfold State.storeControl
  dsimp only
  split
  · unfold State.afterExclude; split
    · exact State.withdraw_slots k p l _
    · exact k
  · split
    · unfold State.afterInclude; split
      · exact State.discoveryTest_slots k p
      · exact State.darkTest_slots k p
    · exact k

/-! ### The line -/

theorem State.handBeacon_slots (h : s.slots) (p : PortIx) (l : LanePos) : (s.handBeacon p l).slots := by
  have k : (s.modPort p fun x => { x with handover := x.handover.map (·.addSent l) }).slots :=
    State.modPort_slots h p (fun _ => rfl) fun _ => rfl
  unfold State.handBeacon
  dsimp only
  split
  · exact State.enterActive_slots (k.near p)
  · exact k

theorem State.afterBeacon_slots (h : s.slots) (p : PortIx) (l : LanePos) : (s.afterBeacon p l).slots := by
  unfold State.afterBeacon; split
  · exact State.sweepBeacon_slots h p l
  · exact State.handBeacon_slots h p l
  · exact h

theorem State.hearOwn_slots (h : s.slots) (p : PortIx) (l : LanePos) (bs : List Byte) : (s.hearOwn p l bs).slots := by
  unfold State.hearOwn; split
  · exact State.receive_slots h p l _
  · exact h

theorem State.sendBeacon_slots (h : s.slots) (p : PortIx) (l : LanePos) (me : LocalId) : (s.sendBeacon p l me).slots :=
  State.hearOwn_slots (State.afterBeacon_slots (State.slots_of_view h (s.modLane_view p l _)) p l) p l _

theorem State.loopBack_slots (h : s.slots) (p : PortIx) (l : LanePos) (bs : List Byte) : (s.loopBack p l bs).slots := by
  unfold State.loopBack; split
  · exact State.slots_of_view h (s.modLane_view p l _)
  · exact h

theorem State.setLock_slots (h : s.slots) (p : PortIx) (l : LanePos) (k : PatternLock) : (s.setLock p l k).slots := by
  refine State.slots_of_view h ?_
  unfold State.setLock
  rw [State.syncPort_view, State.modLane_view]

theorem State.discoveryExpiry_slots (h : s.slots) (p : PortIx) : (s.discoveryExpiry p).slots := by
  unfold State.discoveryExpiry
  split
  · split
    · exact State.enterFaulted_slots (h.near p) _
    · exact State.derivation_slots h p
  · split
    · exact State.enterFaulted_slots (h.near p) _
    · exact State.transition_slots (h.near p) (fun _ => rfl) nofun nofun

theorem State.closed_slots (h : s.slots) : s.closed.slots := by
  refine State.slots_of_view h (View.ext (funext fun q => ?_) (funext fun q => ?_) ?_)
  · simp
  · simp
  · simp

end Sys2Proof.Machine
end

