-- ==== Sys2Proof/WellFormed.lean ====
section
/-! DEFINITION. Which command terms stand for something that can reach the part. -/

namespace Sys2Proof

/-- A label a request body can carry: its length byte is below 0xFF (R189 item 6). -/
def RawEntry.wellFormed (e : RawEntry) : Bool :=
  match e.label with
  | none => true
  | some t => decide (t.length < 255)

/-- The well-formed commands. UNKNOWN_CODE carries a code that names no request (R190); a beacon is 15 to 18 bytes long (R191);
a label fits its length byte (R189). Every other operand is in range by its type. -/
def Instr.wellFormed : Instr → Bool
  | .unknownCode code => decide (code.toNat = 0 ∨ 0x18 < code.toNat)
  | .planWrite _ _ e => e.wellFormed
  | .backgroundWrite e => e.wellFormed
  | .planFill _ _ _ _ e => e.wellFormed
  | .beaconArrival _ _ bytes => decide (15 ≤ bytes.length ∧ bytes.length ≤ 18)
  | .powerOn _ _ | .pinReset _ _ | .frameComplete _ | .gapTimerExpiry | .replySent => true
  | .deviceInfo | .setIdentity _ _ | .settingsWrite _ | .settingsRead => true
  | .planRead _ _ | .layerSet _ | .layerRead | .resolve _ => true
  | .portStart _ _ | .portStep _ | .portStop _ | .portQuery _ | .laneQuery _ _ => true
  | .laneControl _ _ _ | .laneInject _ _ _ _ | .consultAnswer _ _ _ _ => true
  | .counterRead _ _ _ | .counterWrite _ _ _ _ _ | .reportFetch _ | .reportMask _ => true
  | .planBlockReset | .portBlockReset _ | .allPortsBlockReset | .esuBlockReset => true
  | .reportsBlockReset | .countersBlockReset | .restart => true
  | .silenceTimerExpiry _ _ | .discoveryTimerExpiry _ | .consultTimerExpiry _ | .farEndWaitExpiry _ => true
  | .figureOfMerit _ _ _ | .beaconTransmit _ _ | .testBlockTransmit _ _ | .watchdogExpiry _ => true
  | .patternLockLost _ _ | .patternLockRegained _ _ | .testBlockEnd _ _ _ | .symbolError _ _ => true
  | .monitorPeriodEnd | .cleanRunExpiry _ | .blockLockLost _ _ | .blockLockRegained _ _ => true
  | .recoveryTimerExpiry _ _ | .intervalBoundary | .managementByteReceived _ => true

end Sys2Proof
end

