-- ==== Sys2Proof/Tests/Slice0.lean ====
section
/-! SUPPORT. Small tests: the smoke test of well-formedness, single commands against results worked out by hand from spec/, and for
every statement a concrete state and operands that meet its hypotheses, clause by clause. -/

section

set_option Elab.async false

namespace Sys2Proof.Machine.Demo

/-! ### Helpers -/

/-- The reset state with port 0 changed. -/
def withPort (f : Port → Port) : State := State.reset.modPort 0 f

/-- The reset state with port 0 in a state. -/
def inState (z : PortState) : State := withPort fun x => { x with state := z }

/-- A receiver that has been STABLE on an identity. -/
def stableOn (i : Identity) : Receiver :=
  { Receiver.fresh with state := .stable, lastStable := some i, candidate := some i, stabRun := 4, goodRun := 4 }

/-- The far port of the tests. -/
def farId (l : LanePos) : Identity := { chassis := 7, portNum := 3, lane := l, count := .eight, polarity := .normal }

/-- A straight map over eight lanes. -/
def straightMap : Vector MapEntry 8 := Vector.ofFn fun l : LanePos => { remote := some l, polarity := .normal, logical := some l }

/-- A NORMAL plan entry of eight lanes. -/
def normal : PlanEntry := { PlanEntry.resetBackground with kind := .normal }

/-- A port past discovery: a straight map at full width over STABLE lanes, no beacon kept. -/
def mapped (z : PortState) : State :=
  withPort fun x => Port.mapLanes
    { x with state := z, snapshot := some { entry := normal, source := .base }, neighbour := some { chassis := 7, portNum := 3 }
             verdict := some .matching, map := straightMap, mapClass := some .straight, width := some .full }
    fun l y => { y with rx := stableOn (farId l) }

/-- The same port in TUNE on channel 0. -/
def tuning : State :=
  ((mapped .tune).modPort 0 fun x => { x with channel := some 0 }).setSweep 0 ((mapped .tune).newSweep 0 0)

/-- An identity of the part. -/
def me : LocalId := { chassis := 9, base := 0 }

/-- A beacon of the far port. -/
def beacon (l : LanePos) : Beacon :=
  { chassis := 7, portNum := 3, lane := l, count := .eight, stage := .disc
    flags := { hold := false, retrain := false, remoteFault := false, loopReq := false }, fault := none, tap := none }

/-- A raw plan entry that stands for the NORMAL entry of the tests. -/
def raw : RawEntry :=
  { kind := 1, chassis := 0, portNum := 0xFFFF, count := 8, width := 0, map := 2, polarity := 0, ask := 0, loop := 0, grade := 48
    window := 4096, label := none }

/-- A raw lane control record: the record after power-on. -/
def rawControl : RawControl :=
  { source := 0, pattern := 0, flags := 0, check := 0, near := 0, far := 0, invert := 0, excluded := 0 }

/-- Raw settings: those after power-on. -/
def rawSettings : RawSettings :=
  { discovery := 10, consult := 30, farEndWait := 5, errThreshold := 16, retrain := 5, sweepLimit := 4, sampling := 0
    decimation := 0, attention := 1 }

/-- The reset state with its request buffer replaced. -/
def withBuffer (b : List BufEntry) : State := State.reset.setMpt { State.reset.mpt with buffer := b }

/-- A buffered SETTINGS_READ. -/
def request (ph : EntryPhase) : BufEntry := { code := 4, tag := 7, body := [], phase := ph }

/-- The reset state with its assembler replaced. -/
def withAsm (a : Assembler) : State := State.reset.setMpt { State.reset.mpt with asm := a }

/-- The checks of State.slots that can be decided. -/
def slotChecks (s : State) : Prop :=
  (∀ p, (s.port p).state = .awaitSlot ↔ ∃ e ∈ s.esu.queue, e.port = p) ∧ (s.esu.queue.map QueueEntry.port).Nodup ∧
    (s.esu.queue.Pairwise fun a b => a.cycle = .initial → b.cycle = .initial) ∧
    (∀ p (c : ChanIx), ((s.port p).state = .tune ∧ (s.port p).channel = some c) ↔
      (s.esu.channels[c].any fun w => decide (w.port = p)) = true) ∧
    ∀ p, (s.port p).state = .tune ↔ (s.port p).channel ≠ none

theorem slots_of_checks {s : State} (h : slotChecks s) : s.slots where
  queued := h.1
  once := h.2.1
  ordered := h.2.2.1
  tuned p c := by
    rw [h.2.2.2.1 p c]
    cases s.esu.channels[c] <;> simp
  channelled := h.2.2.2.2

theorem tuning_slots : tuning.slots := slots_of_checks (by unfold slotChecks; decide)

end Sys2Proof.Machine.Demo

open Sys2Proof Sys2Proof.Machine Sys2Proof.Machine.Demo

/-! ### Well-formedness: one ill-formed term for each check, refused -/

/-- R190: 0x01 names a request. -/
theorem test_unknownCode_refuses_a_known_code :
    (Instr.unknownCode 0x01).wellFormed = false ∧ (Instr.unknownCode 0x19).wellFormed = true := by decide +kernel

/-- R189 item 6: the length byte 0xFF means that no label is there. -/
theorem test_label_of_255_is_ill_formed :
    (Instr.planWrite 0 0 { raw with label := some (List.replicate 255 0x41) }).wellFormed = false ∧
    (Instr.backgroundWrite { raw with label := some (List.replicate 255 0x41) }).wellFormed = false ∧
    (Instr.planFill 0 0 1 0 { raw with label := some (List.replicate 255 0x41) }).wellFormed = false ∧
    (Instr.planWrite 0 0 { raw with label := some (List.replicate 254 0x41) }).wellFormed = true := by decide +kernel

/-- R191: a beacon has 15 to 18 bytes. -/
theorem test_beacon_lengths :
    (Instr.beaconArrival 0 0 (List.replicate 14 0)).wellFormed = false ∧
    (Instr.beaconArrival 0 0 (List.replicate 19 0)).wellFormed = false ∧
    (Instr.beaconArrival 0 0 (List.replicate 15 0)).wellFormed = true ∧
    (Instr.beaconArrival 0 0 (List.replicate 18 0)).wellFormed = true := by decide +kernel

/-! ### Bytes on the line, written out from R189 to R195 -/

/-- The table of commands gives its rows no bits, so no word spells one. -/
theorem test_no_word_spells_a_command : decodeTableWord 8 0x04 = none := rfl

/-- The check value of this CRC over the digits 1 to 9 (known of polynomial 0x1021, initial value 0xFFFF, no inversion: R3). -/
theorem test_crc_check_value : crc16 [0x31, 0x32, 0x33, 0x34, 0x35, 0x36, 0x37, 0x38, 0x39] = 0x29B1 := by decide +kernel

/-- R191: chassis 7, port 3, lane 5, eight lanes, DISC, FAULT set and its reason UNSTABLE, a tap request of 2 and 9. -/
theorem test_beacon_bytes :
    ({ beacon 5 with fault := some .unstable, tap := some { pre := 2, post := 9 } } : Beacon).middle =
      [0, 0, 0, 7, 3, 5, 8, 0, 0x24, 15, 2, 9] := by decide +kernel

/-- R195: the body of SETTINGS_WRITE, field by field. -/
theorem test_settings_body :
    parseRequest 0x03 [0x02, 0x58, 30, 5, 0, 16, 5, 4, 1, 15, 0] =
      .ok (.settingsWrite { rawSettings with discovery := 600, sampling := 1, decimation := 15, attention := 0 }) := rfl

/-- R195: the bodies of LANE_CONTROL and CONSULT_ANSWER, field by field. -/
theorem test_lane_and_consult_bodies :
    parseRequest 0x10 [2, 7, 1, 0xDE, 0xAD, 0xBE, 0xEF, 3, 1, 0, 1, 2, 0] =
      .ok (.laneControl 2 7 { source := 1, pattern := 0xDEADBEEF, flags := 3, check := 1, near := 0, far := 1, invert := 2, excluded := 0 }) ∧
    parseRequest 0x12 [4, 0, 0, 1, 0, 9, 1] = .ok (.consultAnswer 4 256 9 1) := ⟨rfl, rfl⟩

/-- R174: a body of the wrong length is BAD_LENGTH, a code above 0x18 is unknown. -/
theorem test_length_and_code_judged :
    parseRequest 0x04 [0] = .error .badLength ∧ parseRequest 0x19 [0] = .ok (.unknownCode 0x19) := ⟨rfl, rfl⟩

/-- R22: the generator starts with 31 ones, then 28 zeros, then a one (x^31 + x^28 + 1). -/
theorem test_prbs_begins : prbsBit 0 = true ∧ prbsBit 30 = true ∧ prbsBit 31 = false ∧ prbsBit 58 = false ∧ prbsBit 59 = true := by
  decide +kernel

/-! ### Single commands -/

namespace Sys2Proof.Machine.Demo

/-- The state after a command, or the state before where it does not answer next. -/
def after (c : Instr) (s : State) : State :=
  match exec c s with
  | .next t => t
  | .fault _ | .refused _ => s

/-- The status of the reply last begun. -/
def answered (s : State) : Option Status := s.mpt.line.map Reply.status

/-- Port 0 in MANUAL, every lane listening. -/
def manual (f : Lane → Lane) : State := withPort fun x => { x.mapLanes fun _ y => f { y with rx := .fresh } with state := .manual }

/-- A lane of port 0 in MANUAL that checks the PRBS, with a checker. -/
def checking (k : Checker) : State := manual fun y => { y with checker := k, control := { y.control with checkPrbs := true } }

/-- Port 0 in MANUAL, every lane sending the PRBS to its own checker, with a flipped block on its way. -/
def ownBlock (k : Checker) : State :=
  manual fun y =>
    { y with checker := k, block := some true, control := { y.control with checkPrbs := true, near := true, source := .prbs } }

/-- Port 0 in TUNE, every lane waiting for the figure of a point, in the sweep of a number. -/
def measuring (number : Nat) : State :=
  let w := (mapped .tune).newSweep 0 0
  tuning.setSweep 0 { w with number := number, lanes := w.lanes.map fun z => { z with phase := .measure } }

/-- A buffered RESTART. -/
def restartEntry (ph : EntryPhase) : BufEntry := { code := 0x18, tag := 9, body := [], phase := ph }

end Sys2Proof.Machine.Demo

/-- R79: a start before SET_IDENTITY is refused with NO_IDENTITY, and the port stays IDLE. -/
theorem test_start_needs_identity :
    answered (after (.portStart 0 0) State.reset) = some .noIdentity ∧ ((after (.portStart 0 0) State.reset).port 0).state = .idle := by
  decide +kernel

/-- R79, R56, R77: with an identity a start takes port 23 into DISCOVER and its timer to 10 s. -/
theorem test_start_enters_discover :
    ((after (.portStart 23 0) { State.reset with identity := some me }).port 23).state = .discover ∧
    ((after (.portStart 23 0) { State.reset with identity := some me }).port 23).stageTimer =
      some { remaining := 10000, halted := false } := by
  decide +kernel

/-- R81: a stop takes a port in AWAIT_SLOT out of the wait queue. -/
theorem test_stop_leaves_the_queue :
    (after (.portStop 0) ((inState .awaitSlot).setEsu { State.reset.esu with queue := [⟨0, .initial⟩] })).esu.queue = [] := by decide +kernel

/-- R82: a step of a port paused before HANDOVER enters HANDOVER. -/
theorem test_step_enters_handover :
    ((after (.portStep 0) ((mapped .paused).modPort 0 fun x => { x with pending := some .handover })).port 0).state = .handover := by
  decide +kernel

/-- R175: base 232 is the highest, and 233 is refused. -/
theorem test_identity_base_limit :
    answered (after (.setIdentity 1 233) State.reset) = some .badArgument ∧
    (after (.setIdentity 1 232) State.reset).identity = some { chassis := 1, base := 232 } := by decide +kernel

/-- R176: numbers are clamped, 0 to 1 and 601 to 600, and window 3 to 4. -/
theorem test_settings_clamped :
    (after (.settingsWrite { rawSettings with discovery := 601, consult := 0, retrain := 3 }) State.reset).settings =
      { Settings.reset with discovery := 600, consult := 1, retrain := .four } := by decide +kernel

/-- R43: a write to an enabled layer is refused, to a disabled one stored. -/
theorem test_plan_write :
    answered (after (.planWrite 0 5 raw) (State.reset.setPlan { Plan.reset with base := { Plan.reset.base with enabled := true } })) =
      some .layerEnabled ∧
    (after (.planWrite 0 5 raw) State.reset).plan.entry .base 5 = normal := by decide +kernel

/-- R45: a fill over ports 22 and 23 with port numbers 0 upward stops at the last port. -/
theorem test_plan_fill_stops_at_port_23 :
    ((after (.planFill 0 22 24 0 { raw with portNum := 0 }) State.reset).plan.entry .base 23).portNum = some 1 ∧
    ((after (.planFill 0 22 24 0 { raw with portNum := 0 }) State.reset).mpt.line.map Reply.body) = some [2] := by decide +kernel

/-- R48: the same layer named twice is no order. -/
theorem test_layer_set_needs_a_permutation :
    answered (after (.layerSet { base := 1, overlayA := 0, overlayB := 0, first := 0, second := 0, third := 2 }) State.reset) =
      some .badArgument := by decide +kernel

/-- R25: a record that asks for both loopbacks is refused; R31: an injection in IDLE is refused with WRONG_STATE. -/
theorem test_lane_requests_refused :
    answered (after (.laneControl 0 0 { rawControl with near := 1, far := 1 }) State.reset) = some .badArgument ∧
    answered (after (.laneInject 0 0 1 1) State.reset) = some .wrongState := by decide +kernel

/-- R110, R111: an answer for another neighbour does not match; REJECT faults the port. -/
theorem test_consult_answers :
    answered (after (.consultAnswer 0 7 4 0) (mapped .consult)) = some .notMatching ∧
    ((after (.consultAnswer 0 7 3 1) (mapped .consult)).port 0).fault = some .rejected := by decide +kernel

/-- R165: writing PRBS_ERR clears PRBS_BLOCKS; a 16-bit counter takes no 65536. -/
theorem test_counter_write :
    ((after (.counterWrite 0 0 0 2 5) (State.reset.modLane 0 0 fun y => { y with counters := y.counters.set 3 (.write 9) })).lane 0
      0).counters[ctrPrbsBlocks].live = 0 ∧
    answered (after (.counterWrite 0 0 0 1 65536) State.reset) = some .badArgument := by decide +kernel

/-- R7: on a lane of a port in MANUAL the second good beacon locks, and only the second. -/
theorem test_second_good_beacon_locks :
    ((after (.beaconArrival 0 0 ((beacon 0).bytes false)) (withPort fun x => { (x.mapLanes fun _ y => { y with rx := .fresh })
      with state := .manual })).lane 0 0).rx.state = .silent ∧
    ((after (.beaconArrival 0 0 ((beacon 0).bytes false)) (withPort fun x => { (x.mapLanes fun _ y =>
      { y with rx := { Receiver.fresh with goodRun := 1 } }) with state := .manual })).lane 0 0).rx.state = .locked := by decide +kernel

/-- R97: DISC with FAULT faults a port in PEER_WAIT. -/
theorem test_far_end_fault :
    ((after (.beaconArrival 0 0 (({ beacon 0 with fault := some .noCable } : Beacon).bytes false)) (mapped .peerWait)).port 0).fault =
      some .farEndFault := by decide +kernel

/-- R95: silence on a mapped lane in QUALIFY sends the port to DISCOVER. -/
theorem test_silence_rediscovers :
    ((after (.silenceTimerExpiry 0 7) (mapped .qualify)).port 0).state = .discover := by decide +kernel

/-- R60, R112, R90: the three stage timers' faults. -/
theorem test_stage_timers :
    ((after (.consultTimerExpiry 0) ((mapped .consult).modPort 0 fun x => { x with stageTimer := some ⟨0, false⟩ })).port 0).fault =
      some .consultTimeout ∧
    ((after (.farEndWaitExpiry 0) ((mapped .handover).modPort 0 fun x => { x with stageTimer := some ⟨0, false⟩ })).port 0).fault =
      some .farEndStall ∧
    ((after (.discoveryTimerExpiry 0) (withPort fun x => { x with
      state := .discover, snapshot := some { entry := normal, source := .base }, stageTimer := some ⟨0, false⟩ })).port 0).fault =
      some .noCable := by decide +kernel

/-- R128, R129: the watchdog of a first sweep is a failed attempt; the port queues again and takes the free channel at once. -/
theorem test_watchdog_fails_the_attempt :
    ((after (.watchdogExpiry 0) tuning).port 0).attempts = 1 ∧ ((after (.watchdogExpiry 0) tuning).port 0).state = .tune := by decide +kernel

/-- R32: an injection of two beacons has one left after a beacon with its check complemented. -/
theorem test_injection_counts_down :
    ((after (.beaconTransmit 0 0) ({ (mapped .faulted).modLane 0 0 fun y => { y with injection := some ⟨.badCheck, 2⟩ } with
      identity := some me })).lane 0 0).injection = some ⟨.badCheck, 1⟩ := by decide +kernel

/-- R23, R24: a block during which pattern lock was SEARCHING carries 2^19 errors; one corrected as INVERTED carries the bits that did
not differ. -/
theorem test_block_errors :
    ((after (.testBlockEnd 0 0 3) (checking (.block .line true (some .normal)))).lane 0 0).counters[ctrPrbsErr].live = 524288 ∧
    ((after (.testBlockEnd 0 0 3) (checking (.block .line false (some .inverted)))).lane 0 0).counters[ctrPrbsErr].live = 1048573 := by
  decide +kernel

/-- R22, R24: a beacon between two blocks on the line, whose identity makes the correction NORMAL, begins a NORMAL block, whatever the
correction before it. -/
theorem test_beacon_begins_the_next_block :
    ((after (.beaconArrival 0 0 ((beacon 0).bytes false)) (manual fun y =>
      { y with patternLock := .locked, checker := .block .between false (some .inverted), rx := stableOn (farId 0)
               control := { y.control with checkPrbs := true } })).lane 0 0).checker = .block .line false (some .normal) := by decide +kernel

/-- R22, R23, R27: in a near-end loopback a block begins with the lane's own PRBS, where pattern lock is LOCKED, and an own block
received as NORMAL carries its flipped bit alone, whatever came before. -/
theorem test_own_block_begins_and_ends :
    ((after (.testBlockTransmit 0 0) (ownBlock (.block .between true (some .inverted)))).lane 0 0).checker =
      .block .loop false (some .normal) ∧
    ((after (.testBlockEnd 0 0 3) (ownBlock (.block .loop false (some .normal)))).lane 0 0).counters[ctrPrbsErr].live = 1 := by
  decide +kernel

/-- R22, R23, R24: a block after one that an own pattern word filled has begun before the lane's next own block, and keeps its marks. -/
theorem test_block_astride_keeps_its_marks :
    ((after (.testBlockTransmit 0 0) (ownBlock (.block .astride true (some .inverted)))).lane 0 0).checker =
      .block .astride true (some .inverted) ∧
    ((after (.testBlockEnd 0 0 3) (manual fun y => { y with
      checker := .block .between true (some .normal)
      control := { y.control with checkPrbs := true, near := true, source := .pattern } })).lane 0 0).checker =
      .block .astride true (some .normal) := by decide +kernel

/-- R159, R192: LINK_LOST gives the last stable identity in its 8 bytes, as NEIGHBOUR_CHANGED does, then the other lanes and the mark. -/
theorem test_link_lost_detail :
    (Detail.linkLost (some (farId 2)) [(3, true)] false).bytes = [0, 0, 0, 7, 3, 2, 8, 0] ++ [1, 3, 1] ++ [0] := by decide +kernel

/-- R23, R27: a near-end loopback that a PORT_STOP ends leaves pattern lock SEARCHING. -/
theorem test_stop_ends_near_end_loop :
    ((after (.portStop 0) (manual fun y => { y with patternLock := .locked, control := { y.control with near := true } })).lane 0
      0).patternLock = .searching := by decide +kernel

/-- R8: after a bad beacon a STABLE lane's stability run starts again at 1. -/
theorem test_stable_run_starts_again :
    ({ stableOn (farId 0) with stabRun := 0 }.good (beacon 0) .normal).1.stabRun = 1 := by decide +kernel

/-- R124: the figure of an earlier sweep is dropped though the next sweep waits for one on the same lane. -/
theorem test_late_figure_is_dropped :
    (after (.figureOfMerit 0 0 { sweep := 0, value := 9 }) (measuring 1)).esu = (measuring 1).esu ∧
    (after (.figureOfMerit 0 0 { sweep := 1, value := 9 }) (measuring 1)).esu ≠ (measuring 1).esu := by decide +kernel

/-- R180: the part resets when the reply to a RESTART of the buffer has been sent, and not before. -/
theorem test_restart_resets_after_its_reply :
    ((after .restart (withBuffer [restartEntry .handed])).mpt.buffer).length = 1 ∧
    (after .replySent (withBuffer [restartEntry (.answered .ok [])])).mpt.buffer = [] := by decide +kernel

/-- R189 item 8: without far-end flags the unused bits of the flags byte are 0. -/
theorem test_absent_flags_are_masked : ∀ b : Byte, (b &&& 0x1F).toNat < 32 := by decide +kernel

/-- R156, R157: a lock loss starts a hunt of 100 ms, and a regain with 40 ms left reports a blip of 60 ms. -/
theorem test_lock_loss_and_blip :
    ((after (.blockLockLost 0 0) ((mapped .active).modLane 0 0 fun y => { y with owner := .switch })).lane 0 0).monitor.hunt =
      some ⟨100, false⟩ ∧
    (after (.blockLockRegained 0 0) ((mapped .active).modLane 0 0 fun y =>
      { y with owner := .switch, monitor := { y.monitor with hunt := some ⟨40, false⟩ } })).reports.records.map (·.report.detail) =
      [.lockBlip 60] := by decide +kernel

/-- R152: two errored periods of five retrain a port, which joins the queue with class RETRAIN and is granted at once. -/
theorem test_two_errored_periods_retrain :
    ((after .monitorPeriodEnd ((mapped .active).modLane 0 0 fun y =>
      { y with owner := .switch, monitor := { errors := 16, history := [false, false, false, true], hunt := none } })).port 0).cycle =
      .retrain ∧
    ((after .monitorPeriodEnd ((mapped .active).modLane 0 0 fun y =>
      { y with owner := .switch, monitor := { errors := 16, history := [false, false, false, false, true], hunt := none } })).port
        0).state = .active := by decide +kernel

/-- R168: in SAMPLED mode the boundary that finds the countdown at 1 posts the summary and loads it again. -/
theorem test_interval_summary :
    (after .intervalBoundary { State.reset with
      countdown := 1, settings := { Settings.reset with sampling := .sampled, decimation := 3 } }).countdown = 3 := by decide +kernel

/-! ### Witnesses: a state and operands that meet the hypotheses of each statement, clause by clause -/

theorem witness_StepRunsFrontCommand : State.reset.pending = [] := rfl

theorem witness_OnlyNamedCommandsWriteSharedState :
    ∃ t, exec (.silenceTimerExpiry 0 7) (mapped .qualify) = .next t := ⟨_, rfl⟩

/-- All four strappings; no frame, a RESTART in hand alone, behind an answered request, and answered. -/
theorem witness_WholePartResets :
    (true, true, LineRate.r3000000) ∈ [(false, false, LineRate.r115200), (false, true, .r460800), (true, false, .r921600),
      (true, true, .r3000000)] ∧
    (∀ e ∈ State.reset.mpt.buffer, ¬(e.phase = .handed ∧ e.code = 0x18 ∧ e.body = [])) ∧
    (withBuffer [restartEntry .handed, request .waiting]).mpt.buffer = restartEntry .handed :: [request .waiting] ∧
    (restartEntry .handed).code = 0x18 ∧ (restartEntry .handed).body = [] ∧ (request (.answered .ok [])).answered = true ∧
    (restartEntry (.answered .ok [])).phase = .answered .ok [] := by decide +kernel

/-- The first alternative of every clause at reset, and the second alternatives at their edges. -/
theorem witness_EventsNotAdmittedChangeNothing :
    (State.reset.mpt.asm.phase = .hunt ∧ (∀ e ∈ State.reset.mpt.buffer.head?, e.answered = false) ∧
      (State.reset.lane 0 0).rx.state = .off ∧ (State.reset.port 0).state ≠ .discover ∧ (State.reset.port 0).state ≠ .consult ∧
      (State.reset.port 0).state ≠ .peerWait ∧ (State.reset.port 0).state ≠ .qualify ∧ (State.reset.port 0).state ≠ .handover ∧
      (State.reset.port 0).state ≠ .tune ∧ State.reset.esu.channels[(0 : ChanIx)] = none ∧ (State.reset.port 0).counts 0 = false ∧
      (State.reset.port 0).content 0 ≠ .prbs ∧ State.reset.identity = none ∧ (State.reset.lane 0 0).owner = .part ∧
      (State.reset.port 0).state ≠ .active) ∧
    ((withAsm { phase := .check, length := 2, bytes := [4, 7], gap := some 10 }).mpt.asm.bytes.length < 2 + 1) ∧
    (∀ e ∈ (withBuffer [request .handed]).mpt.buffer.head?, e.answered = false) ∧
    (((inState .discover).port 0).state = .discover ∧ ∀ u ∈ ((inState .discover).port 0).stageTimer, u.halted) ∧
    (∀ u ∈ ((withPort fun x => { x with state := .discover, stageTimer := some ⟨5, true⟩ }).port 0).stageTimer, u.halted) ∧
    (∃ e ∈ (withBuffer [restartEntry (.answered .ok [])]).mpt.buffer, e.restarts = true) ∧
    ((measuring 1).port 0).state = .tune ∧ ((measuring 1).sweepOf 0).all (fun w => decide (w.2.number ≠ 0)) ∧
    ((tuning.sweepOf 0).all fun w => w.2.lanes.all fun z => decide (z.phase ≠ .measure)) ∧
    ((mapped .qualify).lane 0 0).checker = .off ∧ ((mapped .active).lane 0 0).monitor.hunt = none ∧
    ((mapped .active).port 0).cleanRun = none := by decide +kernel

theorem witness_AssemblerTakesBytes :
    Assembler.hunting.phase = .hunt ∧ (0xC5 : Byte) ≠ 0xC4 ∧ 2 ≤ (2 : Byte).toNat ∧ (250 : Byte).toNat ≤ 250 ∧
    (withAsm { phase := .length, length := 0, bytes := [], gap := some 10 }).mpt.asm.phase = .length ∧
    (withAsm { phase := .collect, length := 2, bytes := [], gap := some 10 }).mpt.asm.bytes.length + 1 < 2 ∧
    2 ≤ (withAsm { phase := .collect, length := 2, bytes := [4], gap := some 10 }).mpt.asm.bytes.length + 1 ∧
    (withAsm { phase := .check, length := 2, bytes := [4, 7], gap := some 10 }).mpt.asm.bytes.length < 2 + 1 := by decide +kernel

theorem witness_FrameErrorsCountAndHunt :
    ((withAsm { phase := .length, length := 0, bytes := [], gap := some 10 }).mpt.asm.phase = .length ∧
      ¬(2 ≤ (1 : Byte).toNat ∧ (1 : Byte).toNat ≤ 250) ∧ ¬(2 ≤ (251 : Byte).toNat ∧ (251 : Byte).toNat ≤ 250)) ∧
    (2 + 1 ≤ (withAsm { phase := .check, length := 2, bytes := [4, 7, 0], gap := some 10 }).mpt.asm.bytes.length ∧
      (([4, 7, 0] ++ [0] : List Byte)).drop 2 ≠ checkBytes (byte 2 :: ([4, 7, 0] ++ [0] : List Byte).take 2)) ∧
    (withAsm { phase := .collect, length := 2, bytes := [4], gap := some 0 }).mpt.asm.phase ≠ .hunt := by decide +kernel

/-- A SETTINGS_READ frame with tag 7 in all of its bytes but the last; a body of one byte is too long for it. -/
theorem witness_GoodFrameJoinsBuffer :
    (([4, 7, (checkBytes [2, 4, 7]).getD 0 0] ++ [(checkBytes [2, 4, 7]).getD 1 0] : List Byte)).take 2 = [4, 7] ∧
    (([4, 7, (checkBytes [2, 4, 7]).getD 0 0] ++ [(checkBytes [2, 4, 7]).getD 1 0] : List Byte)).drop 2 =
      checkBytes (byte 2 :: 4 :: 7 :: []) ∧
    parseRequest 4 [] = .ok .settingsRead ∧ parseRequest 4 [0] = .error .badLength ∧
    (([4, 7, 0, (checkBytes [3, 4, 7, 0]).getD 0 0] ++ [(checkBytes [3, 4, 7, 0]).getD 1 0] : List Byte)).drop 3 =
      checkBytes (byte 3 :: 4 :: 7 :: [0]) ∧
    (request .handed).phase = .handed ∧ (request (.answered .ok [])).answered = true ∧
    (∀ e ∈ (withBuffer [request .handed, request (.answered .ok [])]).mpt.buffer, e.restarts = false) ∧
    2 ≤ (withBuffer [request .handed, request .waiting]).mpt.buffer.length :=
  ⟨by decide +kernel, by decide +kernel, rfl, rfl, by decide +kernel, rfl, rfl, by decide +kernel, by decide +kernel⟩

theorem witness_FrameOnTheLineReachesItsOwner :
    (List.replicate 248 (0 : Byte)).length ≤ 248 ∧ parseRequest 0x19 (List.replicate 248 0) = .ok (.unknownCode 0x19) ∧
    State.reset.mpt.asm = .hunting ∧ State.reset.mpt.buffer = [] := ⟨by decide +kernel, rfl, rfl, rfl⟩

theorem witness_RepliesLeaveInOrder :
    (request .handed).asks .settingsRead = true ∧ (request .waiting).phase = .waiting ∧ parseRequest 4 [] = .ok .settingsRead ∧
    (request (.answered .ok [])).answered = true ∧ (request .handed).code ≠ 0x18 ∧ Instr.settingsRead ≠ .restart ∧
    (∀ e ∈ State.reset.mpt.buffer, ¬(e.phase = .handed ∧ e.asks .settingsRead)) :=
  ⟨rfl, rfl, rfl, rfl, by decide +kernel⟩

theorem witness_QueriesAnswerAndChangeNothing :
    0x18 < (0x19 : Byte).toNat ∧ 24 ≤ (24 : Byte).toNat ∧ (23 : Byte).toNat = (23 : PortIx).val ∧ 8 ≤ (8 : Byte).toNat ∧
    (7 : Byte).toNat = (7 : LanePos).val ∧ (State.reset.lane 23 7).rx.far = none ∧
    ((State.reset.modLane 23 7 fun y => { y with rx := { y.rx with far := some (beacon 0).farEnd } }).lane 23 7).rx.far.isSome ∧
    3 < (4 : Byte).toNat ∧ (2 : Byte) = LayerName.code .overlayB := by decide +kernel

theorem witness_CounterReadShowsLiveOrSampled :
    2 < (3 : Byte).toNat ∧ ((1 : Byte).toNat ≤ 1 ∧ 24 ≤ (24 : Byte).toNat) ∧ ((0 : Byte) = 0 ∧ 8 ≤ (8 : Byte).toNat) ∧
    (23 : Byte).toNat = (23 : PortIx).val ∧ (7 : Byte).toNat = (7 : LanePos).val := by decide +kernel

theorem witness_SetIdentityJudgesThenReplaces :
    232 < (233 : Byte).toNat ∧ (232 : Byte).toNat ≤ 232 ∧ (1 : Word) ≠ 0 ∧
    (∃ p, ((inState .manual).port p).state ≠ .idle ∧ ((inState .manual).port p).state ≠ .dark ∧
      ((inState .manual).port p).state ≠ .faulted) ∧
    ∀ p, ((inState .dark).port p).state = .idle ∨ ((inState .dark).port p).state = .dark ∨ ((inState .dark).port p).state = .faulted := by
  decide +kernel

theorem witness_SettingsWriteClampsAndActs :
    1 < (2 : Byte).toNat ∧ rawSettings.sampling.toNat ≤ 1 ∧ rawSettings.attention.toNat ≤ 1 ∧ 4 ≤ State.reset.settings.sweepLimit ∧
    { State.reset with settings := { Settings.reset with sweepLimit := 3 } }.settings.sweepLimit < 4 := by decide +kernel

theorem PlanEntry_normal_legal : normal.legal where
  chassis := by decide +kernel
  grade := by decide +kernel
  window := by decide +kernel
  label := nofun
  reach := fun _ => by decide +kernel

theorem witness_PlanEntrySurvivesTheWire : normal.legal := PlanEntry_normal_legal

/-- Window 1 and window 65535, at the largest power of two below their square. -/
theorem witness_WindowShortAgainstBestGrade :
    (∃ x, judgeEntry { raw with window := 1, grade := 40 } = some x ∧ x.window = 1) ∧ 2 ^ 40 ≤ (1 * 2 ^ 20) ^ 2 ∧
    (∀ h, 2 ^ h ≤ (1 * 2 ^ 20) ^ 2 → h ≤ 40) ∧ 2 ^ 0 ≤ 1 ^ 2 ∧ ∀ h, 2 ^ h ≤ 1 ^ 2 → h ≤ 0 := by
  refine ⟨⟨_, rfl, rfl⟩, by decide +kernel, fun h k => ?_, by decide +kernel, fun h k => ?_⟩
  · rw [show ((1 : Nat) * 2 ^ 20) ^ 2 = 2 ^ 40 from rfl] at k
    exact (Nat.pow_le_pow_iff_right (by omega)).1 k
  · rw [show (1 : Nat) ^ 2 = 2 ^ 0 from rfl] at k
    exact (Nat.pow_le_pow_iff_right (by omega)).1 k

theorem witness_PlanWriteJudgedInOrder :
    3 < (4 : Byte).toNat ∧ ((2 : Byte).toNat < 3 ∧ 24 ≤ (24 : Byte).toNat) ∧ (2 : Byte) = LayerName.code .overlayB ∧
    (23 : Byte).toNat = (23 : PortIx).val ∧
    ((State.reset.setPlan { Plan.reset with overlayB := { Plan.reset.overlayB with enabled := true } }).plan.layer .overlayB).enabled =
      true ∧
    (State.reset.plan.layer .overlayB).enabled = false ∧ judgeEntry { raw with kind := 4 } = none ∧
    (∃ x, judgeEntry { raw with grade := 71, window := 1 } = some x ∧ x.windowShort = true) ∧
    ∃ x, judgeEntry raw = some x ∧ x.windowShort = false :=
  ⟨by decide +kernel, by decide +kernel, rfl, rfl, rfl, rfl, by decide +kernel, ⟨_, rfl, by decide +kernel⟩, ⟨_, rfl, by decide +kernel⟩⟩

theorem witness_BackgroundWriteRunsDriftCheck :
    judgeEntry { raw with grade := 0 } = none ∧ (∃ x, judgeEntry { raw with grade := 71, window := 1 } = some x ∧ x.windowShort = true) ∧
    (∃ x, judgeEntry { raw with kind := 0 } = some x ∧ x.kind = .empty) ∧
    ∃ x, judgeEntry raw = some x ∧ x.windowShort = false ∧ x.kind ≠ .empty :=
  ⟨by decide +kernel, ⟨_, rfl, by decide +kernel⟩, ⟨_, rfl, rfl⟩, ⟨_, rfl, by decide +kernel⟩⟩

theorem witness_PlanFillStepsPortNumbers :
    2 < (3 : Byte).toNat ∧ 23 < (24 : Byte).toNat ∧ 1 < (2 : Byte).toNat ∧ (0 : Byte) = LayerName.code .base ∧
    (23 : Byte).toNat = (23 : PortIx).val ∧ (1 : Byte).toNat ≤ 1 ∧ (State.reset.plan.layer .base).enabled = false ∧
    ((State.reset.setPlan { Plan.reset with base := { Plan.reset.base with enabled := true } }).plan.layer .base).enabled = true ∧
    judgeEntry { raw with kind := 4 } = none ∧ (∃ x, judgeEntry { raw with grade := 71, window := 1 } = some x ∧ x.windowShort = true) ∧
    ∃ x, judgeEntry { raw with portNum := 255 } = some x ∧ x.windowShort = false ∧ x.portNum = some 255 :=
  ⟨by decide +kernel, by decide +kernel, by decide +kernel, rfl, rfl, by decide +kernel, rfl, rfl, by decide +kernel,
    ⟨_, rfl, by decide +kernel⟩, ⟨_, rfl, by decide +kernel, rfl⟩⟩

theorem witness_ResolutionTakesHighestEnabledLayer :
    let q : Plan := { Plan.reset with base := { Plan.reset.base with entries := Vector.replicate 24 normal, enabled := true } }
    q.order = [.overlayB, .overlayA] ++ .base :: [] ∧
    (∀ m ∈ [LayerName.overlayB, .overlayA], (q.layer m).enabled = false ∨ (q.entry m 23).kind = .empty) ∧
    (q.layer .base).enabled = true ∧ (q.entry .base 23).kind ≠ .empty ∧
    (∀ m ∈ Plan.reset.order, (Plan.reset.layer m).enabled = false ∨ (Plan.reset.entry m 23).kind = .empty) ∧
    Plan.reset.background.kind ≠ .empty := by decide +kernel

theorem witness_LayerSetReplacesFlagsAndOrder :
    1 < (2 : Byte).toNat ∧ 2 < (3 : Byte).toNat ∧ (1 : Byte) = boolByte true ∧ (0 : Byte) = boolByte false ∧
    (2 : Byte) = LayerName.code .overlayB ∧ (0 : Byte) = LayerName.code .base ∧ (1 : Byte) = LayerName.code .overlayA ∧
    LayerName.overlayB ≠ .base ∧ LayerName.overlayB ≠ .overlayA ∧ LayerName.base ≠ .overlayA := by decide +kernel

/-- Just below the maximum, and at it. -/
theorem witness_CountingStopsAtMaximum :
    ({ live := 65534, snap := 0, mark := false } : Counter).live ≤ 65535 ∧ ({ live := 65535, snap := 0, mark := true } : Counter).live ≤ 65535 ∧
    (State.reset.lane 23 7).counters[(6 : Fin 7)] = { live := 0, snap := 0, mark := false } := by decide +kernel

theorem witness_CounterWriteSetsLiveAndSnapshot :
    (7 ≤ (7 : Byte).toNat ∧ 3 ≤ (3 : Byte).toNat ∧ 2 ≤ (2 : Byte).toNat ∧ 65535 < (65536 : Word).toNat) ∧
    (6 : Byte).toNat = (6 : Fin 7).val ∧ (65535 : Word).toNat ≤ 65535 ∧ (2 : Byte).toNat = (2 : Fin 3).val ∧
    (1 : Byte).toNat = (1 : Fin 2).val ∧ (23 : Byte).toNat = (23 : PortIx).val ∧ (7 : Byte).toNat = (7 : LanePos).val ∧
    ((2 : Fin 7) = 1 ∨ (2 : Fin 7) = 5 ∨ (2 : Fin 7) = 6 → (4294967295 : Word).toNat ≤ 65535) := by decide +kernel

theorem witness_IntervalBoundarySamplesAndSummarises :
    State.reset.settings.sampling = .live ∧
    (let s : State := { State.reset with countdown := 2, settings := { Settings.reset with sampling := .sampled, decimation := 15 } };
      s.settings.sampling = .sampled ∧ s.settings.decimation ≠ 0 ∧ 1 < s.countdown) ∧
    let s : State := { State.reset with countdown := 1, settings := { Settings.reset with sampling := .sampled, decimation := 1 } }
    s.settings.sampling = .sampled ∧ s.settings.decimation ≠ 0 ∧ s.countdown ≤ 1 := by decide +kernel

namespace Sys2Proof.Machine.Demo

/-- An ordinary record: the lane-silent report of one of the 192 lanes. -/
def laneRecord (n : Nat) : Record :=
  { report := { port := some (Fin.ofNat 24 n), lane := some (Fin.ofNat 8 (n / 24)), detail := .laneSilent }, time := 0, count := 255 }

/-- A report that none of the first 63 records can take. -/
def other : Report := { port := some 0, lane := none, detail := .loopEntered }

/-- The overflow record of the tests. -/
def lossRecord : Record := { report := overflowReport 65535 other, time := 0, count := 1 }

end Sys2Proof.Machine.Demo

/-- A masked kind, a record that takes the report at count 255, room for one more at 62, and a full list without and with its overflow
record at 65535 losses. -/
theorem witness_ReportsCoalesceAppendOrOverflow :
    other.kind ≠ .listOverflow ∧ (Vector.replicate 21 true)[other.kind.index] = true ∧
    ReportList.reset.mask[other.kind.index] = false ∧
    (let r := (laneRecord 1).report;
      [laneRecord 0].all (fun y => !decide (y.report.kind = r.kind ∧ y.report.port = r.port ∧ y.report.lane = r.lane)) ∧
      decide ((laneRecord 1).report.kind = r.kind ∧ (laneRecord 1).report.port = r.port ∧ (laneRecord 1).report.lane = r.lane) = true) ∧
    (let l := (List.range 62).map laneRecord;
      l.all (fun y => !decide (y.report.kind = other.kind ∧ y.report.port = other.port ∧ y.report.lane = other.lane)) ∧
      (l.filter fun x => decide (x.report.kind ≠ .listOverflow)).length < 63) ∧
    (let l := (List.range 63).map laneRecord;
      l.all (fun y => !decide (y.report.kind = other.kind ∧ y.report.port = other.port ∧ y.report.lane = other.lane)) ∧
      63 ≤ (l.filter fun x => decide (x.report.kind ≠ .listOverflow)).length ∧ l.all fun x => decide (x.report.kind ≠ .listOverflow)) ∧
    lossRecord.report.detail = .listOverflow 65535 .loopEntered (some 0) none := by decide +kernel

theorem witness_ReportFetchRemovesFromHead :
    ∀ x ∈ ({ State.reset with reports := { ReportList.reset with records := [laneRecord 0, lossRecord] } } : State).reports.records.head?,
      x.bytes.length ≤ 244 := by decide +kernel

theorem witness_ReportMaskReplacesWhole :
    (∃ i : Fin 21, 1 < ((Vector.replicate 21 (0 : Byte)).set 20 2)[i].toNat) ∧
    ∀ i : Fin 21, ((Vector.replicate 21 (0 : Byte)).set 20 1)[i].toNat ≤ 1 := by decide +kernel

theorem witness_BeaconSurvivesTheLane : (beacon 7).chassis ≠ 0 := by decide +kernel

/-- SILENT with none and with one beacon heard; LOCKED before and at its fourth beacon, from SILENT on the frozen and on another
identity; STABLE on the same and on another identity, with and without REMOTE_FAULT before, and after a bad beacon; one beacon before
the sixteenth of a loop request and of its end. -/
theorem witness_GoodBeaconMovesReceiver :
    (Receiver.fresh.state = .silent ∧ Receiver.fresh.goodRun = 0 ∧ Receiver.fresh.stabRun = 0) ∧
    1 ≤ { Receiver.fresh with goodRun := 1 }.goodRun ∧
    (let r : Receiver := { stableOn (farId 0) with state := .locked, stabRun := 2 };
      r.state = .locked ∧ (if r.candidate = some (farId 0) then r.stabRun + 1 else 1) < 4) ∧
    (let r : Receiver := { stableOn (farId 1) with state := .locked, stabRun := 3, candidate := some (farId 0), lockedFromSilent := true };
      4 ≤ (if r.candidate = some (farId 0) then r.stabRun + 1 else 1) ∧ r.lastStable = some (farId 1) ∧ farId 1 ≠ farId 0) ∧
    ((stableOn (farId 0)).state = .stable ∧ (stableOn (farId 0)).lastStable ≠ none) ∧
    (let r : Receiver := { stableOn (farId 0) with stabRun := 0, far := some { (beacon 0).farEnd with
        flags := { (beacon 0).flags with remoteFault := true } } };
      (∃ g, r.far = some g ∧ g.flags.remoteFault = true) ∧ r.stabRun = 0) ∧
    ¬(∃ g, (stableOn (farId 0)).far = some g ∧ g.flags.remoteFault = true) ∧
    { stableOn (farId 0) with loopRun := 15 }.loopRun + 1 = 16 ∧
    { stableOn (farId 0) with loopSeen := true, noLoopRun := 15 }.noLoopRun + 1 = 16 := by decide +kernel

theorem witness_BadBeaconsAndSilenceLoseLock :
    (stableOn (farId 0)).state ≠ .off ∧ { stableOn (farId 0) with badRun := 1 }.badRun + 1 < 3 ∧
    3 ≤ { stableOn (farId 0) with badRun := 2 }.badRun + 1 ∧ Receiver.fresh.state = .silent ∧
    ({ stableOn (farId 0) with state := .locked } : Receiver).state = .locked ∧ (State.reset.lane 0 0).rx.state = .off ∧
    (((mapped .active).modLane 0 0 fun y => { y with rx := y.rx.suspend }).lane 0 0).rx.suspended = true := by decide +kernel

namespace Sys2Proof.Machine.Demo

/-- The usable lanes of a whole straight cable. -/
def wholeCable : List Usable := allLanes.map fun l => (l, farId l)

end Sys2Proof.Machine.Demo

/-- Two far ports; another lane count; two lanes with one index; too few lanes; the reversed and a permuted cable; an inverted lane;
and the whole straight cable, under entries that expect it, expect another, ask, and refuse. -/
theorem witness_DerivationAsksInOrder :
    (∃ u ∈ [((0 : LanePos), farId 0), (1, { farId 1 with portNum := 4 })],
      ∃ v ∈ [((0 : LanePos), farId 0), (1, { farId 1 with portNum := 4 })], u.2.chassis ≠ v.2.chassis ∨ u.2.portNum ≠ v.2.portNum) ∧
    (wholeCable ≠ [] ∧ ∀ u ∈ wholeCable, u.2.chassis = 7 ∧ u.2.portNum = 3) ∧
    (Source.base ≠ .background ∧ normal.chassis = none ∧ { normal with chassis := some 8 }.chassis ≠ some 7 ∧ normal.ask = false) ∧
    (∃ u ∈ wholeCable, u.2.count ≠ ({ normal with count := .four } : PlanEntry).count) ∧ (∀ u ∈ wholeCable, u.2.count = normal.count) ∧
    ¬([((0 : LanePos), farId 0), (1, farId 0)].map fun u => u.2.lane).Nodup ∧ (wholeCable.map fun u => u.2.lane).Nodup ∧
    (∀ u ∈ wholeCable, u.2.lane.val < 8) ∧ (wholeCable.take 7).length ≠ 8 ∧
    (∀ k, k < 4 → ∃ u ∈ wholeCable.take 4, u.2.lane.val = k) ∧ ¬(∀ k, k < 4 → ∃ u ∈ wholeCable.take 3, u.2.lane.val = k) ∧
    (∀ u ∈ allLanes.map (fun l => (l, farId l.rev)), u.2.lane.val + u.1.val + 1 = 8) ∧
    (∃ u ∈ [((0 : LanePos), { farId 0 with polarity := .inverted })], u.2.polarity = .inverted) ∧
    (∀ u ∈ wholeCable, u.2.polarity = .normal) ∧ normal.polarity = .correct ∧ normal.map = .anyOrder := by decide +kernel

theorem witness_LogicalLanesAreExactlyTheWidth :
    (wholeCable.map Prod.fst).Nodup ∧ (∃ m, mapChecks normal wholeCable = .ok (m, .straight, .full)) ∧
    ∃ m, mapChecks { normal with width := .halfOk } (wholeCable.take 4) = .ok (m, .straight, .half) :=
  ⟨by decide +kernel, ⟨_, rfl⟩, ⟨_, rfl⟩⟩

namespace Sys2Proof.Machine.Demo

/-- A port alone in the wait queue, and every channel free. -/
def awaiting : State := (mapped .awaitSlot).setEsu { State.reset.esu with queue := [⟨0, .initial⟩] }

end Sys2Proof.Machine.Demo

theorem awaiting_slots : awaiting.slots := slots_of_checks (by unfold slotChecks; decide +kernel)

theorem witness_QueueJoinsAndGrants :
    ((∀ e ∈ [QueueEntry.mk 1 .retrain], e.cycle = .retrain) ∧ ∀ e ∈ [QueueEntry.mk 2 .initial], e.cycle = .initial) ∧
    State.reset.esu.queue = [] ∧
    { tuning with settings := { Settings.reset with sweepLimit := 1 } }.settings.sweepLimit ≤
      (tuning.esu.channels.toList.filter Option.isSome).length ∧
    awaiting.slots ∧ awaiting.esu.queue = ⟨0, .initial⟩ :: [] ∧
    (awaiting.esu.channels.toList.filter Option.isSome).length < awaiting.settings.sweepLimit ∧
    awaiting.esu.channels[(0 : ChanIx)] = none ∧ ∀ d : ChanIx, d < 0 → awaiting.esu.channels[d] ≠ none :=
  ⟨by decide +kernel, rfl, by decide +kernel, awaiting_slots, rfl, by decide +kernel, by decide +kernel, by decide +kernel⟩

theorem witness_GradeIsLargestPower : 1 ≤ 1 ∧ 65535 ≤ 65535 ∧ 4294967295 < 2 ^ 32 ∧ 1 ≤ 1 * 2 ^ 20 ∧ 1 * 2 ^ 20 < 1048577 := by decide +kernel

/-- The highest grade over the longest window, and grade 40 over a window of one block, which is just reached. -/
theorem witness_CeilingIsThePassMark :
    71 ≤ 71 ∧ 2 ^ 71 ≤ (65535 * 2 ^ 20) ^ 2 ∧ 2 ^ 40 ≤ (1 * 2 ^ 20) ^ 2 ∧ 4294967295 < 2 ^ 32 := by decide +kernel

namespace Sys2Proof.Machine.Demo

/-- A state with an identity. -/
def named_ (s : State) : State := { s with identity := some me }

/-- Port 0 paused before a stage, no far end heard. -/
def pausedBefore (g : PendingStage) : State := (mapped .paused).modPort 0 fun x => { x with pending := some g, mode := .step }

/-- Port 0 in a state with its stage timer running. -/
def timed (s : State) : State := s.modPort 0 fun x => { x with stageTimer := some ⟨1, false⟩ }

/-- Port 0 in cabled discovery over a whole straight cable, under a mode. -/
def discovering (m : Mode) : State :=
  timed (withPort fun x => Port.mapLanes { x with state := .discover, mode := m, snapshot := some { entry := normal, source := .base } }
    fun l y => { y with rx := stableOn (farId l) })

/-- Port 0 past discovery, every lane with a stage of the far end held. -/
def heard (z : PortState) (g : Stage) : State :=
  (mapped z).modPort 0 fun x => x.mapLanes fun _ y => { y with rx := { y.rx with far := some { (beacon 0).farEnd with stage := g } } }

/-- The tuning port, with port 1 waiting for the one channel that the sweep limit allows. -/
def tuningBeforeAnother : State :=
  { tuning.setPort 1 { (mapped .awaitSlot).port 0 with state := .awaitSlot } with
    esu := { tuning.esu with queue := [⟨1, .initial⟩] }, settings := { tuning.settings with sweepLimit := 1 } }

theorem tuningBeforeAnother_slots : tuningBeforeAnother.slots := slots_of_checks (by unfold slotChecks; decide +kernel)

theorem farThere_of_checks {x : Port} {late : List Stage} {f : FarEnd} (k : f.stage ∈ late ∧ f.fault = none)
    (h : x.mapClass ≠ none ∧ (∃ l : LanePos, x.map[l].logical ≠ none) ∧
      ∀ l : LanePos, l.val < x.L ∧ (x.lane l).owner = .part ∧ (x.lane l).rx.state ≠ .off ∧ (x.lane l).rx.far = some f) :
    x.farThere late :=
  ⟨h.1, h.2.1, fun l _ => ⟨(h.2.2 l).1, (h.2.2 l).2.1, (h.2.2 l).2.2.1, f, (h.2.2 l).2.2.2, k⟩⟩

/-- A state with one channel busy for port 5 and the sweep limit at 1: no grant can be made. -/
def crowded (s : State) : State :=
  { s with esu := { s.esu with channels := s.esu.channels.set 0 (some (s.newSweep 5 0)) }, settings := { s.settings with sweepLimit := 1 } }

/-- A beacon of the far port with a stage. -/
def beaconAt (l : LanePos) (g : Stage) : Beacon := { beacon l with stage := g }

/-- Port 0 in a state with its snapshot's loop permit set. -/
def permitting (z : PortState) : State :=
  (mapped z).modPort 0 fun x => { x with snapshot := some { entry := { normal with loop := true }, source := .base }
                                         stageTimer := some ⟨1, false⟩ }

/-- Port 0 in discovery with every lane usable but lane 7, which is LOCKED before its fourth beacon. -/
def almostDone (m : Mode) : State :=
  (discovering m).modLane 0 7 fun y => { y with rx := { y.rx with state := .locked, stabRun := 3, lockedFromSilent := true } }

/-- Port 0 in QUALIFY with an open window of two entries over the first two positions. -/
def qualifying (a b : QualEntry) : State :=
  (mapped .qualify).modPort 0 fun x =>
    { x.modLane 0 (fun y => { y with checker := .block .line false (some .normal) }) with qualify := some { begun := true, entries := [a, b] } }

/-- An ACTIVE port whose lane 0 hunts. -/
def hunting : State :=
  (mapped .active).modLane 0 0 fun y => { y with owner := .switch, monitor := { y.monitor with hunt := some ⟨1, false⟩ } }

/-- An ACTIVE port whose lane 0 has one errored period and ends another. -/
def erring (m : Mode) (unstable : Nat) : State :=
  (mapped .active).modPort 0 fun x =>
    { x.modLane 0 (fun y => { y with owner := .switch, monitor := { errors := 16, history := [false, false, false, true], hunt := none } })
      with mode := m, unstable := unstable }

end Sys2Proof.Machine.Demo

theorem witness_PortStartEntersByMode :
    24 ≤ (24 : Byte).toNat ∧ 4 ≤ (4 : Byte).toNat ∧ (0 : Byte).toNat = (0 : PortIx).val ∧ (3 : Byte) = Mode.manual.code ∧
    ((mapped .active).port 0).state ∉ [PortState.idle, .faulted, .dark, .verified] ∧
    (((mapped .verified).port 0).state ∈ [PortState.idle, .faulted, .dark, .verified] ∧ (mapped .verified).identity = none) ∧
    ((named_ (mapped .verified)).identity ≠ none ∧ ((named_ (mapped .verified)).port 0).state = .verified ∧
      ∀ l, ((named_ (mapped .verified)).lane 0 l).autoLoop = false) ∧
    (((named_ State.reset).port 23).state = .idle ∧ ∀ l, ((named_ State.reset).lane 23 l).rx.state = .off) ∧ Mode.auto ≠ .manual ∧
    (∀ z ∈ [PortState.faulted, .dark, .verified], let s := (mapped z).modLane 0 3 fun y => { y with rx := .fresh };
      (s.port 0).state = z ∧ (s.lane 0 3).rx.state ≠ .stable ∧ (s.plan.resolve 0).entry.kind ≠ .unused ∧
      ∀ l, (s.lane 0 l).autoLoop = false ∧ (s.lane 0 l).rx.loopSeen = false) ∧
    (let s := crowded (heard .verified .wait);
      (s.port 0).state = .verified ∧ (s.port 0).mapClass ≠ none ∧ (s.port 0).map[(0 : LanePos)].logical ≠ none ∧
      (∀ l : LanePos, l.val < (s.port 0).L ∧ (s.lane 0 l).owner = .part ∧ (s.lane 0 l).rx.state ≠ .off) ∧
      (∀ l, (s.lane 0 l).rx.far = some { (beacon 0).farEnd with stage := .wait }) ∧
      s.settings.sweepLimit ≤ (s.esu.channels.toList.filter Option.isSome).length ∧
      (s.port 0).counters[ctrAttempts].saturates 65535 1 = false) := by
  decide +kernel

/-- The far end still at DISC, at WAIT before QUALIFY, and there already, of a port in VERIFIED, in CONSULT and paused. -/
theorem witness_FarEndBehindOrThere :
    (∀ z ∈ [PortState.verified, .consult, .paused], ((heard z .disc).port 0).state = z ∧
      ∀ l f, ((heard z .disc).lane 0 l).rx.far = some f → f.stage ∈ [Stage.disc]) ∧
    ((∀ l f, ((heard .paused .wait).lane 0 l).rx.far = some f → f.stage ∈ [Stage.disc, .wait]) ∧
      ((heard .paused .wait).port 0).state = .paused) ∧
    ((heard .verified .wait).port 0).farThere [.wait, .qual, .ready] ∧ ((heard .consult .wait).port 0).farThere [.wait, .qual, .ready] ∧
    ((heard .paused .wait).port 0).farThere [.wait, .qual, .ready] ∧ ((heard .paused .qual).port 0).farThere [.qual, .ready] ∧
    (crowded (heard .consult .wait)).noGrant :=
  ⟨by decide +kernel, by decide +kernel,
    farThere_of_checks (f := { (beacon 0).farEnd with stage := .wait }) (by decide +kernel) (by decide +kernel),
    farThere_of_checks (f := { (beacon 0).farEnd with stage := .wait }) (by decide +kernel) (by decide +kernel),
    farThere_of_checks (f := { (beacon 0).farEnd with stage := .wait }) (by decide +kernel) (by decide +kernel),
    farThere_of_checks (f := { (beacon 0).farEnd with stage := .qual }) (by decide +kernel) (by decide +kernel),
    by unfold State.noGrant; decide +kernel⟩

theorem witness_PortStepEntersPendingStage :
    24 ≤ (24 : Byte).toNat ∧ (0 : Byte).toNat = (0 : PortIx).val ∧ (State.reset.port 0).state ≠ .paused ∧
    (State.reset.port 0).state ≠ .verified ∧ (∀ l, ((pausedBefore .peerWait).lane 0 l).rx.far = none) ∧
    ((pausedBefore .peerWait).port 0).state = .paused ∧ ((pausedBefore .peerWait).port 0).pending = some .peerWait ∧
    ((pausedBefore .qualify).port 0).pending = some .qualify ∧ ((pausedBefore .handover).port 0).pending = some .handover ∧
    ((mapped .verified).port 0).state = .verified ∧ ((pausedBefore .awaitSlot).port 0).pending = some .awaitSlot ∧
    { pausedBefore .awaitSlot with esu := tuning.esu, settings := { Settings.reset with sweepLimit := 1 } }.settings.sweepLimit ≤
      (tuning.esu.channels.toList.filter Option.isSome).length := by decide +kernel

theorem witness_PortStopClearsAndReleases :
    24 ≤ (24 : Byte).toNat ∧ (23 : Byte).toNat = (23 : PortIx).val ∧ (State.reset.port 23).state = .idle ∧
    (((mapped .awaitSlot).port 0).state ≠ .idle ∧ ((mapped .awaitSlot).port 0).state ≠ .tune) ∧
    ((tuning.port 0).state ≠ .idle ∧ tuning.slots) :=
  ⟨by decide +kernel, by decide +kernel, by decide +kernel, by decide +kernel, by decide +kernel, tuning_slots⟩

theorem witness_ConsultAnswerTakenOrRefused :
    24 ≤ (24 : Byte).toNat ∧ 2 ≤ (2 : Byte).toNat ∧ (1 : Byte).toNat < 2 ∧ (7 : Word) ≠ 0 ∧ (State.reset.port 0).state ≠ .consult ∧
    ((mapped .consult).port 0).state = .consult ∧ ((mapped .consult).port 0).neighbour = some { chassis := 7, portNum := 3 } ∧
    ((mapped .consult).port 0).neighbour ≠ some { chassis := 7, portNum := 4 } ∧ ((mapped .consult).port 0).mode = .auto ∧
    (((mapped .consult).modPort 0 fun x => { x with mode := .verify }).port 0).mode = .verify ∧
    (((mapped .consult).modPort 0 fun x => { x with mode := .step }).port 0).mode = .step ∧
    (∀ l, ((mapped .consult).lane 0 l).autoLoop = false ∧ ((mapped .consult).lane 0 l).rx.loopSeen = false) := by decide +kernel

theorem stageFields_of_cleared {x : Port} (h : x.pending = none ∧ x.fault = none ∧ x.stageTimer = none ∧ x.cleanRun = none ∧
    x.handover = none ∧ x.qualify = none ∧ (x.channel ≠ none → x.state = .tune) ∧ ∀ l, (x.lane l).owner = .part) : x.stageFields where
  pending k := absurd h.1 k
  fault k := absurd h.2.1 k
  stageTimer k := absurd h.2.2.1 k
  cleanRun k := absurd h.2.2.2.1 k
  handover k := absurd h.2.2.2.2.1 k
  window q k := by rw [h.2.2.2.2.2.1] at k; cases k
  channel := h.2.2.2.2.2.2.1
  owner l k := by rw [h.2.2.2.2.2.2.2 l] at k; cases k

theorem reset_stageFields (p : PortIx) : (State.reset.port p).stageFields :=
  stageFields_of_cleared (by revert p; decide +kernel)

theorem tuning_stageFields (p : PortIx) : (tuning.port p).stageFields :=
  stageFields_of_cleared (by revert p; decide +kernel)

/-- An index out of range; an IDLE port at reset, and a port in TUNE among agreeing ports and channels. -/
theorem witness_PortBlockResetsClearPorts :
    24 ≤ (24 : Byte).toNat ∧ (23 : Byte).toNat = (23 : PortIx).val ∧ ((State.reset.port 23).stageFields ∧ (State.reset.port 23).state ≠ .tune) ∧
    ((tuning.port 0).state = .tune ∧ ∀ p, (tuning.port p).stageFields) ∧ tuning.slots :=
  ⟨by decide +kernel, by decide +kernel, ⟨reset_stageFields 23, by decide +kernel⟩, ⟨by decide +kernel, tuning_stageFields⟩, tuning_slots⟩

/-- A port tuning in AUTO mode, the same in STEP mode, and one waiting. -/
theorem witness_EsuBlockResetSendsPortsBack :
    (tuning.slots ∧ (tuning.port 0).state = .tune ∧ (tuning.port 0).mode ≠ .step) ∧
    ((tuning.modPort 0 fun x => { x with mode := .step }).slots ∧
      (∀ p, ((tuning.modPort 0 fun x => { x with mode := .step }).port p).state ≠ .tune ∨
        ((tuning.modPort 0 fun x => { x with mode := .step }).port p).mode = .step) ∧
      (tuning.modPort 0 fun x => { x with mode := .step }).esu.queue = []) ∧
    awaiting.slots ∧ (awaiting.port 0).state = .awaitSlot :=
  ⟨⟨tuning_slots, by decide +kernel⟩,
    ⟨slots_of_checks (by unfold slotChecks; decide +kernel), by decide +kernel, by decide +kernel⟩, awaiting_slots, by decide +kernel⟩

/-- The refusals at their edges; a quiet write in MANUAL that ends a near-end loopback; an exclusion over a found lane in CONSULT; an
exclusion cleared over a LOCKED lane of a DARK port. -/
theorem witness_LaneControlActsAtOnce :
    (24 ≤ (24 : Byte).toNat ∧ 8 ≤ (8 : Byte).toNat ∧ 3 < (4 : Byte).toNat ∧ 2 < (3 : Byte).toNat ∧ 1 < (2 : Byte).toNat) ∧
    (rawControl.source = Control.reset.source.code ∧ rawControl.pattern = Control.reset.pattern ∧
      rawControl.flags.getLsbD 0 = Control.reset.sendLoopReq ∧ rawControl.flags.getLsbD 1 = Control.reset.sendHold ∧
      rawControl.check = boolByte Control.reset.checkPrbs ∧ rawControl.near = boolByte Control.reset.near ∧
      rawControl.far = boolByte Control.reset.far ∧ rawControl.invert = Control.reset.invert.code ∧
      rawControl.excluded = boolByte Control.reset.excluded ∧ ¬(Control.reset.near = true ∧ Control.reset.far = true)) ∧
    (let s := manual fun y => { y with control := { y.control with near := true } };
      (s.port 0).state ∉ [PortState.discover, .dark, .consult] ∧ (s.lane 0 7).control.near = true ∧
      (s.lane 0 7).control.excluded = false) ∧
    (let s := mapped .consult;
      (s.port 0).state = .consult ∧ (s.port 0).map[(3 : LanePos)].remote ≠ none ∧ (s.lane 0 3).control.excluded = false ∧
      (∀ k, (s.lane 0 k).autoLoop = false ∧ (s.lane 0 k).rx.loopSeen = false) ∧ (3 : LanePos).val < 4 ∧
      (s.plan.resolve 0).entry.kind ≠ .unused) ∧
    (let s := checking (.block .line false (some .normal));
      (s.port 0).state = .manual ∧ (s.lane 0 7).checker = .block .line false (some .normal)) ∧
    let s := (inState .dark).modLane 0 7 fun y =>
      { y with control := { y.control with excluded := true }, rx := { Receiver.fresh with state := .locked } };
    (s.port 0).state = .dark ∧ (s.lane 0 7).control.excluded = true ∧ (s.lane 0 7).rx.state = .locked := by decide +kernel

theorem witness_LaneInjectJudgedInOrder :
    24 ≤ (24 : Byte).toNat ∧ 2 ≤ (2 : Byte).toNat ∧ (0 : Byte) = InjectKind.prbsErrors.code ∧ (1 : Byte) = InjectKind.badCheck.code ∧
    (255 : Byte) ≠ 0 ∧ (State.reset.port 0).state ≠ .manual ∧ ((manual id).port 0).state = .manual ∧
    ((manual id).lane 0 7).control.source = .beacon ∧ ((manual id).lane 0 7).control.source ≠ .prbs := by decide +kernel

/-- An OFF lane; a tap request heard in PEER_WAIT; bad and good beacons in MANUAL; the sixteenth beacon with a loop request and the
sixteenth without, in DISCOVER and FAULTED; the fourth beacon of the last lane of a discovery. -/
theorem witness_BeaconArrivalReachesReceiver :
    (State.reset.lane 23 7).rx.state = .off ∧
    (classify (List.replicate 15 0) = .nothing ∧ classify ((beacon 7).bytes true) = .bad ∧
      classify ((beacon 7).bytes false) = .good (beacon 7) .normal) ∧
    (let b : Beacon := { beaconAt 7 .wait with tap := some { pre := 7, post := 15 } };
      classify (b.bytes false) = .good b .normal ∧ ((mapped .peerWait).lane 0 7).rx.state ≠ .off ∧
      ((mapped .peerWait).lane 0 7).rx.suspended = false ∧ ((mapped .peerWait).port 0).nearEnd 7 = false) ∧
    (((manual id).port 0).state = .manual ∧ ((manual id).lane 0 7).rx.state ≠ .off ∧ ((manual id).lane 0 7).rx.suspended = false ∧
      ((manual id).port 0).nearEnd 7 = false ∧ ((manual id).lane 0 7).autoLoop = false ∧ ((manual id).lane 0 7).monitor.hunt = none) ∧
    (∀ k ∈ [Checker.waiting, .block .between true none, .block .line false (some .normal), .block .astride false (some .inverted)],
      ((checking k).lane 0 7).checker = k ∧ ((checking k).lane 0 7).control = { Control.reset with checkPrbs := true }) ∧
    (∀ z ∈ [PortState.discover, .faulted],
      (let s := (permitting z).modLane 0 0 fun y => { y with rx := { y.rx with loopRun := 15 } };
        let b : Beacon := { beacon 0 with flags := { (beacon 0).flags with loopReq := true } };
        ((s.lane 0 0).rx.good b .normal).2 = [] ∧ (s.lane 0 0).autoLoop = false ∧ ((s.lane 0 0).rx.good b .normal).1.loopSeen = true ∧
        (s.lane 0 0).control.excluded = false) ∧
      (let s := ((permitting z).modLane 0 7 fun y => { y with rx := .fresh }).modLane 0 0 fun y =>
          { y with autoLoop := true, rx := { y.rx with loopSeen := true, noLoopRun := 15 } };
        ((s.lane 0 0).rx.good (beacon 0) .normal).2 = [] ∧ ((s.lane 0 0).rx.good (beacon 0) .normal).1.loopSeen = false ∧
        7 < (s.port 0).L ∧ (s.lane 0 7).rx.state ≠ .stable)) ∧
    (∀ m ∈ [Mode.auto, .step, .verify], let s := almostDone m;
      let r := (s.lane 0 7).rx.good (beacon 7) .normal;
      r.2 = [.stable, .twoWay] ∧ r.1.state = .stable ∧ r.1.oneWay = false ∧ r.1.loopSeen = false ∧
      (∀ k : LanePos, k.val < (s.port 0).L → k ≠ 7 → (s.port 0).usable k = true) ∧ (∀ k, (s.lane 0 k).autoLoop = false) ∧
      ((s.port 0).modLane 7 fun z => { z with rx := r.1 }).usables = wholeCable) := by decide +kernel

/-- A consult withdrawn, and a port sent back from VERIFIED on, by a third bad beacon, a one-way lane and another identity; the map that
the last lane of a discovery completes. -/
theorem witness_BeaconSendsPortBack :
    (∀ z ∈ [PortState.consult, .verified, .peerWait, .awaitSlot, .qualify, .handover, .paused],
      ((mapped z).port 0).state = z ∧ ((mapped z).port 0).map[(3 : LanePos)].remote ≠ none ∧
      ((mapped z).port 0).map[(3 : LanePos)].logical ≠ none ∧ ((mapped z).lane 0 3).control.excluded = false ∧
      ((mapped z).plan.resolve 0).entry.kind ≠ .unused ∧ 3 < ((mapped z).port 0).L ∧
      ∀ k, ((mapped z).lane 0 k).autoLoop = false ∧ ((mapped z).lane 0 k).rx.loopSeen = false) ∧
    { stableOn (farId 3) with badRun := 2 }.bad.2 = [.silent] ∧ { stableOn (farId 3) with badRun := 2 }.bad.1.loopSeen = false ∧
    ((stableOn (farId 3)).good { beacon 3 with flags := { (beacon 3).flags with remoteFault := true } } .normal).2 = [.oneWay] ∧
    ((stableOn (farId 3)).good { beacon 3 with portNum := 4 } .normal).2 =
      [.identityChanged (farId 3) { farId 3 with portNum := 4 }] ∧
    ∃ m, (derive { entry := normal, source := .base } wholeCable).outcome = .ok (m, .straight, .full) ∧ m[(7 : LanePos)].logical ≠ none :=
  ⟨by decide +kernel, by decide +kernel, by decide +kernel, by decide +kernel, by decide +kernel, _, rfl, by decide +kernel⟩

theorem witness_FarEndFaultFaultsPort :
    (∀ z ∈ [PortState.peerWait, .awaitSlot, .qualify, .handover, .paused], ((mapped z).port 0).state = z ∧ z ≠ .tune ∧
      ((mapped z).port 0).map[(7 : LanePos)].logical ≠ none ∧ ((mapped z).lane 0 7).rx.state = .stable ∧
      ((mapped z).lane 0 7).rx.suspended = false ∧ ((mapped z).lane 0 7).rx.lastStable = some ((beacon 7).identity .normal)) ∧
    ((tuning.port 0).state = .tune ∧ (tuning.lane 0 0).rx.lastStable = some ((beacon 0).identity .normal)) ∧ tuning.slots ∧
    classify (({ beacon 7 with fault := some .unstable } : Beacon).bytes false) =
      .good { beacon 7 with fault := some .unstable } .normal :=
  ⟨by decide +kernel, by decide +kernel, tuning_slots, by decide +kernel⟩

/-- DISC with the lane one-way; a fall from QUAL to WAIT in an open window and in HANDOVER; a far end at WAIT on every lane of a port in
PEER_WAIT, and one lane behind; at QUAL on every lane of a port before its window, and one behind; READY beacons before and at the
second of the last lane. -/
theorem witness_FarEndStages :
    (∀ g ∈ [Stage.disc, .wait, .qual, .ready], classify ((beaconAt 7 g).bytes false) = .good (beaconAt 7 g) .normal) ∧
    (let b : Beacon := { beacon 3 with flags := { (beacon 3).flags with remoteFault := true } };
      classify (b.bytes false) = .good b .normal ∧ b.fault = none ∧ b.stage = .disc ∧ (pausedBefore .peerWait).plan = Plan.reset ∧
      ((pausedBefore .awaitSlot).port 0).pending ≠ some .peerWait) ∧
    (∀ z ∈ [PortState.qualify, .handover], let s := (heard z .qual).modPort 0 fun x => { x with mode := .step, qualify := some ⟨true, []⟩ };
      (s.port 0).mapClass ≠ none ∧ (s.port 0).farStage = some .qual ∧ (s.port 0).mode = .step ∧
      ∀ k, (s.lane 0 k).rx.far.map FarEnd.stage = some .qual) ∧
    (let s := crowded (heard .peerWait .wait);
      (s.port 0).state = .peerWait ∧ (∀ k, (s.lane 0 k).rx.far.map FarEnd.stage = some .wait) ∧
      s.settings.sweepLimit ≤ (s.esu.channels.toList.filter Option.isSome).length) ∧
    ((mapped .peerWait).lane 0 0).rx.far = none ∧
    (let s := (heard .qualify .qual).modPort 0 fun x => { x with qualify := some ⟨false, []⟩ };
      (s.port 0).state = .qualify ∧ (∀ k, (s.lane 0 k).rx.far.map FarEnd.stage = some .qual) ∧ ∀ k, (s.lane 0 k).checker = .off) ∧
    (let h : HandRecord := { closing := false, entries := [⟨6, 2, 5⟩, ⟨7, 1, 4⟩] };
      let s := (heard .handover .ready).modPort 0 fun x => { x with handover := some h };
      (s.port 0).handover = some h ∧ (∀ k, (s.lane 0 k).rx.far.map FarEnd.stage = some .ready) ∧
      (∀ e ∈ h.entries.map fun e => if e.pos = 7 then { e with readyRun := e.readyRun + 1 } else e, 2 ≤ e.readyRun) ∧
      ∃ e ∈ h.entries, e.readyRun < 2) := by decide +kernel

/-- A port in TUNE whose mapped lane can fall silent or hear another identity, with nothing waiting, and with a port that gets the freed
channel. -/
theorem witness_SweepAbortedByALane :
    tuning.slots ∧ tuningBeforeAnother.slots ∧
    (∀ s ∈ [tuning, tuningBeforeAnother], (s.port 0).state = .tune ∧ (s.port 0).channel = some 0 ∧
      (s.port 0).map[(3 : LanePos)].logical ≠ none ∧ (s.lane 0 3).rx = stableOn (farId 3) ∧ (s.lane 0 3).rx.silence ≠ none ∧
      (s.lane 0 3).control.excluded = false ∧ (s.plan.resolve 0).entry.kind ≠ .unused ∧
      ∀ p ∈ [(0 : PortIx), 1], ∀ k, (s.lane p k).autoLoop = false ∧ (s.lane p k).rx.loopSeen = false) ∧
    tuning.esu.queue = [] ∧ tuningBeforeAnother.esu.queue = ⟨1, .initial⟩ :: [] ∧
    tuningBeforeAnother.settings.sweepLimit = (tuningBeforeAnother.esu.channels.toList.filter Option.isSome).length :=
  ⟨tuning_slots, tuningBeforeAnother_slots, by decide +kernel, by decide +kernel, by decide +kernel, by decide +kernel⟩

theorem witness_SilenceSendsPortBack :
    (((manual id).lane 0 7).rx.state ≠ .off ∧ ((manual id).lane 0 7).rx.suspended = false ∧
      ((manual id).lane 0 7).rx.silence ≠ none ∧ ((manual id).port 0).state = .manual ∧ ((manual id).lane 0 7).autoLoop = false) ∧
    ∀ z ∈ [PortState.peerWait, .awaitSlot, .qualify, .handover, .paused, .verified, .consult], ((mapped z).port 0).state = z ∧
      ((mapped z).lane 0 3).rx.silence ≠ none ∧ ((mapped z).lane 0 3).rx.suspended = false ∧
      ((mapped z).port 0).map[(3 : LanePos)].logical ≠ none ∧ ((mapped z).port 0).map[(3 : LanePos)].remote ≠ none ∧
      ((mapped z).lane 0 3).rx.state = .stable ∧ ((mapped z).plan.resolve 0).entry.kind ≠ .unused ∧
      ∀ k, ((mapped z).lane 0 k).autoLoop = false ∧ ((mapped z).lane 0 k).rx.loopSeen = false := by decide +kernel

/-- Discovery with no usable lane, with lanes that cover too little, and with a whole cable under each mode; on a dark port; the consult
and the three waits for the far end. -/
theorem witness_StageTimersEndTheirStages :
    (let s := timed (withPort fun x => { x with state := .discover, snapshot := some { entry := normal, source := .base } });
      (s.port 0).stageTimer = some ⟨1, false⟩ ∧ (s.port 0).state = .discover ∧ ∀ l, (s.port 0).usable l = false) ∧
    (∀ m ∈ [Mode.auto, .step, .verify], ((discovering m).port 0).usable 7 = true ∧ ((discovering m).lane 0 7).rx.lastStable ≠ none ∧
      ((discovering m).port 0).usables = wholeCable ∧ ∀ l, ((discovering m).lane 0 l).rx.far = none) ∧
    (derive { entry := normal, source := .base } (wholeCable.take 7)).outcome = .error .incomplete ∧
    (∃ m, (derive { entry := normal, source := .base } wholeCable).outcome = .ok (m, .straight, .full)) ∧
    (let s := timed (withPort fun x => { x with
        state := .discover, snapshot := some { entry := { normal with kind := .unused }, source := .base } });
      (s.port 0).state = .discover ∧ ∀ l, (s.lane 0 l).rx.state ≠ .locked ∧ (s.lane 0 l).rx.state ≠ .stable) ∧
    ∀ z ∈ [PortState.consult, .peerWait, .qualify, .handover], ((timed (mapped z)).port 0).state = z ∧
      ((timed (mapped z)).port 0).stageTimer = some ⟨1, false⟩ ∧
      ((timed (mapped z)).port 0).snapshot = some { entry := normal, source := .base } :=
  ⟨by decide +kernel, by decide +kernel, rfl, ⟨_, rfl⟩, by decide +kernel, by decide +kernel⟩

namespace Sys2Proof.Machine.Demo

/-- Port 0 in TUNE with every lane finished on a figure but lane 7, which waits for its closing beacon, all but `bad` of them usable. -/
def closing (bad : LanePos → Bool) : State :=
  let w := (mapped .tune).newSweep 0 0
  tuning.setSweep 0 { w with lanes := w.lanes.map fun z =>
    { z with phase := if z.pos = 7 then .closing else .finished, best := some ⟨z.point, if bad z.pos then 31 else 200⟩
             result := if z.pos = 7 then none else some (if bad z.pos then .notConverged else .converged) } }

end Sys2Proof.Machine.Demo

theorem closing_slots (bad : LanePos → Bool) : (closing bad).slots :=
  State.setSweep_slots (w := (mapped .tune).newSweep 0 0) tuning_slots (by decide +kernel) rfl

/-- The last closing beacon of a sweep without a failed lane, with one in the upper half, and with one in the lower half. -/
theorem witness_SweepCompletes :
    (∀ bad, (closing bad).slots) ∧
    (∀ k : LanePos, let s := named_ (closing fun l => decide (l = k));
      s.esu.queue = [] ∧ s.identity = some me ∧ (s.port 0).content 7 = .prbs ∧ (s.lane 0 7).injection = none ∧
      (s.sweepOf 0).any (fun w => decide ((w.2.lanes.map SweepLane.pos).Nodup) && (w.2.lanes.any fun z => decide (z.pos = 7)) &&
        w.2.lanes.all fun z => decide (if z.pos = 7 then z.phase = .closing else z.phase = .finished)) = true) ∧
    ((closing fun l => decide (l = 4)).modPort 0 fun x =>
      { x with snapshot := some { entry := { normal with width := .halfOk }, source := .base } }).sweepOf 0 ≠ none ∧
    ((closing fun _ => false).port 0).width = some .full ∧
    (∀ k, ((closing fun _ => false).lane 0 k).rx.far = none) ∧
    (tuning.esu.channels.toList.filter Option.isSome).length ≤ tuning.settings.sweepLimit ∧
    { tuning.settings with sweepLimit := 0 }.sweepLimit < (tuning.esu.channels.toList.filter Option.isSome).length :=
  ⟨closing_slots, by decide +kernel, by decide +kernel, by decide +kernel, by decide +kernel, by decide +kernel, by decide +kernel⟩

/-- A lane that measures inside the grid and at its last point, one that settles, and a watchdog of a first and of a third attempt. -/
theorem witness_SweepEventsAdvanceAndEnd :
    ((tuning.port 0).state = .tune ∧ (tuning.port 0).channel = some 0 ∧ tuning.esu.channels[(0 : ChanIx)] = some ((mapped .tune).newSweep 0 0) ∧
      ((mapped .tune).newSweep 0 0).port = 0) ∧
    ((named_ tuning).identity = some me ∧ ((named_ tuning).port 0).content 7 = .prbs ∧ ((named_ tuning).lane 0 7).injection = none ∧
      ((mapped .tune).newSweep 0 0).lanes.find? (fun y => decide (y.pos = 7)) = some (SweepLane.start (7, 7)) ∧
      (SweepLane.start (7, 7)).phase = .settle) ∧
    (tuning.slots ∧ tuning.esu.queue = [] ∧ (∃ z ∈ ((mapped .tune).newSweep 0 0).lanes, z.phase ≠ .finished) ∧
      (∀ n, (tuning.port 0).snapshot = some n → n.entry.width = .fullOnly)) ∧
    ((tuning.port 0).attempts < 2 ∧ ((tuning.modPort 0 fun x => { x with mode := .step }).port 0).mode = .step ∧
      (tuning.modPort 0 fun x => { x with mode := .step }).slots) ∧
    ((tuning.modPort 0 fun x => { x with attempts := 2 }).port 0).attempts = 2 ∧
    (tuning.modPort 0 fun x => { x with attempts := 2 }).slots :=
  ⟨by decide +kernel, by decide +kernel, ⟨tuning_slots, rfl, by decide +kernel, fun n h => by cases h; rfl⟩,
    ⟨by decide +kernel, by decide +kernel, slots_of_checks (by unfold slotChecks; decide +kernel)⟩, by decide +kernel,
    slots_of_checks (by unfold slotChecks; decide +kernel)⟩

/-- A figure for the last point of the grid. -/
theorem witness_SweepFigureAtLastPoint :
    ({ SweepLane.start (0, 0) with phase := .measure, point := { gain := 15, pre := 7, post := 15 } } : SweepLane).phase = .measure ∧
    ((SweepLane.start (0, 0)).figureArrived 9) = SweepLane.start (0, 0) ∧
    (({ SweepLane.start (0, 0) with phase := .measure, point := { gain := 15, pre := 7, post := 15 } } : SweepLane).figureArrived 9).phase =
      .closing := by decide +kernel

/-- A FAULTED port's beacon, with and without an injection of one; a near-end loopback; a HANDOVER before and at its last beacon. -/
theorem witness_BeaconTransmitSendsFields :
    (let s := named_ (mapped .faulted);
      s.identity = some me ∧ (s.port 0).content 7 = .beacon ∧ (s.port 0).channel = none ∧ (s.lane 0 7).injection = none ∧
      (s.port 0).nearEnd 7 = false) ∧
    (let s := named_ ((mapped .faulted).modLane 0 7 fun y => { y with injection := some ⟨.badCheck, 1⟩ });
      (s.port 0).content 7 = .beacon ∧ (s.lane 0 7).injection = some { kind := .badCheck, remaining := 1 }) ∧
    (let s := named_ (manual fun y => { y with control := { y.control with near := true } });
      (s.port 0).content 7 = .beacon ∧ (s.port 0).nearEnd 7 = true ∧ (s.lane 0 7).rx.state ≠ .off ∧ (s.lane 0 7).autoLoop = false ∧
      me.chassis ≠ 0) ∧
    (let h : HandRecord := { closing := true, entries := [⟨7, 2, 1⟩] };
      let s := named_ ((mapped .handover).modPort 0 fun x => { x with handover := some h });
      (s.port 0).content 7 = .prbs ∧ (s.port 0).handover = some h ∧
      (∀ e ∈ h.entries.map fun e => if e.pos = 7 then { e with sent := e.sent + 1 } else e, 2 ≤ e.sent) ∧
      ∃ e ∈ h.entries.map fun e => if e.pos = 6 then { e with sent := e.sent + 1 } else e, e.sent < 2) := by decide +kernel

/-- Sending with and without an injection; blocks in MANUAL under either correction, under none any more, and while SEARCHING, from the
line and from the lane itself. -/
theorem witness_TestBlocksCountAndQualify :
    (((mapped .qualify).port 0).content 7 = .prbs ∧
      (((mapped .qualify).modLane 0 7 fun y => { y with injection := some ⟨.prbsErrors, 1⟩ }).lane 0 7).injection =
        some ⟨.prbsErrors, 1⟩) ∧
    ((mapped .qualify).lane 0 7).injection = none ∧
    ∀ k ∈ [Checker.block .line true (some .normal), .block .line false (some .normal), .block .between false (some .inverted),
        .block .loop false none, .block .astride false (some .normal)],
      (((checking k).lane 0 7).checker = k ∧ ((checking k).port 0).nearEnd 7 = false ∧ ((checking k).port 0).state = .manual ∧
        ((checking k).lane 0 7).control.checkPrbs = true) ∧
      ((ownBlock k).lane 0 7).checker = k ∧ ((ownBlock k).port 0).nearEnd 7 = true ∧ ((ownBlock k).port 0).state = .manual ∧
        ((ownBlock k).port 0).content 7 = .prbs ∧ ((ownBlock k).lane 0 7).control.checkPrbs = true ∧
        ((ownBlock k).lane 0 7).block = some true := by decide +kernel

/-- In an open window: a block that fails and decides, one that passes the last mark, a closed entry, entries still open, and a failed
lane of the upper half under a policy that allows half width. -/
theorem witness_BlocksOfAWindow :
    (let a : QualEntry := { QualEntry.start (0, 0) with blocks := 4095, errors := 256 };
      let b : QualEntry := { QualEntry.start (1, 1) with blocks := 4096, grade := some 48 };
      let s := qualifying a b;
      ((s.port 0).state = .qualify ∧ (s.port 0).map[(0 : LanePos)].logical ≠ none ∧
        (s.port 0).snapshot = some { entry := normal, source := .base } ∧
        (s.port 0).qualify = some { begun := true, entries := [] ++ a :: [b] } ∧
        (s.lane 0 0).checker = .block .line false (some .normal) ∧ (s.port 0).nearEnd 0 = false ∧ b.pos ≠ 0) ∧
      (a.verdict = .pending ∧ a.blocks < normal.window ∧ earlyCeiling normal.grade normal.window < 256 + 1 ∧
        256 + 0 ≤ earlyCeiling normal.grade normal.window ∧ a.blocks + 1 = normal.window ∧ normal.grade ≤ q2Grade 4096 256) ∧
      (b.verdict = .pending ∧ normal.window ≤ b.blocks ∧ b.grade.any fun g => decide (normal.grade ≤ g)) ∧
      a.logical.val < (s.port 0).L / 2 ∧ (s.port 0).mode ≠ .step ∧
      (crowded s).settings.sweepLimit ≤ ((crowded s).esu.channels.toList.filter Option.isSome).length) ∧
    (let a : QualEntry := QualEntry.start (0, 7);
      let b : QualEntry := QualEntry.start (1, 1);
      let c : QualEntry := { b with blocks := 4096, grade := some 48 };
      let s := (qualifying a c).modPort 0 fun x =>
        { x with snapshot := some { entry := { normal with width := .halfOk }, source := .base } };
      earlyCeiling normal.grade normal.window < 0 + 2 ^ 19 ∧ ¬(a.logical.val < (s.port 0).L / 2) ∧ (s.port 0).width = some .full ∧
      b.blocks < normal.window ∧ b.verdict ≠ .fail ∧ { a with verdict := QualVerdict.fail }.verdict ≠ .pending ∧
      normal.window ≤ c.blocks) := by decide +kernel

theorem witness_LinkEventsActOnTheirLane :
    (((mapped .qualify).lane 0 7).owner = .part ∧ ((mapped .qualify).lane 0 7).rx.state ≠ .off ∧
      ((mapped .qualify).port 0).nearEnd 7 = false) ∧
    (let s := qualifying (QualEntry.start (0, 0)) (QualEntry.start (1, 1));
      (s.port 0).counts 0 = true ∧ (s.lane 0 0).checker = .block .line false (some .normal)) ∧
    ((hunting.lane 0 0).owner = .switch ∧ (hunting.lane 0 0).monitor.hunt = some ⟨1, false⟩ ∧ (hunting.port 0).state = .active ∧
      (hunting.plan.resolve 0).entry.kind ≠ .unused ∧
      ∀ k, (hunting.lane 0 k).autoLoop = false ∧ (hunting.lane 0 k).rx.loopSeen = false) ∧
    (let b : Beacon := { beacon 0 with flags := { (beacon 0).flags with retrain := true } };
      let r := (hunting.lane 0 0).rx.good b .normal;
      classify (b.bytes false) = .good b .normal ∧ r.1.state = .stable ∧ r.2 = [] ∧ (hunting.lane 0 0).rx.suspended = false ∧
      ((hunting.lane 0 0).rx.good { beacon 0 with portNum := 4 } .normal).2 =
        [.identityChanged (farId 0) { farId 0 with portNum := 4 }]) ∧
    (((mapped .active).modLane 0 3 fun y => { y with owner := .switch }).lane 0 3).monitor.hunt = none ∧
    (((mapped .active).modPort 0 fun x => { x with cleanRun := some 0 }).port 0).cleanRun = some 0 := by decide +kernel

/-- Two errored periods, the older one the last of a window of five, at unstable counts 2 and 3, also in AUTO mode without a free channel;
and no trigger at reset. -/
theorem witness_MonitorPeriodJudgesAndRetrains :
    (∀ p l, ¬((State.reset.port p).state = .active ∧ (State.reset.lane p l).owner = .switch)) ∧
    (∀ u ∈ [2, 3], let s := erring .step u;
      ((s.port 0).state = .active ∧ (s.lane 0 0).owner = .switch) ∧
      2 ≤ ((((decide (s.settings.errThreshold ≤ (s.lane 0 0).monitor.errors)) :: (s.lane 0 0).monitor.history).take 6).take 5).count true ∧
      (∀ q k, (s.port q).state = .active ∧ (s.lane q k).owner = .switch → q = 0 ∧ k = 0) ∧ (s.port 0).unstable = u ∧
      (s.port 0).mode = .step ∧ s.settings.retrain = .five) ∧
    let s := crowded (erring .auto 2);
    (s.port 0).mode = .auto ∧ s.settings.sweepLimit ≤ (s.esu.channels.toList.filter Option.isSome).length := by decide +kernel

/-- The hypotheses of the invariants hold together on a port past discovery, with a command waiting. -/
theorem witness_StepKeepsListsAndCounters :
    (mapped .active).reports.wf ∧ (mapped .active).mpt.bufferLegal ∧ (mapped .active).countersWithin ∧
    ∃ t, exec (.cleanRunExpiry 0) (mapped .active) = .next t := by
  have z : ∀ m, Counter.zero.within m := fun m => ⟨Nat.zero_le _, Nat.zero_le _⟩
  have c : (∀ p, ∀ i : Fin 3, ((mapped .active).port p).counters[i] = .zero) ∧
      (∀ p l, ∀ i : Fin 7, ((mapped .active).lane p l).counters[i] = .zero) ∧ ∀ i : Fin 2, (mapped .active).mpt.counters[i] = .zero := by
    decide +kernel
  have r : (mapped .active).reports.records = [] := by decide +kernel
  have b : (mapped .active).mpt.buffer = [] := by decide +kernel
  refine ⟨⟨?_, ?_, ?_, ?_⟩, ⟨?_, ?_⟩, ⟨fun p => ⟨fun i => ?_, fun l i => ?_⟩, fun i => ?_⟩, _, rfl⟩
  · simp [r]
  · simp [r]
  · simp [r]
  · simp [r]
  · simp [b]
  · rw [b]; trivial
  · rw [c.1]; exact z _
  · have := c.2.1 p l i
    simp only [State.lane] at this
    rw [this]; exact z _
  · rw [c.2.2]; exact z _

theorem PlanEntry_resetEmpty_legal : PlanEntry.resetEmpty.legal where
  chassis := by decide +kernel
  grade := by decide +kernel
  window := by decide +kernel
  label := nofun
  reach := fun h => by rcases h with h | h <;> exact absurd h (by decide +kernel)

theorem witness_StepKeepsRecordsLegal : (mapped .verified).recordsLegal where
  settings := by constructor <;> decide +kernel
  plan :=
    { entries := fun n p => by
        have e : (mapped .verified).plan.entry n p = .resetEmpty := by revert p; cases n <;> decide +kernel
        exact e ▸ PlanEntry_resetEmpty_legal
      background := ⟨{ PlanEntry_normal_legal with reach := fun _ => by decide +kernel }, by decide +kernel⟩
      order := by decide +kernel }
  snapshots := fun p n h => by
    have e : ∀ p, ∀ m ∈ ((mapped .verified).port p).snapshot, m.entry = normal := by decide +kernel
    rw [e p n h]
    exact ⟨PlanEntry_normal_legal, by decide +kernel⟩
  stages := fun p => stageFields_of_cleared (by revert p; decide +kernel)

theorem witness_StepKeepsQueueAndChannels : tuning.slots ∧ ∃ t, step { tuning with pending := [.watchdogExpiry 0] } = .next t :=
  ⟨tuning_slots, _, rfl⟩

end
end

section
/-! SUPPORT. How a request of the Plan Store ends (R172, R187), how its bytes are judged (R39, R40, R45, R48), and what its changes do to
the plan and to resolution (R46, R49, R54). -/

namespace Sys2Proof.Machine

/-! ### The answer that ends a request -/

/-- An answer with no report kept back ends the command settled (R187). -/
theorem State.answer_done {t : State} (h : t.deferred = []) (i : Instr) (st : Status) (body : List Byte) :
    (t.answer i st body).done = .next (t.replied i st body) := by
  rw [State.done, State.closed_of_none (t.answer i st body) h]
  exact congrArg _ (by simp [State.replied, State.settled, State.answer, State.attention, h])

theorem State.opened_refuse_done (s : State) (i : Instr) (st : Status) :
    (s.opened.refuse i st).done = .next (s.replied i st []) :=
  State.answer_done rfl i st []

theorem State.opened_setPlan_accept_done (s : State) (q : Plan) (i : Instr) (body : List Byte) :
    ((s.opened.setPlan q).accept i body).done = .next ({ s with plan := q }.replied i .ok body) :=
  State.answer_done rfl i .ok body

/-! ### What each request runs -/

theorem exec_planWrite (target port : Byte) (e : RawEntry) (s : State) :
    exec (.planWrite target port e) s = execPlanWrite target port e s := rfl

/-- Both spellings of a background write run the same operation (R195). -/
theorem exec_of_background {i : Instr} {e : RawEntry} (h : i = .backgroundWrite e ∨ ∃ port, i = .planWrite 3 port e) (s : State) :
    exec i s = (s.opened.writeBackground i e).done := by
  obtain rfl | ⟨port, rfl⟩ := h <;> rfl

theorem exec_planFill (layer first count direction : Byte) (e : RawEntry) (s : State) :
    exec (.planFill layer first count direction e) s = execPlanFill layer first count direction e s := rfl

theorem exec_layerSet (r : RawLayers) (s : State) : exec (.layerSet r) s = execLayerSet r s := rfl

/-! ### Fields of a request body (R189) -/

/-- A code past the last value of a list names none. -/
theorem named_eq_none {α : Type} {xs : List α} {b : Byte} (h : xs.length ≤ b.toNat) : named xs b = none :=
  List.getElem?_eq_none h

theorem portOf_eq_some {b : Byte} {p : PortIx} (h : b.toNat = p.val) : portOf b = some p := by
  have hb : b.toNat < 24 := h ▸ p.isLt
  exact (dif_pos hb).trans (congrArg some (Fin.ext h))

theorem portOf_eq_none {b : Byte} (h : 24 ≤ b.toNat) : portOf b = none := by
  simp [portOf, Nat.not_lt.2 h]

theorem layerOf_eq_none {b : Byte} (h : 2 < b.toNat) : layerOf b = none := named_eq_none h

theorem boolOf_eq_none {b : Byte} (h : 1 < b.toNat) : boolOf b = none := named_eq_none h

theorem directionOf_eq_none {b : Byte} (h : 1 < b.toNat) : directionOf b = none := named_eq_none h

/-- A direction in its set is MIRROR where it is not 0 (R45, R195). -/
theorem directionOf_eq_some {b : Byte} (h : b.toNat ≤ 1) : directionOf b = some (decide (b ≠ 0)) := by
  obtain rfl | rfl : b = 0 ∨ b = 1 := by bv_omega
  · rfl
  · rfl

@[simp] theorem layerOf_eq_some_iff {b : Byte} {n : LayerName} : layerOf b = some n ↔ b = n.code := by
  obtain rfl | rfl | rfl | h : b = 0 ∨ b = 1 ∨ b = 2 ∨ 2 < b.toNat := by bv_omega
  · cases n <;> decide
  · cases n <;> decide
  · cases n <;> decide
  · rw [layerOf_eq_none h]
    refine iff_of_false nofun ?_
    rintro rfl
    cases n <;> exact absurd h (by decide)

@[simp] theorem layerOf_code (n : LayerName) : layerOf n.code = some n := layerOf_eq_some_iff.2 rfl

theorem LayerName.code_toNat_lt (n : LayerName) : n.code.toNat < 3 := by cases n <;> decide

theorem LayerName.code_injective : Function.Injective LayerName.code := fun m n h =>
  Option.some_injective _ ((layerOf_code m).symm.trans (h ▸ layerOf_code n))

/-- No layer has the code of the background (R195). -/
theorem LayerName.code_ne_background (n : LayerName) : n.code ≠ 3 := by cases n <;> decide

@[simp] theorem boolOf_eq_some_iff {b : Byte} {v : Bool} : boolOf b = some v ↔ b = boolByte v := by
  obtain rfl | rfl | h : b = 0 ∨ b = 1 ∨ 1 < b.toNat := by bv_omega
  · cases v <;> decide
  · cases v <;> decide
  · rw [boolOf_eq_none h]
    refine iff_of_false nofun ?_
    rintro rfl
    cases v <;> exact absurd h (by decide)

theorem boolByte_toNat_le (v : Bool) : (boolByte v).toNat ≤ 1 := by cases v <;> decide

theorem entryTarget_code {port : Byte} {p : PortIx} (n : LayerName) (h : port.toNat = p.val) :
    entryTarget n.code port = some (n, p) := by
  simp [entryTarget, portOf_eq_some h]

theorem entryTarget_eq_none {target port : Byte} (h : 2 < target.toNat ∨ 24 ≤ port.toNat) : entryTarget target port = none := by
  rcases h with h | h
  · simp [entryTarget, layerOf_eq_none h]
  · simp [entryTarget, portOf_eq_none h]

theorem fillTarget_code {first direction : Byte} {p : PortIx} {d : Bool} (n : LayerName) (hf : first.toNat = p.val)
    (hd : directionOf direction = some d) : fillTarget n.code first direction = some (n, p, d) := by
  simp [fillTarget, portOf_eq_some hf, hd]

theorem fillTarget_eq_none {layer first direction : Byte} (h : 2 < layer.toNat ∨ 23 < first.toNat ∨ 1 < direction.toNat) :
    fillTarget layer first direction = none := by
  rcases h with h | h | h
  · simp [fillTarget, layerOf_eq_none h]
  · simp [fillTarget, portOf_eq_none h]
  · simp [fillTarget, directionOf_eq_none h]

/-- The flags and the order a LAYER_SET body names are those whose bytes it carries, each layer once (R48). -/
theorem judgeLayers_eq_some_iff {r : RawLayers} {v : (Bool × Bool × Bool) × List LayerName} :
    judgeLayers r = some v ↔ ∃ (a b c : Bool) (x y z : LayerName),
      r = { base := boolByte a, overlayA := boolByte b, overlayB := boolByte c, first := x.code, second := y.code, third := z.code } ∧
      [x, y, z].Nodup ∧ v = ((a, b, c), [x, y, z]) := by
  cases r
  simp only [judgeLayers, Option.bind_eq_bind, Option.bind_eq_some_iff, boolOf_eq_some_iff, layerOf_eq_some_iff,
    Option.ite_none_right_eq_some, Option.pure_def, Option.some.injEq, RawLayers.mk.injEq]
  constructor
  · rintro ⟨a, ha, b, hb, c, hc, x, hx, y, hy, z, hz, distinct, rfl⟩
    exact ⟨a, b, c, x, y, z, ⟨ha, hb, hc, hx, hy, hz⟩, distinct, rfl⟩
  · rintro ⟨a, b, c, x, y, z, ⟨ha, hb, hc, hx, hy, hz⟩, distinct, rfl⟩
    exact ⟨a, ha, b, hb, c, hc, x, hx, y, hy, z, hz, distinct, rfl⟩

/-- A flag outside its set, a name outside its set, or a name given twice: the body is refused (R48). -/
theorem judgeLayers_eq_none {r : RawLayers} (bad : 1 < r.base.toNat ∨ 1 < r.overlayA.toNat ∨ 1 < r.overlayB.toNat ∨
    2 < r.first.toNat ∨ 2 < r.second.toNat ∨ 2 < r.third.toNat ∨ r.first = r.second ∨ r.first = r.third ∨ r.second = r.third) :
    judgeLayers r = none := by
  refine Option.eq_none_iff_forall_ne_some.2 fun v judged => ?_
  obtain ⟨a, b, c, x, y, z, rfl, distinct, -⟩ := judgeLayers_eq_some_iff.1 judged
  obtain ⟨⟨hxy, hxz⟩, hyz⟩ : (x ≠ y ∧ x ≠ z) ∧ y ≠ z := by simpa using distinct
  have flags : _ ∧ _ ∧ _ := ⟨boolByte_toNat_le a, boolByte_toNat_le b, boolByte_toNat_le c⟩
  have names : _ ∧ _ ∧ _ := ⟨x.code_toNat_lt, y.code_toNat_lt, z.code_toNat_lt⟩
  simp only [LayerName.code_injective.eq_iff, hxy, hxz, hyz, or_false] at bad
  omega

/-! ### The checks of an entry (R39, R40) -/

theorem checkEntry_of_none {e : RawEntry} (h : judgeEntry e = none) : checkEntry e = .error .badArgument := by
  simp [checkEntry, h]

theorem checkEntry_of_short {e : RawEntry} {x : PlanEntry} (h : judgeEntry e = some x) (k : x.windowShort = true) :
    checkEntry e = .error .windowShort := by
  simp [checkEntry, h, k]

theorem checkEntry_of_fits {e : RawEntry} {x : PlanEntry} (h : judgeEntry e = some x) (k : x.windowShort = false) :
    checkEntry e = .ok x := by
  simp [checkEntry, h, k]

theorem checkEntry_eq_windowShort_iff {e : RawEntry} {x : PlanEntry} (h : judgeEntry e = some x) :
    checkEntry e = .error .windowShort ↔ x.windowShort = true := by
  cases k : x.windowShort
  · simp [checkEntry_of_fits h k]
  · simp [checkEntry_of_short h k]

/-- An EMPTY entry has no grade to reach, so no window is short for it (R40). -/
theorem PlanEntry.windowShort_of_empty {x : PlanEntry} (h : x.kind = .empty) : x.windowShort = false := by
  simp [PlanEntry.windowShort, h]

/-- A power of two exceeds a number exactly where its exponent exceeds that of the largest power within the number. -/
theorem lt_two_pow_iff_of_largest {n g t : Nat} (hg : 2 ^ g ≤ n) (top : ∀ h, 2 ^ h ≤ n → h ≤ g) : n < 2 ^ t ↔ g < t := by
  constructor
  · exact fun h => (Nat.pow_lt_pow_iff_right (by omega)).1 (hg.trans_lt h)
  · exact fun h => Nat.lt_of_not_le fun k => absurd (top t k) (by omega)

/-- The largest power of two within (Q × 2^20)² is 2^40 times the largest within Q². -/
theorem largest_of_windowSquare {q g k : Nat} (hg : 2 ^ g ≤ (q * 2 ^ 20) ^ 2) (topg : ∀ h, 2 ^ h ≤ (q * 2 ^ 20) ^ 2 → h ≤ g)
    (hk : 2 ^ k ≤ q ^ 2) (topk : ∀ h, 2 ^ h ≤ q ^ 2 → h ≤ k) : g = 40 + k := by
  have square : (q * 2 ^ 20) ^ 2 = 2 ^ 40 * q ^ 2 := by ring
  rw [square] at hg topg
  have above : 40 + k ≤ g := topg _ (by rw [pow_add]; exact Nat.mul_le_mul_left _ hk)
  obtain ⟨j, rfl⟩ : ∃ j, g = 40 + j := ⟨g - 40, by omega⟩
  rw [pow_add] at hg
  have below : j ≤ k := topk j (Nat.le_of_mul_le_mul_left hg (by decide))
  omega

/-! ### One entry replaced (R43) -/

@[simp] theorem Plan.layer_setLayer (q : Plan) (n m : LayerName) (y : Layer) :
    (q.setLayer n y).layer m = if m = n then y else q.layer m := by
  cases n <;> cases m <;> rfl

@[simp] theorem Plan.setLayer_order (q : Plan) (n : LayerName) (y : Layer) : (q.setLayer n y).order = q.order := by cases n <;> rfl

@[simp] theorem Plan.setLayer_background (q : Plan) (n : LayerName) (y : Layer) : (q.setLayer n y).background = q.background := by
  cases n <;> rfl

theorem Plan.entry_setEntry (q : Plan) (n m : LayerName) (p k : PortIx) (e : PlanEntry) :
    (q.setEntry n p e).entry m k = if m = n ∧ k = p then e else q.entry m k := by
  by_cases hm : m = n
  · subst hm
    simp [Plan.entry, Plan.setEntry, Vector.getElem_set, Fin.ext_iff, eq_comm]
  · simp [Plan.entry, Plan.setEntry, hm]

/-- Two plans that differ in stored entries alone: the same enable flags, order and background. -/
structure Plan.SameFrame (q r : Plan) : Prop where
  enabled : ∀ m, (r.layer m).enabled = (q.layer m).enabled
  order : r.order = q.order
  background : r.background = q.background

theorem Plan.SameFrame.refl (q : Plan) : q.SameFrame q := ⟨fun _ => rfl, rfl, rfl⟩

theorem Plan.SameFrame.trans {q r t : Plan} (h : q.SameFrame r) (k : r.SameFrame t) : q.SameFrame t :=
  ⟨fun m => (k.enabled m).trans (h.enabled m), k.order.trans h.order, k.background.trans h.background⟩

theorem Plan.setEntry_sameFrame (q : Plan) (n : LayerName) (p : PortIx) (e : PlanEntry) : q.SameFrame (q.setEntry n p e) where
  enabled m := by
    by_cases h : m = n
    · subst h; simp [Plan.setEntry]
    · simp [Plan.setEntry, h]
  order := by simp [Plan.setEntry]
  background := by simp [Plan.setEntry]

/-! ### Resolution (R49) -/

/-- A layer has a say at a port: it is enabled, and its entry there is not EMPTY. -/
def Plan.speaks (q : Plan) (p : PortIx) (n : LayerName) : Bool := (q.layer n).enabled && decide ((q.entry n p).kind ≠ .empty)

theorem Plan.speaks_eq_false_iff {q : Plan} {p : PortIx} {n : LayerName} :
    q.speaks p n = false ↔ (q.layer n).enabled = false ∨ (q.entry n p).kind = .empty := by
  simp [Plan.speaks, imp_iff_not_or]

theorem Plan.resolve_of_find {q : Plan} {p : PortIx} {n : LayerName} (h : q.order.find? (q.speaks p) = some n) :
    q.resolve p = { entry := q.entry n p, source := n.source } := by
  unfold Plan.speaks at h
  simp only [Plan.resolve, h]

theorem Plan.resolve_of_find_none {q : Plan} {p : PortIx} (h : q.order.find? (q.speaks p) = none) :
    q.resolve p = { entry := q.background, source := .background } := by
  unfold Plan.speaks at h
  simp only [Plan.resolve, h]

/-- What stands in layers that are not enabled does not matter to resolution. -/
theorem Plan.resolve_eq_of_sameFrame {q r : Plan} {p : PortIx} (frame : q.SameFrame r)
    (same : ∀ m, (q.layer m).enabled = true → r.entry m p = q.entry m p) : r.resolve p = q.resolve p := by
  have speaks : r.speaks p = q.speaks p := by
    funext m
    cases on : (q.layer m).enabled
    · simp [Plan.speaks, frame.enabled, on]
    · simp [Plan.speaks, frame.enabled, same m on]
  cases found : q.order.find? (q.speaks p) with
  | none =>
    rw [Plan.resolve_of_find_none found, Plan.resolve_of_find_none (frame.order ▸ speaks ▸ found), frame.background]
  | some n =>
    have on : (q.layer n).enabled = true := by
      have := List.find?_some found
      simp only [Plan.speaks, Bool.and_eq_true] at this
      exact this.1
    rw [Plan.resolve_of_find found, Plan.resolve_of_find (frame.order ▸ speaks ▸ found), same n on]

/-- A write to an entry of a layer that is not enabled changes no resolution. -/
theorem Plan.resolve_setEntry {q : Plan} {n : LayerName} (off : (q.layer n).enabled = false) (p k : PortIx) (e : PlanEntry) :
    (q.setEntry n p e).resolve k = q.resolve k := by
  refine Plan.resolve_eq_of_sameFrame (q.setEntry_sameFrame n p e) fun m on => ?_
  rw [Plan.entry_setEntry, if_neg]
  rintro ⟨rfl, -⟩
  exact absurd on (by simp [off])

/-! ### A run of entries (R46) -/

/-- The stepped port number of the k-th entry of a fill stays within 0..255; ANY always does. -/
def stepFits (mirror : Bool) (k : Nat) (num : Option Byte) : Bool :=
  num.all fun b => if mirror then decide (k ≤ b.toNat) else decide (b.toNat + k ≤ 255)

/-- The stepped port number of the k-th entry of a fill. -/
def stepNum (mirror : Bool) (k : Nat) (num : Option Byte) : Option Byte :=
  num.map fun b => byte (if mirror then b.toNat - k else b.toNat + k)

theorem steppedPort_eq (mirror : Bool) (k : Nat) (num : Option Byte) :
    steppedPort mirror k num = if stepFits mirror k num then some (stepNum mirror k num) else none := by
  cases num with
  | none => rfl
  | some b => cases mirror <;> simp [steppedPort, stepFits, stepNum]

/-- The template as the k-th entry of a fill. -/
def PlanEntry.stepped (e : PlanEntry) (mirror : Bool) (k : Nat) : PlanEntry := { e with portNum := stepNum mirror k e.portNum }

/-- What the entries of a fill from the k-th on have done to a plan, with `left` of them to write at most and `total` written in all. -/
structure Plan.Filled (q : Plan) (n : LayerName) (first : PortIx) (mirror : Bool) (e : PlanEntry) (left k : Nat) (r : Plan)
    (total : Nat) : Prop where
  from_le : k ≤ total
  le_most : total ≤ k + left
  fits : ∀ j, k ≤ j → j < total → stepFits mirror j e.portNum = true
  stops : total < k + left → stepFits mirror total e.portNum = false
  written : ∀ (j : Nat) (h : first.val + j < 24), k ≤ j → j < total → r.entry n ⟨first.val + j, h⟩ = e.stepped mirror j
  kept : ∀ (l : LayerName) (o : PortIx), l ≠ n ∨ o.val < first.val + k ∨ first.val + total ≤ o.val → r.entry l o = q.entry l o
  frame : q.SameFrame r

theorem Plan.Filled.stop {q : Plan} {n : LayerName} {first : PortIx} {mirror : Bool} {e : PlanEntry} {left k : Nat}
    (h : 0 < left → stepFits mirror k e.portNum = false) : q.Filled n first mirror e left k q k where
  from_le := le_rfl
  le_most := by omega
  fits j _ _ := by omega
  stops _ := h (by omega)
  written j _ _ _ := by omega
  kept _ _ _ := rfl
  frame := .refl q

/-- One entry written, then the fill from the next on. -/
theorem Plan.Filled.cons {q r : Plan} {n : LayerName} {first : PortIx} {mirror : Bool} {e : PlanEntry} {left k total : Nat}
    (h : first.val + k < 24) (fit : stepFits mirror k e.portNum = true)
    (rest : (q.setEntry n ⟨first.val + k, h⟩ (e.stepped mirror k)).Filled n first mirror e left (k + 1) r total) :
    q.Filled n first mirror e (left + 1) k r total where
  from_le := by have := rest.from_le; omega
  le_most := by have := rest.le_most; omega
  fits j hk ht := by
    obtain rfl | hlt := hk.eq_or_lt
    · exact fit
    · exact rest.fits j hlt ht
  stops ht := rest.stops (by omega)
  written j hj hk ht := by
    obtain rfl | hlt := hk.eq_or_lt
    · rw [rest.kept n _ (.inr (.inl (by simp))), Plan.entry_setEntry, if_pos ⟨rfl, rfl⟩]
    · exact rest.written j hj hlt ht
  kept l o out := by
    have := rest.from_le
    rw [rest.kept l o (out.imp_right (Or.imp_left (by omega))), Plan.entry_setEntry, if_neg]
    rintro ⟨rfl, rfl⟩
    simp only [ne_eq, not_true_eq_false, false_or] at out
    omega
  frame := (q.setEntry_sameFrame n _ _).trans rest.frame

/-- R46: a fill that ends within the ports goes on until its count is written or the stepped port number leaves 0..255. -/
theorem Plan.fillFrom_filled (n : LayerName) (first : PortIx) (mirror : Bool) (e : PlanEntry) (left k : Nat) (q : Plan)
    (room : first.val + (k + left) ≤ 24) :
    q.Filled n first mirror e left k (q.fillFrom n first mirror e left k).1 (q.fillFrom n first mirror e left k).2 := by
  induction left generalizing k q with
  | zero => exact .stop (by omega)
  | succ left ih =>
    cases fit : stepFits mirror k e.portNum with
    | false =>
      have leaves : steppedPort mirror k e.portNum = none := by simp [steppedPort_eq, fit]
      simp only [Plan.fillFrom, leaves]
      exact .stop fun _ => fit
    | true =>
      have stays : steppedPort mirror k e.portNum = some (stepNum mirror k e.portNum) := by simp [steppedPort_eq, fit]
      have inside : first.val + k < 24 := by omega
      simp only [Plan.fillFrom, stays, inside, dite_true]
      exact .cons inside fit (ih (k + 1) _ (by omega))

/-- The first entry of a fill always fits (R45, R46). -/
theorem stepFits_zero (mirror : Bool) (num : Option Byte) : stepFits mirror 0 num = true := by
  cases num with
  | none => rfl
  | some b =>
    have inByte := b.isLt
    cases mirror <;> simp only [stepFits, Option.all_some, Bool.false_eq_true, if_true, if_false, decide_eq_true_eq] <;> omega

theorem fillCount_pos (first : PortIx) (count : Nat) : 1 ≤ fillCount first count := by
  simp only [fillCount, clamp]; omega

/-- A fill of a layer that is not enabled changes no resolution. -/
theorem Plan.Filled.resolve_eq {q r : Plan} {n : LayerName} {first : PortIx} {mirror : Bool} {e : PlanEntry} {left k total : Nat}
    (h : q.Filled n first mirror e left k r total) (off : (q.layer n).enabled = false) (p : PortIx) : r.resolve p = q.resolve p :=
  Plan.resolve_eq_of_sameFrame h.frame fun m on => h.kept m p (.inl fun same => absurd on (by simp [same, off]))

/-- A fill always writes its first entry. -/
theorem Plan.Filled.total_pos {q r : Plan} {n : LayerName} {first : PortIx} {mirror : Bool} {e : PlanEntry} {left total : Nat}
    (h : q.Filled n first mirror e left 0 r total) (most : 1 ≤ left) : 1 ≤ total := by
  by_contra unwritten
  obtain rfl : total = 0 := by omega
  exact absurd (h.stops (by omega)) (by simp [stepFits_zero])

/-! ### The drift check (R53, R54) -/

/-- The PLAN_DRIFT report of one port, where it is in drift. -/
def State.driftReport (s : State) (p : PortIx) : Option Report :=
  (driftDetail (s.port p) (s.plan.resolve p)).map fun d => { port := some p, lane := none, detail := d }

/-- A run over ports, each of which enters at most one report that does not hang on the report list, enters those reports in order. -/
theorem State.foldl_enterAll {f : State → PortIx → State} {g : State → PortIx → Option Report}
    (step : ∀ t p, f t p = t.setReports (t.reports.enterAll t.time.clock (g t p).toList))
    (apart : ∀ t l p, g (t.setReports l) p = g t p) (ps : List PortIx) (s : State) :
    ps.foldl f s = s.setReports (s.reports.enterAll s.time.clock (ps.filterMap (g s))) := by
  induction ps generalizing s with
  | nil => rfl
  | cons p ps ih =>
    rw [List.foldl_cons, step, ih, funext (apart s _), List.filterMap_cons]
    cases g s p <;> rfl

/-- The drift check enters one report for each port in drift and changes nothing else. -/
theorem State.driftCheck_eq (s : State) :
    s.driftCheck = { s with reports := s.reports.enterAll s.time.clock (allPorts.filterMap s.driftReport) } := by
  refine State.foldl_enterAll (g := State.driftReport) (fun t p => ?_) (fun _ _ _ => rfl) allPorts s
  unfold State.driftReport
  cases driftDetail (t.port p) (t.plan.resolve p) <;> rfl

@[simp] theorem State.driftCheck_ports (s : State) : s.driftCheck.ports = s.ports := by rw [State.driftCheck_eq]

/-- A change of the plan followed by the drift check, answered OK. -/
theorem State.opened_driftCheck_accept_done (s : State) (q : Plan) (i : Instr) (body : List Byte) :
    (((s.opened.setPlan q).driftCheck).accept i body).done = .next ({ s with plan := q }.driftCheck.replied i .ok body) := by
  rw [State.accept, State.answer_done (by rw [State.driftCheck_eq]; rfl), State.driftCheck_eq, State.driftCheck_eq]
  rfl

theorem driftDarkness_eq (old new : Snapshot) :
    driftDarkness old new = (decide (old.entry.kind = .unused) != decide (new.entry.kind = .unused)) := by
  rw [Bool.eq_iff_iff]
  simp [driftDarkness, Snapshot.dark]

theorem driftLaneCount_eq (old new : Snapshot) :
    driftLaneCount old new = (decide (old.entry.kind ≠ .unused) && decide (new.entry.kind ≠ .unused) &&
      decide (old.entry.count ≠ new.entry.count)) := by
  simp only [driftLaneCount, Snapshot.dark, decide_not]

theorem driftNeighbour_eq (old new : Snapshot) (nb : Option Neighbour) :
    driftNeighbour old new nb = (decide (old.entry.kind ≠ .unused) && decide (new.entry.kind ≠ .unused) && nb.any fun n =>
      !(new.entry.chassis.all (fun c => decide (c = n.chassis)) && new.entry.portNum.all fun k => decide (k = n.portNum))) := by
  simp only [driftNeighbour, Snapshot.dark, PlanEntry.expects, decide_not]

/-- The states the drift check looks at are all but four (R53). -/
theorem PortState.drifts_iff (x : PortState) : x.drifts = true ↔ x ∉ [PortState.idle, .discover, .manual, .faulted] := by
  cases x <;> decide

end Sys2Proof.Machine
end

section
/-! SUPPORT. The statements about the wiring plan, settled. -/

namespace Sys2Proof.Machine

/-! ### Entries and windows (R40) -/

/-- Settles O17: the best grade of a window is the exponent of the largest power of two within its square. -/
theorem windowShortAgainstBestGrade : Obligations.WindowShortAgainstBestGrade := by
  refine ⟨fun e x g judged hg topg => ⟨?_, fun k hk topk => largest_of_windowSquare hg topg hk topk⟩, ?_⟩
  · rw [checkEntry_eq_windowShort_iff judged]
    simp only [PlanEntry.windowShort, windowSquare, Config.blockBits, decide_eq_true_eq, lt_two_pow_iff_of_largest hg topg]
  · intro q g row
    simp only [List.mem_cons, Prod.mk.injEq, List.not_mem_nil, or_false] at row
    obtain ⟨rfl, rfl⟩ | ⟨rfl, rfl⟩ | ⟨rfl, rfl⟩ | ⟨rfl, rfl⟩ | ⟨rfl, rfl⟩ | ⟨rfl, rfl⟩ | ⟨rfl, rfl⟩ | ⟨rfl, rfl⟩ :=
      row <;> norm_num

/-! ### Writes of one entry (R43, R44) -/

/-- Settles O18, by the refusals of R43 in their order. -/
theorem planWriteJudgedInOrder : Obligations.PlanWriteJudgedInOrder := by
  intro target port e s
  constructor
  · intro outside
    have layer : target ≠ 3 := by rintro rfl; simp at outside
    have missed : entryTarget target port = none := entryTarget_eq_none (by omega)
    simp only [exec_planWrite, execPlanWrite, if_neg layer, missed, State.opened_refuse_done]
  · rintro n p rfl index
    simp only [exec_planWrite, execPlanWrite, if_neg n.code_ne_background, entryTarget_code n index]
    refine ⟨fun on => ?_, fun off => ⟨fun bad => ?_, fun x judged => ⟨fun short => ?_, fun fits => ?_⟩⟩⟩
    · simp only [on, if_true, State.opened_refuse_done]
    · simp only [off, Bool.false_eq_true, if_false, checkEntry_of_none bad, State.opened_refuse_done]
    · simp only [off, Bool.false_eq_true, if_false, checkEntry_of_short judged short, State.opened_refuse_done]
    · have frame := s.plan.setEntry_sameFrame n p x
      refine ⟨?_, ?_, fun m k other => ?_, frame.enabled, frame.order, frame.background, fun k => Plan.resolve_setEntry off p k x⟩
      · simp only [off, Bool.false_eq_true, if_false, checkEntry_of_fits judged fits, State.opened_setPlan_accept_done]
      · rw [Plan.entry_setEntry, if_pos ⟨rfl, rfl⟩]
      · rw [Plan.entry_setEntry, if_neg fun same => other (Prod.ext same.1 same.2)]

/-- Settles O19, on the operation both spellings run. -/
theorem backgroundWriteRunsDriftCheck : Obligations.BackgroundWriteRunsDriftCheck := by
  intro i e s spelled
  rw [exec_of_background spelled]
  refine ⟨fun bad => ?_, fun x judged => ⟨fun short => ?_, fun empty => ?_, fun fits kind => ?_⟩⟩
  · simp [State.writeBackground, checkEntry_of_none bad, State.opened_refuse_done]
  · simp [State.writeBackground, checkEntry_of_short judged short, State.opened_refuse_done]
  · simp [State.writeBackground, checkEntry_of_fits judged (PlanEntry.windowShort_of_empty empty), empty, State.opened_refuse_done]
  · simp [State.writeBackground, checkEntry_of_fits judged fits, kind, State.opened_driftCheck_accept_done]

/-! ### Fills (R45, R46) -/

/-- Settles O20: the refusals of R45 in their order, then what `Plan.fillFrom_filled` says of the fill. -/
theorem planFillStepsPortNumbers : Obligations.PlanFillStepsPortNumbers := by
  intro layer first count direction e s
  constructor
  · intro outside
    simp [exec_planFill, execPlanFill, fillTarget_eq_none outside, State.opened_refuse_done]
  · rintro n p rfl index legal
    simp only [exec_planFill, execPlanFill, fillTarget_code n index (directionOf_eq_some legal)]
    refine ⟨fun on => ?_, fun off => ⟨fun bad => ?_, fun x judged => ⟨fun short => ?_, fun fits => ?_⟩⟩⟩
    · simp only [on, if_true, State.opened_refuse_done]
    · simp only [off, Bool.false_eq_true, if_false, checkEntry_of_none bad, State.opened_refuse_done]
    · simp only [off, Bool.false_eq_true, if_false, checkEntry_of_short judged short, State.opened_refuse_done]
    · have filled := Plan.fillFrom_filled n p (decide (direction ≠ 0)) x (fillCount p count.toNat) 0 s.plan
        (by simp only [fillCount]; omega)
      refine ⟨_, _, ?_, filled.total_pos (fillCount_pos p _), ?_, ?_, ?_, ?_, ?_, filled.frame.enabled, filled.frame.order,
        filled.frame.background, filled.resolve_eq off⟩
      · simp only [off, Bool.false_eq_true, if_false, checkEntry_of_fits judged fits, State.opened_setPlan_accept_done, byte]
      · simpa [fillCount, clamp] using filled.le_most
      · intro k hk
        have := filled.fits k (Nat.zero_le k) hk
        simpa [stepFits] using this
      · intro hk
        have := filled.stops (by simpa [fillCount, clamp] using hk)
        simpa [stepFits] using this
      · intro k h hk
        rw [filled.written k h (Nat.zero_le k) hk]
        simp [PlanEntry.stepped, stepNum, byte]
      · intro l o out
        exact filled.kept l o out

/-! ### Resolution and layers (R48, R49) -/

/-- Settles O21: resolution is the first layer of the order that has a say at the port, else the background. -/
theorem resolutionTakesHighestEnabledLayer : Obligations.ResolutionTakesHighestEnabledLayer := by
  refine fun q p => ⟨fun above n below order silent on kind => ?_, fun silent => ?_, fun background => ?_⟩
  · have found : q.order.find? (q.speaks p) = some n := by
      rw [List.find?_eq_some_iff_append]
      refine ⟨by simp [Plan.speaks, on, kind], above, below, order, fun m hm => ?_⟩
      simpa using Plan.speaks_eq_false_iff.2 (silent m hm)
    rw [Plan.resolve_of_find found]
    exact ⟨rfl, by cases n <;> rfl⟩
  · have silence : q.order.find? (q.speaks p) = none :=
      List.find?_eq_none.2 fun m hm => by simpa using Plan.speaks_eq_false_iff.2 (silent m hm)
    rw [Plan.resolve_of_find_none silence]
    exact ⟨rfl, rfl⟩
  · cases found : q.order.find? (q.speaks p) with
    | none => rwa [Plan.resolve_of_find_none found]
    | some n =>
      rw [Plan.resolve_of_find found]
      have speaks := List.find?_some found
      simp only [Plan.speaks, Bool.and_eq_true, decide_eq_true_eq] at speaks
      exact speaks.2

/-- Settles O22: the body is read as `judgeLayers_eq_some_iff` says, and the drift check leaves the ports alone. -/
theorem layerSetReplacesFlagsAndOrder : Obligations.LayerSetReplacesFlagsAndOrder := by
  refine fun r s => ⟨fun bad => ?_, fun a b c x y z ha hb hc hx hy hz hxy hxz hyz => ⟨?_, State.driftCheck_ports _⟩⟩
  · simp [exec_layerSet, execLayerSet, judgeLayers_eq_none bad, State.opened_refuse_done]
  · have judged : judgeLayers r = some ((a, b, c), [x, y, z]) :=
      judgeLayers_eq_some_iff.2 ⟨a, b, c, x, y, z, by rw [← ha, ← hb, ← hc, ← hx, ← hy, ← hz], by simp [hxy, hxz, hyz], rfl⟩
    simp only [exec_layerSet, execLayerSet, judged, State.opened_driftCheck_accept_done]
    rfl

/-! ### Drift (R53, R54) -/

/-- Settles O23: what `State.driftReport` posts for a port is what R54 says. -/
theorem driftCheckReportsEachPortOnce : Obligations.DriftCheckReportsEachPortOnce := by
  intro s wrong
  have same : s.driftReport = wrong := by
    funext p
    cases old : (s.port p).snapshot with
    | none => simp [wrong, State.driftReport, driftDetail, old]
    | some o =>
      simp only [wrong, State.driftReport, driftDetail, old, Option.bind_some, driftDarkness_eq, driftLaneCount_eq,
        driftNeighbour_eq, Bool.and_eq_true, PortState.drifts_iff, apply_ite (Option.map _), Option.map_some, Option.map_none]
  rw [State.driftCheck_eq, same]

end Sys2Proof.Machine
end

section
/-! SUPPORT. Which counters a COUNTER_WRITE names (R164, R195), when the write of one is refused and what it leaves (R165). -/

namespace Sys2Proof.Machine

/-! ### The scope and index of a request (R164, R195) -/

theorem portOf_eq_some_iff {b : Byte} {p : PortIx} : portOf b = some p ↔ b.toNat = p.val := by
  simp [portOf, Fin.ext_iff, and_iff_right_of_imp (fun h : b.toNat = p.val => h ▸ p.isLt)]

theorem laneOf_eq_some_iff {b : Byte} {l : LanePos} : laneOf b = some l ↔ b.toNat = l.val := by
  simp [laneOf, Fin.ext_iff, and_iff_right_of_imp (fun h : b.toNat = l.val => h ▸ l.isLt)]

theorem portLaneOf_eq_some_iff {port lane : Byte} {p : PortIx} {l : LanePos} :
    portLaneOf port lane = some (p, l) ↔ port.toNat = p.val ∧ lane.toNat = l.val := by
  simp [portLaneOf, Option.bind_eq_some_iff, portOf_eq_some_iff, laneOf_eq_some_iff]

variable {scope port lane : Byte}

theorem scopeOf_eq_lane_iff {p : PortIx} {l : LanePos} :
    scopeOf scope port lane = some (.lane p l) ↔ scope = 0 ∧ port.toNat = p.val ∧ lane.toNat = l.val := by
  by_cases zero : scope = 0
  · simp [scopeOf, zero, ← portLaneOf_eq_some_iff]
  · simp only [scopeOf, zero, if_false]
    split_ifs <;> simp

theorem scopeOf_eq_port_iff {p : PortIx} :
    scopeOf scope port lane = some (.port p) ↔ scope = 1 ∧ port.toNat = p.val := by
  by_cases one : scope = 1
  · simp [scopeOf, one, ← portOf_eq_some_iff]
  · simp only [scopeOf, one, if_false]
    split_ifs <;> simp

theorem scopeOf_eq_management_iff : scopeOf scope port lane = some .management ↔ scope = 2 := by
  by_cases two : scope = 2
  · simp [scopeOf, two]
  · simp only [scopeOf, two, if_false]
    split_ifs <;> simp

/-! ### One counter written (R165) -/

/-- Two changes of one lane engine are one change. -/
theorem State.modLane_modLane (s : State) (p : PortIx) (l : LanePos) (f g : Lane → Lane) :
    (s.modLane p l f).modLane p l g = s.modLane p l fun y => g (f y) := by
  simp [State.modLane, State.modPort, State.setPort, State.port, Port.modLane, Port.setLane, Port.lane]

variable {s : State} {p : PortIx} {l : LanePos} {n : Byte} {v : Nat}

theorem State.writeCounter_lane {i : Fin 7} (hn : n.toNat = i.val) (hv : v ≤ laneCounterMax i) :
    s.writeCounter (.lane p l) n v = some (s.modLane p l fun y =>
      { y with counters := if i = ctrPrbsErr then (y.counters.set i (.write v)).set ctrPrbsBlocks (.write 0)
                           else y.counters.set i (.write v) }) := by
  have known : n.toNat < 7 := hn ▸ i.isLt
  obtain rfl : (⟨n.toNat, known⟩ : Fin 7) = i := Fin.ext hn
  simp only [State.writeCounter, known, dite_true, Nat.not_lt.2 hv, if_false, State.modLane_modLane]
  split_ifs <;> rfl

theorem State.writeCounter_port {i : Fin 3} (hn : n.toNat = i.val) (hv : v ≤ 65535) :
    s.writeCounter (.port p) n v = some (s.modPort p fun x => { x with counters := x.counters.set i (.write v) }) := by
  have known : n.toNat < 3 := hn ▸ i.isLt
  obtain rfl : (⟨n.toNat, known⟩ : Fin 3) = i := Fin.ext hn
  simp only [State.writeCounter, shortCounterMax, known, dite_true, Nat.not_lt.2 hv, if_false]

theorem State.writeCounter_management {i : Fin 2} (hn : n.toNat = i.val) (hv : v ≤ 65535) :
    s.writeCounter .management n v = some (s.setMpt { s.mpt with counters := s.mpt.counters.set i (.write v) }) := by
  have known : n.toNat < 2 := hn ▸ i.isLt
  obtain rfl : (⟨n.toNat, known⟩ : Fin 2) = i := Fin.ext hn
  simp only [State.writeCounter, shortCounterMax, known, dite_true, Nat.not_lt.2 hv, if_false]

/-- The 16-bit lane counters are BEACON_BAD, ERR_PERIODS and LOCK_LOSS; no word is above the maximum of the others (R161). -/
theorem le_laneCounterMax_iff {i : Fin 7} {value : Word} :
    value.toNat ≤ laneCounterMax i ↔ (i = 1 ∨ i = 5 ∨ i = 6 → value.toNat ≤ 65535) := by
  have word := value.isLt
  fin_cases i <;> simp [laneCounterMax] <;> omega

theorem State.writeCounter_lane_eq_none {value : Word}
    (bad : 7 ≤ n.toNat ∨ (n = 1 ∨ n = 5 ∨ n = 6) ∧ 65535 < value.toNat) : s.writeCounter (.lane p l) n value.toNat = none := by
  by_cases known : n.toNat < 7
  · have above : laneCounterMax ⟨n.toNat, known⟩ < value.toNat := by
      obtain ⟨rfl | rfl | rfl, large⟩ := bad.resolve_left (Nat.not_le.2 known) <;> exact large
    simp [State.writeCounter, known, above]
  · simp [State.writeCounter, known]

theorem State.writeCounter_port_eq_none (bad : 3 ≤ n.toNat ∨ 65535 < v) : s.writeCounter (.port p) n v = none := by
  rcases bad with unknown | above
  · simp [State.writeCounter, Nat.not_lt.2 unknown]
  · simp [State.writeCounter, shortCounterMax, above]

theorem State.writeCounter_management_eq_none (bad : 2 ≤ n.toNat ∨ 65535 < v) : s.writeCounter .management n v = none := by
  rcases bad with unknown | above
  · simp [State.writeCounter, Nat.not_lt.2 unknown]
  · simp [State.writeCounter, shortCounterMax, above]

/-- The write neither reads nor changes the reports kept back. -/
theorem State.writeCounter_opened (s : State) (k : Scope) (n : Byte) (v : Nat) :
    s.opened.writeCounter k n v = (s.writeCounter k n v).map State.opened := by
  cases k <;> simp only [State.writeCounter] <;> split_ifs <;> rfl

@[simp] theorem State.opened_scopeBytes (s : State) (k : Scope) : s.opened.scopeBytes k = s.scopeBytes k := by
  cases k <;> rfl

/-! ### The request judged and answered (R165, R174) -/

theorem exec_counterWrite (scope port lane counter : Byte) (value : Word) (s : State) :
    exec (.counterWrite scope port lane counter value) s = execCounterWrite scope port lane counter value s := rfl

variable {counter : Byte} {value : Word}

theorem exec_counterWrite_refused
    (bad : ∀ k, scopeOf scope port lane = some k → s.writeCounter k counter value.toNat = none) :
    exec (.counterWrite scope port lane counter value) s =
      .next (s.replied (.counterWrite scope port lane counter value) .badArgument []) := by
  rw [exec_counterWrite, execCounterWrite, ← State.opened_refuse_done]
  cases named : scopeOf scope port lane with
  | none => rfl
  | some k => simp only [State.writeCounter_opened, bad k named, Option.map_none]

theorem exec_counterWrite_taken {k : Scope} {u : State} (named : scopeOf scope port lane = some k)
    (written : s.writeCounter k counter value.toNat = some u) :
    exec (.counterWrite scope port lane counter value) s =
      .next (u.replied (.counterWrite scope port lane counter value) .ok (u.scopeBytes k)) := by
  simp only [exec_counterWrite, execCounterWrite, named, State.writeCounter_opened, written, Option.map_some,
    State.opened_scopeBytes]
  exact State.answer_done rfl _ .ok _

end Sys2Proof.Machine
end

section
/-! SUPPORT. The statements about counters and intervals, settled. -/

namespace Sys2Proof.Machine

/-- Settles O26: the write is refused where the request names no scope or the scope's counter does not take the value; else it is
`State.writeCounter` of the scope named. -/
theorem counterWriteSetsLiveAndSnapshot : Obligations.CounterWriteSetsLiveAndSnapshot := by
  refine fun scope port lane counter value s => ⟨fun bad => exec_counterWrite_refused fun k named => ?_, ?_, ?_, ?_⟩
  · cases k with
    | lane p l =>
      obtain ⟨rfl, hp, hl⟩ := scopeOf_eq_lane_iff.1 named
      exact State.writeCounter_lane_eq_none (by simpa [hp, hl, Nat.not_le.2 p.isLt, Nat.not_le.2 l.isLt] using bad)
    | port p =>
      obtain ⟨rfl, hp⟩ := scopeOf_eq_port_iff.1 named
      exact State.writeCounter_port_eq_none (by simpa [hp, Nat.not_le.2 p.isLt] using bad)
    | management =>
      obtain rfl := scopeOf_eq_management_iff.1 named
      exact State.writeCounter_management_eq_none (by simpa using bad)
  · exact fun p l n hs hp hl hn hv =>
      exec_counterWrite_taken (scopeOf_eq_lane_iff.2 ⟨hs, hp, hl⟩) (State.writeCounter_lane hn (le_laneCounterMax_iff.2 hv))
  · exact fun p n hs hp hn hv =>
      exec_counterWrite_taken (scopeOf_eq_port_iff.2 ⟨hs, hp⟩) (State.writeCounter_port hn hv)
  · exact fun n hs hn hv =>
      exec_counterWrite_taken (scopeOf_eq_management_iff.2 hs) (State.writeCounter_management hn hv)

end Sys2Proof.Machine
end

section
/-! SUPPORT. The management line taken apart: a count in a management counter (R162, R163), a frame error (R171), and which received
bytes and expiries are one (R170, R171, R180). -/

namespace Sys2Proof.Machine

variable {b : Byte} {s : State}

/-! ### Counting and frame errors -/

/-- A count changes the counter and keeps back at most its own report: none where the counter does not saturate (R163). -/
theorem State.countMpt_eq (s : State) (i : Fin 2) :
    ∃ rs, (s.mpt.counters[i].saturates shortCounterMax 1 = false → rs = []) ∧
      s.countMpt i =
        { s with
          mpt := { s.mpt with counters := s.mpt.counters.set i (s.mpt.counters[i].bump shortCounterMax 1) }
          deferred := s.deferred ++ rs } := by
  unfold State.countMpt
  dsimp only
  split
  next saturated => exact ⟨_, fun clear => absurd (clear.symm.trans saturated) Bool.false_ne_true, rfl⟩
  next => exact ⟨[], fun _ => rfl, by rw [List.append_nil]; rfl⟩

/-- A frame error that begins a command: the assembler hunts, FRAMES_BAD has counted, its report may be kept back, and nothing else has
changed (R171). -/
theorem State.opened_frameError_eq (s : State) :
    ∃ rs, (s.mpt.counters[ctrFramesBad].saturates shortCounterMax 1 = false → rs = []) ∧
      s.opened.frameError =
        { s with
          mpt := { s.mpt with
            asm := .hunting
            counters := s.mpt.counters.set ctrFramesBad (s.mpt.counters[ctrFramesBad].bump shortCounterMax 1) }
          deferred := rs } :=
  (s.opened.setMpt { s.mpt with asm := .hunting }).countMpt_eq ctrFramesBad

/-! ### Bytes that are frame errors -/

/-- The length byte is outside 2 to 250. -/
theorem State.receiveByte_badLength (phase : s.mpt.asm.phase = .length) (bad : ¬(2 ≤ b.toNat ∧ b.toNat ≤ 250)) :
    s.receiveByte b = s.frameError := by
  simp only [State.receiveByte, phase, if_neg bad]

/-- The second check byte completes a frame whose check is wrong. -/
theorem State.receiveByte_badCheck (phase : s.mpt.asm.phase = .check) (last : s.mpt.asm.length + 1 ≤ s.mpt.asm.bytes.length)
    (bad : (s.mpt.asm.bytes ++ [b]).drop s.mpt.asm.length ≠
      checkBytes (byte s.mpt.asm.length :: (s.mpt.asm.bytes ++ [b]).take s.mpt.asm.length)) :
    s.receiveByte b = s.frameError := by
  have complete : ¬(s.mpt.asm.bytes.length + 1 < s.mpt.asm.length + 2) := by omega
  simp only [State.receiveByte, phase, if_neg complete, State.judgeFrame, if_neg bad, State.frameError]

/-! ### What each command of the line runs -/

theorem Mpt.restarting_eq_false_iff {m : Mpt} : m.restarting = false ↔ ∀ e ∈ m.buffer, e.restarts = false := by
  simp [Mpt.restarting]

theorem Assembler.lastByte_eq_true_iff {a : Assembler} : a.lastByte = true ↔ a.phase = .check ∧ a.length + 1 ≤ a.bytes.length :=
  decide_eq_true_iff

theorem exec_managementByteReceived (up : ∀ e ∈ s.mpt.buffer, e.restarts = false) :
    exec (.managementByteReceived b) s = (s.opened.receiveByte b).done :=
  congrArg State.done (if_neg (by rw [Mpt.restarting_eq_false_iff.2 up]; exact Bool.false_ne_true))

theorem exec_frameComplete (up : ∀ e ∈ s.mpt.buffer, e.restarts = false) (phase : s.mpt.asm.phase = .check)
    (last : s.mpt.asm.length + 1 ≤ s.mpt.asm.bytes.length) :
    exec (.frameComplete b) s = (s.opened.receiveByte b).done :=
  congrArg State.done (if_pos ⟨Assembler.lastByte_eq_true_iff.2 ⟨phase, last⟩, Mpt.restarting_eq_false_iff.2 up⟩)

theorem exec_gapTimerExpiry (phase : s.mpt.asm.phase ≠ .hunt) : exec .gapTimerExpiry s = s.opened.frameError.done :=
  congrArg State.done (if_neg phase)

end Sys2Proof.Machine
end

section
/-! SUPPORT. The statements about the management line, settled. -/

namespace Sys2Proof.Machine

/-- Settles O8: each of the three runs `State.frameError`, and the end of the command posts at most the report that its count kept
back. -/
theorem frameErrorsCountAndHunt : Obligations.FrameErrorsCountAndHunt := by
  intro c s error
  have runs : exec c s = s.opened.frameError.done := by
    rcases error with ⟨b, rfl, up, phase, bad⟩ | ⟨b, up, rfl | rfl, phase, last, bad⟩ | ⟨rfl, phase⟩
    · rw [exec_managementByteReceived up, State.receiveByte_badLength (s := s.opened) phase bad]
    · rw [exec_managementByteReceived up, State.receiveByte_badCheck (s := s.opened) phase last bad]
    · rw [exec_frameComplete up phase last, State.receiveByte_badCheck (s := s.opened) phase last bad]
    · exact exec_gapTimerExpiry phase
  obtain ⟨rs, quiet, changed⟩ := s.opened_frameError_eq
  refine ⟨s.opened.frameError.closed, runs, ?_⟩
  simp only [State.closed_mpt, State.closed_ports, State.closed_plan, State.closed_esu, State.closed_time, State.closed_settings,
    State.closed_identity, State.closed_countdown, State.closed_pending, State.closed_reports, changed, true_and]
  refine ⟨rfl, fun clear => ?_⟩
  rw [quiet clear, ReportList.enterAll, List.foldl_nil]

end Sys2Proof.Machine
end

section
/-! SUPPORT. How every command ends (R187), and the cases of a report that reaches the list, one equation each (R182, R183, R184). -/

namespace Sys2Proof.Machine

/-! ### The end of a command (R187) -/

/-- Every command completes, and its last act is `State.done`, which lets the attention pin follow list and setting. -/
theorem exec_eq_done (c : Instr) (s : State) : ∃ u : State, exec c s = u.done := by
  cases c <;> exact ⟨_, rfl⟩

theorem State.attention_eq_true_iff {s : State} :
    s.attention = true ↔ s.reports.records ≠ [] ∧ s.settings.attention = true := by
  simp [State.attention, and_comm]

/-! ### One record of a list changed -/

theorem map_eq_of_fixed_around {α : Type} {f : α → α} {before after : List α} {x : α} (hb : ∀ y ∈ before, f y = y)
    (ha : ∀ y ∈ after, f y = y) : (before ++ x :: after).map f = before ++ f x :: after := by
  have fixed : ∀ {ys : List α}, (∀ y ∈ ys, f y = y) → ys.map f = ys := fun h =>
    (List.map_congr_left h).trans (List.map_id _)
  rw [List.map_append, List.map_cons, fixed hb, fixed ha]

/-- A count that stops at a maximum, in the words of R183 and R184. -/
theorem min_succ_eq_ite (n m : Nat) : min (n + 1) m = if n < m then n + 1 else m := Nat.min_def

theorem Record.addLoss_of_detail {x : Record} {n : Nat} {k : ReportKind} {p : Option PortIx} {q : Option LanePos}
    (h : x.report.detail = .listOverflow n k p q) (r : Report) :
    x.addLoss r = { x with report := overflowReport (min (n + 1) 65535) r } := by
  simp only [Record.addLoss, h]

theorem Record.not_ordinary_of_detail {x : Record} {n : Nat} {k : ReportKind} {p : Option PortIx} {q : Option LanePos}
    (h : x.report.detail = .listOverflow n k p q) : x.ordinary = false := by
  simp [Record.ordinary, Report.kind, Detail.kind, h]

/-- Only an ordinary record has the key of a report that is not itself a LIST_OVERFLOW. -/
theorem Record.ordinary_and_sameKey (x : Record) {r : Report} (hr : r.kind ≠ .listOverflow) :
    (x.ordinary && x.report.sameKey r) = x.report.sameKey r := by
  cases same : x.report.sameKey r with
  | false => exact Bool.and_false _
  | true =>
    have kind : x.report.kind = r.kind := ((Report.sameKey_iff _ _).1 same).1
    rw [Bool.and_true, Record.ordinary_iff, kind]
    exact hr

/-! ### A report that reaches the list -/

variable {l : ReportList} {clock : Word} {r : Report} {before after : List Record} {x : Record}

theorem ReportList.enter_of_masked (masked : l.masked r.kind = true) : l.enter clock r = l := if_pos masked

/-- The record of the report's key, where the list holds one, takes the report in (R183). -/
theorem ReportList.enter_of_sameKey (hr : r.kind ≠ .listOverflow) (passes : l.masked r.kind = false)
    (split : l.records = before ++ x :: after) (same : x.report.sameKey r = true)
    (hb : ∀ y ∈ before, y.report.sameKey r = false) (ha : ∀ y ∈ after, y.report.sameKey r = false) :
    l.enter clock r = { l with records := before ++ x.absorb r :: after } := by
  have held : l.records.any (fun y => y.report.sameKey r) = true :=
    List.any_eq_true.2 ⟨x, split ▸ List.mem_append_cons_self, same⟩
  simp only [ReportList.enter, Record.ordinary_and_sameKey _ hr, passes, held, Bool.false_eq_true, if_false, if_true]
  rw [split, map_eq_of_fixed_around (fun y hy => if_neg (by simp [hb y hy])) (fun y hy => if_neg (by simp [ha y hy])), if_pos same]

/-- A report whose key no record has needs room (R184). -/
theorem ReportList.enter_of_new (passes : l.masked r.kind = false) (new : ∀ y ∈ l.records, y.report.sameKey r = false) :
    l.enter clock r = if (l.records.filter Record.ordinary).length < 63
      then { l with records := l.records ++ [{ report := r, time := clock, count := 1 }] } else l.lose clock r := by
  have fresh : l.records.any (fun y => y.ordinary && y.report.sameKey r) = false :=
    List.any_eq_false.2 fun y hy => by simp [new y hy]
  simp only [ReportList.enter, passes, fresh, Bool.false_eq_true, if_false]

/-! ### A report lost for want of room (R184) -/

theorem ReportList.lose_of_masked (masked : l.masked .listOverflow = true) : l.lose clock r = l := if_pos masked

theorem ReportList.lose_of_first (passes : l.masked .listOverflow = false) (first : l.records.all Record.ordinary = true) :
    l.lose clock r = { l with records := l.records ++ [{ report := overflowReport 1 r, time := clock, count := 1 }] } := by
  simp only [ReportList.lose, passes, first, Bool.false_eq_true, if_false, if_true]

theorem ReportList.lose_of_held (passes : l.masked .listOverflow = false) (split : l.records = before ++ x :: after)
    (held : x.ordinary = false) (hb : ∀ y ∈ before, y.ordinary = true) (ha : ∀ y ∈ after, y.ordinary = true) :
    l.lose clock r = { l with records := before ++ x.addLoss r :: after } := by
  have overflowed : l.records.all Record.ordinary = false :=
    List.all_eq_false.2 ⟨x, split ▸ List.mem_append_cons_self, by simp [held]⟩
  have kept : ∀ y : Record, y.ordinary = true → y.addLoss r = y := fun y hy => y.addLoss_key r (y.ordinary_iff.1 hy)
  simp only [ReportList.lose, passes, overflowed, Bool.false_eq_true, if_false]
  rw [split, map_eq_of_fixed_around (fun y hy => kept y (hb y hy)) fun y hy => kept y (ha y hy)]

end Sys2Proof.Machine
end

section
/-! SUPPORT. The statements about the report list, settled. -/

namespace Sys2Proof.Machine

/-- Settles O2: the pin is set by `State.done`, with which every command ends, and nothing comes after it. -/
theorem attentionPinFollowsReportList : Obligations.AttentionPinFollowsReportList := by
  intro c s
  obtain ⟨u, ends⟩ := exec_eq_done c s
  refine ⟨u.closed, ends, ?_⟩
  rw [State.closed_attn, State.attention_eq_true_iff]

/-- Settles O28: one equation of `ReportList.enter`, and of `ReportList.lose` where there is no room, for each of its cases. -/
theorem reportsCoalesceAppendOrOverflow : Obligations.ReportsCoalesceAppendOrOverflow := by
  intro l clock r hr same ordinary lost
  have others : ∀ {ys : List Record}, ys.all (fun y => !same y) = true → ∀ y ∈ ys, y.report.sameKey r = false :=
    fun h y hy => Bool.eq_false_of_not_eq_true' (List.all_eq_true.1 h y hy)
  refine ⟨ReportList.enter_of_masked, fun passes => ⟨?_, ?_, ?_⟩⟩
  · intro before x after split key hb ha
    rw [ReportList.enter_of_sameKey hr passes split key (others hb) (others ha), Record.absorb, min_succ_eq_ite]
  · intro new room
    exact (ReportList.enter_of_new passes (others new)).trans (if_pos room)
  · intro new full
    have loses : l.enter clock r = l.lose clock r :=
      (ReportList.enter_of_new passes (others new)).trans (if_neg (Nat.not_lt.2 full))
    rw [loses]
    refine ⟨ReportList.lose_of_masked, fun shown => ⟨ReportList.lose_of_first shown, ?_⟩⟩
    intro before x after n k p q split hb ha detail
    rw [ReportList.lose_of_held shown split (Record.not_ordinary_of_detail detail) (List.all_eq_true.1 hb) (List.all_eq_true.1 ha),
      Record.addLoss_of_detail detail, min_succ_eq_ite]
    rfl

end Sys2Proof.Machine
end


section
/-! SUPPORT. What a command can do, said once: every command runs a chain of operations on the state it opens, and then ends (`exec_runs`).
The statements about every step are proved by going through these operations (`PortAct`, `Act`). -/

namespace Sys2Proof

/-- The commands that write or clear counters of ports and lanes (R165, R169, R105). -/
def Instr.writesCounters : Instr → Bool
  | .counterWrite .. | .portBlockReset _ | .allPortsBlockReset | .countersBlockReset => true
  | _ => false

/-- The commands that write the plan (R43 to R48, R55). -/
def Instr.WritesPlan (c : Instr) : Prop :=
  (∃ a b e, c = .planWrite a b e) ∨ (∃ e, c = .backgroundWrite e) ∨ (∃ a b n d e, c = .planFill a b n d e) ∨
    (∃ r, c = .layerSet r) ∨ c = .planBlockReset

/-- The commands after which the part has reset: RESTART, and the end of its reply (R180, log entry 2). -/
def Instr.Restarts (c : Instr) (o : Machine.State) : Prop := c = .restart ∨ c = .replySent ∧ ∃ e ∈ o.mpt.buffer.head?, e.restarts = true

end Sys2Proof

namespace Sys2Proof.Machine

/-! ### The operations -/

/-- The operations of commands on ports, lanes, the ESU and the report list. Those that write or clear counters need `w`. -/
inductive PortAct (w : Bool) (s : State) : State → Prop
  | started (p : PortIx) (m : Mode) : PortAct w s (s.modPort p (·.started m))
  | autoMode (p : PortIx) : PortAct w s (s.modPort p fun x => { x with mode := .auto })
  | startInto (p : PortIx) (m : Mode) : PortAct w s (s.startInto p m)
  | stepInto (p : PortIx) (g : Option PendingStage) : PortAct w s (s.stepInto p g)
  | stop (p : PortIx) : PortAct w s (s.stopPort p)
  | reset (p : PortIx) (h : w = true) : PortAct w s (s.resetPort p)
  | afterAbort (z : PortState) : PortAct w s (s.afterAbort z)
  | grantTest : PortAct w s s.grantTest
  | takeAnswer (p : PortIx) (a : Bool) : PortAct w s (s.takeAnswer p a)
  | storeControl (p : PortIx) (l : LanePos) (c : Control) : PortAct w s (s.storeControl p l c)
  | inject (p : PortIx) (l : LanePos) (i : Option Injection) : PortAct w s (s.modLane p l fun y => { y with injection := i })
  | writeLane (p : PortIx) (l : LanePos) (i : Fin 7) (v : Nat) (h : w = true) (k : v ≤ laneCounterMax i) :
      PortAct w s (s.modLane p l fun y => { y with counters := y.counters.set i (.write v) })
  | writePort (p : PortIx) (i : Fin 3) (v : Nat) (h : w = true) (k : v ≤ shortCounterMax) :
      PortAct w s (s.modPort p fun x => { x with counters := x.counters.set i (.write v) })
  | driftCheck : PortAct w s s.driftCheck
  | loopBack (p : PortIx) (l : LanePos) (bs : List Byte) : PortAct w s (s.loopBack p l bs)
  | receive (p : PortIx) (l : LanePos) (k : Classed) : PortAct w s (s.receive p l k)
  | silence (p : PortIx) (l : LanePos) : PortAct w s (s.silence p l)
  | discoveryExpiry (p : PortIx) : PortAct w s (s.discoveryExpiry p)
  | fault (p : PortIx) (r : FaultReason) : PortAct w s (s.enterFaulted p r)
  | figure (p : PortIx) (l : LanePos) (n : Nat) (g : Byte) : PortAct w s (s.sweepFigure p l n g)
  | sendBeacon (p : PortIx) (l : LanePos) (me : LocalId) : PortAct w s (s.sendBeacon p l me)
  | blockBegun (p : PortIx) (l : LanePos) : PortAct w s (s.modPort p (·.blockBegun l))
  | watchdog (c : ChanIx) : PortAct w s (s.watchdog c)
  | setLock (p : PortIx) (l : LanePos) (k : PatternLock) : PortAct w s (s.setLock p l k)
  | useFree : PortAct w s s.useFree
  | countBlock (p : PortIx) (l : LanePos) (n : Nat) : PortAct w s (s.countBlock p l n)
  | countLane (p : PortIx) (l : LanePos) (i : Fin 7) (n : Nat) : PortAct w s (s.countLane p l i n)
  | symbolError (p : PortIx) (l : LanePos) : PortAct w s (s.modLane p l fun y => { y with monitor := y.monitor.addError })
  | startHunt (p : PortIx) (l : LanePos) :
      PortAct w s (s.modLane p l fun y => if y.monitor.hunt = none then y.startHunt else y)
  | endHunt (p : PortIx) (l : LanePos) : PortAct w s (s.modLane p l Lane.endHunt)
  | lockBlip (p : PortIx) (l : LanePos) (n : Nat) : PortAct w s (s.postLane p l (.lockBlip n))
  | linkLost (p : PortIx) (l : LanePos) (h : Hunt) : PortAct w s (s.linkLost p l h)
  | judgePeriod (p : PortIx) (l : LanePos) : PortAct w s (s.judgePeriod p l)
  | takeTriggers (n : Nat) (ks : List (PortIx × LanePos)) : PortAct w s (State.takeTriggers n ks s)
  | cleanRun (p : PortIx) : PortAct w s (s.modPort p fun x => { x with unstable := 0, cleanRun := none })

/-- One operation of a command `c` that began in the state `o`. -/
inductive Act (c : Instr) (o s : State) : State → Prop
  | ports {t : State} (h : PortAct c.writesCounters s t) : Act c o s t
  | power (rate : LineRate) (h : (∃ a b, c = .powerOn a b) ∨ ∃ a b, c = .pinReset a b) : Act c o s (s.powered rate)
  | restart (h : c.Restarts o) : Act c o s s.restarted
  | setIdentity (x : LocalId) (h : ∃ a b, c = .setIdentity a b) : Act c o s (s.setIdentity x)
  | putSettings (g : Settings) (h : ∃ r, c = .settingsWrite r ∧ judgeSettings r = some g) : Act c o s (s.putSettings g)
  | setPlan (q : Plan) (h : c.WritesPlan) (k : s.plan.legal → q.legal) : Act c o s (s.setPlan q)
  | esuReset (h : c = .esuBlockReset) : Act c o s s.esuReset
  | tick (h : c = .monitorPeriodEnd) : Act c o s s.tick
  | boundary (h : c = .intervalBoundary) : Act c o s s.boundary
  | answer (i : Instr) (st : Status) (body : List Byte) : Act c o s (s.answer i st body)
  | sent : Act c o s (s.setMpt s.mpt.sent)
  | receiveByte (b : Byte) : Act c o s (s.receiveByte b)
  | frameError : Act c o s s.frameError
  | writeMpt (i : Fin 2) (v : Nat) (h : c.writesCounters = true) (k : v ≤ shortCounterMax) :
      Act c o s (s.setMpt { s.mpt with counters := s.mpt.counters.set i (.write v) })
  | clearCounters (h : c.writesCounters = true) : Act c o s s.clearCounters
  | dropReports (k : Nat) : Act c o s (s.setReports { s.reports with records := s.reports.records.drop k })
  | setMask (m : Vector Bool 21) : Act c o s (s.setReports { s.reports with mask := m })
  | clearReports : Act c o s (s.setReports .reset)

/-- The operations of a command, one after another. -/
abbrev Acts (c : Instr) (o : State) : State → State → Prop := Relation.ReflTransGen (Act c o)

/-! ### Chains of operations -/

variable {c : Instr} {o s t u : State}

theorem Acts.port (h : Acts c o s t) (k : PortAct c.writesCounters t u) : Acts c o s u := h.tail (.ports k)

/-- A request's answer, after what its owner has done. -/
theorem Acts.answered (h : Acts c o s t) (i : Instr) (st : Status) (body : List Byte) : Acts c o s (t.answer i st body) :=
  h.tail (.answer i st body)

theorem Acts.refused (i : Instr) (st : Status) : Acts c o s (s.refuse i st) := Acts.answered .refl i st []

theorem Acts.accepted (h : Acts c o s t) (i : Instr) (body : List Byte) : Acts c o s (t.accept i body) := h.answered i .ok body

theorem Acts.foldl {α : Type} {f : State → α → State} (xs : List α) (k : ∀ t a, Acts c o t (f t a)) (h : Acts c o s t) :
    Acts c o s (xs.foldl f t) := by
  induction xs generalizing t with
  | nil => exact h
  | cons a xs ih => exact ih (h.trans (k t a))

/-! ### Plans that stay legal (R37, R40 to R42) -/

theorem chassisOf_ne_zero (w : Word) : chassisOf w ≠ some 0 := by
  by_cases h : w = 0 <;> simp [chassisOf, h]

theorem gradeOf_range {b : Byte} {g : Nat} (h : gradeOf b = some g) : 1 ≤ g ∧ g ≤ 71 := by
  simp only [gradeOf, Option.ite_none_right_eq_some, Option.some.injEq] at h
  obtain ⟨range, rfl⟩ := h
  exact range

theorem windowOf_range {h : Half} {q : Nat} (k : windowOf h = some q) : 1 ≤ q ∧ q ≤ 65535 := by
  simp only [windowOf, Option.ite_none_left_eq_some, Option.some.injEq] at k
  obtain ⟨positive, rfl⟩ := k
  constructor
  · bv_omega
  · bv_omega

theorem labelOf_printable {a b : Option (List Byte)} (h : labelOf a = some b) :
    ∀ t, b = some t → t.length ≤ 16 ∧ ∀ c ∈ t, printable c := by
  rintro t rfl
  cases a with
  | none => simp [labelOf] at h
  | some x =>
    simp only [labelOf, Option.ite_none_right_eq_some, Option.some.injEq] at h
    obtain ⟨⟨short, plain⟩, rfl⟩ := h
    exact ⟨short, fun c hc => by simpa [printable] using List.all_eq_true.1 plain c hc⟩

/-- An entry that passes both checks is legal (R37, R39, R40). -/
theorem checkEntry_legal {e : RawEntry} {x : PlanEntry} (h : checkEntry e = .ok x) : x.legal := by
  unfold checkEntry at h
  split at h
  · cases h
  · rename_i y judged
    split at h
    · cases h
    · rename_i fits
      cases h
      simp only [judgeEntry, Option.bind_eq_bind, Option.bind_eq_some_iff, Option.pure_def, Option.some.injEq] at judged
      obtain ⟨kind, -, num, -, count, -, width, -, map, -, pol, -, ask, -, loop, -, grade, hg, window, hw, label, hl, rfl⟩ := judged
      refine ⟨chassisOf_ne_zero _, gradeOf_range hg, windowOf_range hw, labelOf_printable hl, fun kinds => ?_⟩
      exact Nat.le_of_not_lt fun short => fits (decide_eq_true ⟨kinds, short⟩)

theorem Plan.setEntry_legal {q : Plan} (h : q.legal) (n : LayerName) (p : PortIx) {e : PlanEntry} (k : e.legal) :
    (q.setEntry n p e).legal where
  entries m o := by
    rw [Plan.entry_setEntry]
    split
    · exact k
    · exact h.entries m o
  background := by rw [(q.setEntry_sameFrame n p e).background]; exact h.background
  order := by rw [(q.setEntry_sameFrame n p e).order]; exact h.order

/-- The expected port number of an entry is free. -/
theorem PlanEntry.legal.portNum {e : PlanEntry} (h : e.legal) (n : Option Byte) : PlanEntry.legal { e with portNum := n } :=
  ⟨h.chassis, h.grade, h.window, h.label, h.reach⟩

theorem Plan.fillFrom_legal {q : Plan} (h : q.legal) (n : LayerName) (first : PortIx) (mirror : Bool) {e : PlanEntry} (k : e.legal)
    (left j : Nat) : (q.fillFrom n first mirror e left j).1.legal := by
  induction left generalizing q j with
  | zero => exact h
  | succ left ih =>
    unfold Plan.fillFrom
    split
    · exact h
    · split
      · exact ih (Plan.setEntry_legal h n _ (k.portNum _)) _
      · exact h

theorem layerNames_perm {x y z : LayerName} (h : [x, y, z].Nodup) : [x, y, z].Perm [.base, .overlayA, .overlayB] := by
  revert h
  cases x <;> cases y <;> cases z <;> decide

theorem Plan.setLayers_legal {q : Plan} (h : q.legal) {r : RawLayers} {v : (Bool × Bool × Bool) × List LayerName}
    (judged : judgeLayers r = some v) : (q.setLayers v.1 v.2).legal where
  entries n p := by
    have same : (q.setLayers v.1 v.2).entry n p = q.entry n p := by cases n <;> rfl
    exact same ▸ h.entries n p
  background := h.background
  order := by
    obtain ⟨a, b, c, x, y, z, -, distinct, rfl⟩ := judgeLayers_eq_some_iff.1 judged
    exact layerNames_perm distinct

theorem PlanEntry.resetBackground_legal : PlanEntry.resetBackground.legal where
  chassis := nofun
  grade := by decide
  window := by decide
  label := nofun
  reach _ := by norm_num [PlanEntry.resetBackground]

theorem PlanEntry.resetEmpty_legal : PlanEntry.resetEmpty.legal where
  chassis := nofun
  grade := by decide
  window := by decide
  label := nofun
  reach := nofun

theorem Plan.reset_legal : Plan.reset.legal where
  entries n p := by
    have empty : Plan.reset.entry n p = .resetEmpty := by cases n <;> simp [Plan.reset, Plan.entry, Plan.layer, Layer.reset]
    exact empty ▸ PlanEntry.resetEmpty_legal
  background := ⟨PlanEntry.resetBackground_legal, nofun⟩
  order := by decide

/-! ### Every command as a chain -/

theorem State.writeBackground_acts {i : Instr} {e : RawEntry} (writes : c.WritesPlan) :
    Acts c o s (s.writeBackground i e) := by
  unfold State.writeBackground
  split
  · exact .refused i _
  · rename_i x judged
    split
    · exact .refused i _
    · rename_i kind
      have stored : Acts c o s (s.setPlan { s.plan with background := x }) :=
        .single (.setPlan _ writes fun h => ⟨h.entries, ⟨checkEntry_legal judged, kind⟩, h.order⟩)
      exact (stored.port .driftCheck).accepted i _

theorem State.writeCounter_acts {k : Scope} {n : Byte} {v : Nat} (writes : c.writesCounters = true)
    (h : s.writeCounter k n v = some t) : Acts c o s t := by
  cases k with
  | lane p l =>
    simp only [State.writeCounter] at h
    split at h
    · split at h
      · cases h
      · rename_i fits
        cases h
        have one := (Acts.port (c := c) (o := o) (s := s) .refl (.writeLane p l _ v writes (Nat.le_of_not_lt fits)))
        split
        · exact one.port (.writeLane p l ctrPrbsBlocks 0 writes (Nat.zero_le _))
        · exact one
    · cases h
  | port p =>
    simp only [State.writeCounter] at h
    split at h
    · rename_i known
      split at h
      · cases h
      · rename_i fits
        cases h
        exact .port .refl (.writePort p ⟨n.toNat, known⟩ v writes (Nat.le_of_not_lt fits))
    · cases h
  | management =>
    simp only [State.writeCounter] at h
    split at h
    · rename_i known
      split at h
      · cases h
      · rename_i fits
        cases h
        exact .single (.writeMpt ⟨n.toNat, known⟩ v writes (Nat.le_of_not_lt fits))
    · cases h

/-- Every command runs a chain of operations on the state it opens, and then ends. -/
theorem exec_runs (c : Instr) (s : State) : ∃ u, exec c s = u.done ∧ Acts c s s.opened u := by
  cases c with
  | powerOn a b => exact ⟨_, rfl, .single (.power _ (.inl ⟨a, b, rfl⟩))⟩
  | pinReset a b => exact ⟨_, rfl, .single (.power _ (.inr ⟨a, b, rfl⟩))⟩
  | frameComplete b =>
    refine ⟨_, rfl, ?_⟩
    split
    · exact .single (.receiveByte b)
    · exact .refl
  | gapTimerExpiry =>
    refine ⟨_, rfl, ?_⟩
    split
    · exact .refl
    · exact .single .frameError
  | replySent =>
    refine ⟨_, rfl, ?_⟩
    split
    · rename_i taken
      obtain ⟨e, head, restarts⟩ := (Option.any_eq_true _ _).1 taken
      exact .single (.restart (.inr ⟨rfl, e, head, restarts⟩))
    · exact .single .sent
  | unknownCode code =>
    refine ⟨_, rfl, ?_⟩
    split
    · exact .refl
    · exact .refused _ _
  | deviceInfo => exact ⟨_, rfl, .accepted .refl _ _⟩
  | setIdentity chassis base =>
    refine ⟨_, rfl, ?_⟩
    split
    · exact .refused _ _
    · split
      · exact .refused _ _
      · exact .accepted (.single (.setIdentity _ ⟨_, _, rfl⟩)) _ _
  | settingsWrite r =>
    refine ⟨_, rfl, ?_⟩
    split
    · exact .refused _ _
    · rename_i g judged
      exact .accepted (.single (.putSettings g ⟨r, rfl, judged⟩)) _ _
  | settingsRead => exact ⟨_, rfl, .accepted .refl _ _⟩
  | planWrite target port e =>
    have writes : Instr.WritesPlan (.planWrite target port e) := .inl ⟨_, _, _, rfl⟩
    refine ⟨_, rfl, ?_⟩
    split
    · exact State.writeBackground_acts writes
    · split
      · exact .refused _ _
      · split
        · exact .refused _ _
        · split
          · exact .refused _ _
          · rename_i x judged
            exact .accepted (.single (.setPlan _ writes fun h => Plan.setEntry_legal h _ _ (checkEntry_legal judged))) _ _
  | backgroundWrite e => exact ⟨_, rfl, State.writeBackground_acts (.inr (.inl ⟨_, rfl⟩))⟩
  | planFill layer first count direction e =>
    have writes : Instr.WritesPlan (.planFill layer first count direction e) := .inr (.inr (.inl ⟨_, _, _, _, _, rfl⟩))
    refine ⟨_, rfl, ?_⟩
    split
    · exact .refused _ _
    · split
      · exact .refused _ _
      · split
        · exact .refused _ _
        · rename_i x judged
          exact .accepted (.single (.setPlan _ writes fun h => Plan.fillFrom_legal h _ _ _ (checkEntry_legal judged) _ _)) _ _
  | planRead target port =>
    refine ⟨_, rfl, ?_⟩
    split
    · exact .refused _ _
    · exact .accepted .refl _ _
  | layerSet r =>
    have writes : Instr.WritesPlan (.layerSet r) := .inr (.inr (.inr (.inl ⟨_, rfl⟩)))
    refine ⟨_, rfl, ?_⟩
    split
    · exact .refused _ _
    · rename_i flags order judged
      have stored : Acts (.layerSet r) s s.opened (s.opened.setPlan (s.plan.setLayers flags order)) :=
        .single (.setPlan _ writes fun h => Plan.setLayers_legal h judged)
      exact (stored.port .driftCheck).accepted _ _
  | layerRead => exact ⟨_, rfl, .accepted .refl _ _⟩
  | resolve port =>
    refine ⟨_, rfl, ?_⟩
    split
    · exact .refused _ _
    · exact .accepted .refl _ _
  | portStart port mode =>
    refine ⟨_, rfl, ?_⟩
    split
    · exact .refused _ _
    · split
      · exact .refused _ _
      · split
        · exact .refused _ _
        · rename_i p m _ _ _
          exact (Acts.port (.port .refl (.started p m)) (.startInto p m)).accepted _ _
  | portStep port =>
    refine ⟨_, rfl, ?_⟩
    split
    · exact .refused _ _
    · rename_i p _
      split
      · exact .accepted (.port .refl (.stepInto p _)) _ _
      · split
        · exact .accepted (.port (.port .refl (.autoMode p)) (.stepInto p (some .peerWait))) _ _
        · exact .refused _ _
  | portStop port =>
    refine ⟨_, rfl, ?_⟩
    split
    · exact .refused _ _
    · rename_i p _
      exact .accepted (.port (.port .refl (.stop p)) (.afterAbort _)) _ _
  | portQuery port =>
    refine ⟨_, rfl, ?_⟩
    split
    · exact .refused _ _
    · exact .accepted .refl _ _
  | laneQuery port lane =>
    refine ⟨_, rfl, ?_⟩
    split
    · exact .refused _ _
    · dsimp only
      split
      · exact .accepted .refl _ _
      · exact .accepted (.port .refl .useFree) _ _
  | laneControl port lane r =>
    refine ⟨_, rfl, ?_⟩
    split
    · rename_i p l c _ _
      exact .accepted (.port .refl (.storeControl p l c)) _ _
    · exact .refused _ _
  | laneInject port lane kind count =>
    refine ⟨_, rfl, ?_⟩
    split
    · rename_i p l k _ _
      split
      · exact .refused _ _
      · split
        · exact .refused _ _
        · split
          · exact .refused _ _
          · exact .accepted (.port .refl (.inject p l _)) _ _
    · exact .refused _ _
  | consultAnswer port chassis portNum answer =>
    refine ⟨_, rfl, ?_⟩
    split
    · rename_i p acc _ _
      split
      · exact .refused _ _
      · split
        · exact .refused _ _
        · split
          · exact .refused _ _
          · exact .accepted (.port .refl (.takeAnswer p acc)) _ _
    · exact .refused _ _
  | counterRead scope port lane =>
    refine ⟨_, rfl, ?_⟩
    split
    · exact .refused _ _
    · exact .accepted .refl _ _
  | counterWrite scope port lane counter value =>
    refine ⟨_, rfl, ?_⟩
    split
    · exact .refused _ _
    · split
      · exact .refused _ _
      · rename_i t written
        exact .accepted (State.writeCounter_acts rfl written) _ _
  | reportFetch n => exact ⟨_, rfl, .accepted (.single (.dropReports _)) _ _⟩
  | reportMask flags =>
    refine ⟨_, rfl, ?_⟩
    split
    · exact .refused _ _
    · exact .accepted (.single (.setMask _)) _ _
  | planBlockReset =>
    have stored : Acts .planBlockReset s s.opened (s.opened.setPlan .reset) :=
      .single (.setPlan _ (.inr (.inr (.inr (.inr rfl)))) fun _ => Plan.reset_legal)
    exact ⟨_, rfl, (stored.port .driftCheck).accepted _ _⟩
  | portBlockReset port =>
    refine ⟨_, rfl, ?_⟩
    split
    · exact .refused _ _
    · rename_i p _
      exact .accepted (.port (.port .refl (.reset p rfl)) (.afterAbort _)) _ _
  | allPortsBlockReset =>
    exact ⟨_, rfl, .accepted (.port (.foldl _ (fun t p => .port .refl (.reset p rfl)) .refl) .grantTest) _ _⟩
  | esuBlockReset => exact ⟨_, rfl, .accepted (.single (.esuReset rfl)) _ _⟩
  | reportsBlockReset => exact ⟨_, rfl, .accepted (.single .clearReports) _ _⟩
  | countersBlockReset => exact ⟨_, rfl, .accepted (.single (.clearCounters rfl)) _ _⟩
  | restart =>
    refine ⟨_, rfl, ?_⟩
    split
    · exact .accepted .refl _ _
    · exact Acts.accepted .refl _ _ |>.tail (.restart (.inl rfl))
  | beaconArrival p l bytes =>
    refine ⟨_, rfl, ?_⟩
    have looped : Acts (.beaconArrival p l bytes) s s.opened (s.opened.loopBack p l bytes) := .port .refl (.loopBack p l bytes)
    split
    · exact looped.port (.receive p l _)
    · exact looped
  | silenceTimerExpiry p l =>
    refine ⟨_, rfl, ?_⟩
    split
    · exact .port .refl (.silence p l)
    · exact .refl
  | discoveryTimerExpiry p =>
    refine ⟨_, rfl, ?_⟩
    split
    · exact .port .refl (.discoveryExpiry p)
    · exact .refl
  | consultTimerExpiry p =>
    refine ⟨_, rfl, ?_⟩
    split
    · exact .port .refl (.fault p _)
    · exact .refl
  | farEndWaitExpiry p =>
    refine ⟨_, rfl, ?_⟩
    split
    · exact .port .refl (.fault p _)
    · exact .refl
  | figureOfMerit p l figure =>
    refine ⟨_, rfl, ?_⟩
    split
    · exact .port .refl (.figure p l _ _)
    · exact .refl
  | beaconTransmit p l =>
    refine ⟨_, rfl, ?_⟩
    split
    · split
      · exact .port .refl (.sendBeacon p l _)
      · exact .refl
    · exact .refl
  | testBlockTransmit p l =>
    refine ⟨_, rfl, ?_⟩
    split
    · exact .port .refl (.blockBegun p l)
    · exact .refl
  | watchdogExpiry c => exact ⟨_, rfl, .port .refl (.watchdog c)⟩
  | patternLockLost p l =>
    refine ⟨_, rfl, ?_⟩
    split
    · exact .port .refl (.setLock p l _)
    · exact .refl
  | patternLockRegained p l =>
    refine ⟨_, rfl, ?_⟩
    split
    · exact .port .refl (.setLock p l _)
    · exact .refl
  | testBlockEnd p l errors =>
    refine ⟨_, rfl, ?_⟩
    split
    · split
      · exact .port (.port .refl .useFree) (.countBlock p l _)
      · exact .port .refl (.countBlock p l _)
    · exact .refl
  | symbolError p l =>
    refine ⟨_, rfl, ?_⟩
    split
    · exact .port (.port .refl (.symbolError p l)) (.countLane p l _ _)
    · exact .refl
  | monitorPeriodEnd =>
    have judged : Acts .monitorPeriodEnd s s.opened (everyLane.foldl (fun t k => t.judgePeriod k.1 k.2) s.opened.tick) :=
      .foldl _ (fun t k => .port .refl (.judgePeriod k.1 k.2)) (.single (.tick rfl))
    exact ⟨_, rfl, judged.port (.takeTriggers _ _)⟩
  | cleanRunExpiry p =>
    refine ⟨_, rfl, ?_⟩
    split
    · exact .port .refl (.cleanRun p)
    · exact .refl
  | blockLockLost p l =>
    refine ⟨_, rfl, ?_⟩
    split
    · exact .port (.port .refl (.countLane p l _ _)) (.startHunt p l)
    · exact .refl
  | blockLockRegained p l =>
    refine ⟨_, rfl, ?_⟩
    split
    · exact .port (.port .refl (.endHunt p l)) (.lockBlip p l _)
    · exact .refl
  | recoveryTimerExpiry p l =>
    refine ⟨_, rfl, ?_⟩
    split
    · exact .port .refl (.linkLost p l _)
    · exact .refl
  | intervalBoundary => exact ⟨_, rfl, .single (.boundary rfl)⟩
  | managementByteReceived b =>
    refine ⟨_, rfl, ?_⟩
    split
    · exact .refl
    · exact .single (.receiveByte b)

/-- What the state a command opens has, and each of its operations keeps, the command has brought about at its end. -/
theorem exec_keeps {P Q : State → Prop} (opens : P o.opened) (acts : ∀ s t, Act c o s t → P s → P t)
    (closes : ∀ s, P s → Q s.closed) (k : exec c o = .next t) : Q t := by
  obtain ⟨u, ends, runs⟩ := exec_runs c o
  have kept : P u := by
    clear ends
    induction runs with
    | refl => exact opens
    | tail _ act ih => exact acts _ _ act ih
  rw [ends] at k
  cases k
  exact closes u kept

/-- What an idle step keeps, and every command at the front of the queue, every step keeps. -/
theorem step_keeps {P : State → Prop} (h : P s) (runs : ∀ c q, exec c (s.setPending q) = .next t → P t) (k : step s = .next t) : P t := by
  unfold step at k
  split at k
  · cases k; exact h
  · exact runs _ _ k

end Sys2Proof.Machine
end


section
/-! SUPPORT. The operations of commands on ports as moves; what the management port's operations leave alone; and O3. -/

namespace Sys2Proof.Machine

variable {w : Bool} {c : Instr} {o s t : State}

/-! ### Operations on ports are moves -/

theorem Lane.startHunt_counters (y : Lane) : (if y.monitor.hunt = none then y.startHunt else y).counters = y.counters := by
  split <;> rfl

theorem State.writeLane_moves (s : State) (p : PortIx) (l : LanePos) (i : Fin 7) {v : Nat} (k : v ≤ laneCounterMax i) :
    Moves true s (s.modLane p l fun y => { y with counters := y.counters.set i (.write v) }) := by
  refine Moves.refl.port p _ ⟨.inl rfl, fun _ => .inl rfl, fun m j => ?_⟩
  by_cases hm : l = m
  · subst hm
    by_cases hj : i = j
    · subst hj; simpa using Counter.mayBecome_write _ k
    · simp [Counter.mayBecome, Fin.val_ne_of_ne hj]
  · simp [hm, Counter.mayBecome_refl]

theorem State.writePort_moves (s : State) (p : PortIx) (i : Fin 3) {v : Nat} (k : v ≤ shortCounterMax) :
    Moves true s (s.modPort p fun x => { x with counters := x.counters.set i (.write v) }) := by
  refine Moves.refl.port p _ ⟨.inl rfl, fun j => ?_, fun _ _ => .inl rfl⟩
  by_cases hj : i = j
  · subst hj; simpa using Counter.mayBecome_write _ k
  · simp [Counter.mayBecome, Fin.val_ne_of_ne hj]

/-- Every operation of a command on ports is a move. -/
theorem PortAct.moves (h : PortAct w s t) : Moves w s t := by
  cases h with
  | started p m => exact .modPort s p (.fields rfl rfl rfl)
  | autoMode p => exact .modPort s p (.fields rfl rfl rfl)
  | startInto p m => exact s.startInto_moves p m
  | stepInto p g => exact s.stepInto_moves p g
  | stop p => exact s.stopPort_moves p
  | reset p hw => subst hw; exact s.resetPort_moves p
  | afterAbort z => exact s.afterAbort_moves z
  | grantTest => exact s.grantTest_moves
  | takeAnswer p a => exact s.takeAnswer_moves p a
  | storeControl p l c => exact s.storeControl_moves p l c
  | inject p l i => exact .modLane s p l fun _ => rfl
  | writeLane p l i v hw k => subst hw; exact s.writeLane_moves p l i k
  | writePort p i v hw k => subst hw; exact s.writePort_moves p i k
  | driftCheck => exact s.driftCheck_moves
  | loopBack p l bs => exact s.loopBack_moves p l bs
  | receive p l k => exact s.receive_moves p l k
  | silence p l => exact s.silence_moves p l
  | discoveryExpiry p => exact s.discoveryExpiry_moves p
  | fault p r => exact s.enterFaulted_moves p r
  | figure p l n g => exact s.sweepFigure_moves p l n g
  | sendBeacon p l me => exact s.sendBeacon_moves p l me
  | blockBegun p l => exact .modPort s p (.modLane _ l fun y => y.spend_counters _)
  | watchdog c => exact s.watchdog_moves c
  | setLock p l k => exact s.setLock_moves p l k
  | useFree => exact Moves.refl.free
  | countBlock p l n => exact s.countBlock_moves p l n
  | countLane p l i n => exact s.countLane_moves p l i n
  | symbolError p l => exact .modLane s p l fun _ => rfl
  | startHunt p l => exact .modLane s p l Lane.startHunt_counters
  | endHunt p l => exact .modLane s p l fun _ => rfl
  | lockBlip p l n => exact s.postLane_moves p l _ nofun
  | linkLost p l h => exact s.linkLost_moves p l h
  | judgePeriod p l => exact s.judgePeriod_moves p l
  | takeTriggers n ks => exact State.takeTriggers_moves n ks s
  | cleanRun p => exact .modPort s p (.fields rfl rfl rfl)

/-! ### The operations that are no moves -/

/-- A reset of the ESU: moves of the ports sent back, then the sweep limit, then the grant test (R132). -/
theorem State.esuReset_eq (s : State) : ∃ t, Moves w s t ∧ s.esuReset = (t.setSettings { t.settings with sweepLimit := 4 }).grantTest := by
  refine ⟨_, ?_, rfl⟩
  refine Moves.trans ?_ (State.setEsu_moves _ _)
  exact (s.setEsu_moves _).trans (Moves.foldl _ (fun t p => t.sendBack_moves p) _)

theorem State.putSettings_eq (s : State) (g : Settings) :
    ∃ n, Moves w ((s.setSettings g).setCountdown n) (s.putSettings g) := by
  have grants : ∀ u : State, Moves w u (if s.settings.sweepLimit < g.sweepLimit then u.grantTest else u) := fun u => by
    split
    · exact u.grantTest_moves
    · exact .refl
  by_cases loads : s.settings.loads g = true
  · exact ⟨g.decimation, by simpa only [State.putSettings, loads, if_true] using grants _⟩
  · refine ⟨s.countdown, (?_ : Moves w (s.setSettings g) _)⟩
    simpa only [State.putSettings, loads, if_false, Bool.false_eq_true] using grants (s.setSettings g)

/-- A millisecond passes: the ports' and the ESU's timers move, then the assembler's timer and the clock. -/
theorem State.tick_eq (s : State) :
    ∃ t, Moves w s t ∧ s.tick = (t.setMpt s.mpt.tick).setTime { s.time with clock := s.time.clock + 1 } := by
  refine ⟨_, ?_, rfl⟩
  refine (Moves.refl.ports _ fun p => Port.Keeps.mayBecome ?_ _ _).esu _
  exact ⟨rfl, rfl, fun l => by simp only [Port.tick, Port.mapLanes_lane]; rfl⟩

/-- The management port with its counters sampled (R167). -/
def Mpt.sampled (m : Mpt) : Mpt := { m with counters := Vector.ofFn fun i : Fin 2 => m.counters[i].sample }

/-- Every counter samples: those of ports and lanes as a move, then the management port's. -/
theorem State.sampleAll_eq (s : State) :
    ∃ t, Moves w s t ∧ s.sampleAll = t.setMpt s.mpt.sampled := by
  refine ⟨_, ?_, rfl⟩
  refine Moves.refl.ports _ fun p => ⟨.inl rfl, fun i => ?_, fun l i => ?_⟩
  · simpa using Counter.mayBecome_sample _ _ _
  · simp only [Port.mapLanes_lane, Fin.getElem_fin, Vector.getElem_ofFn]
    exact Counter.mayBecome_sample _ _ _

/-- Every counter is cleared: those of ports and lanes as a move, then the management port's. -/
theorem State.clearCounters_eq (s : State) :
    ∃ t, Moves true s t ∧ s.clearCounters = t.setMpt { s.mpt with counters := Vector.replicate 2 .zero } := by
  refine ⟨_, ?_, rfl⟩
  refine Moves.refl.ports _ fun p => ⟨.inl rfl, fun i => ?_, fun l i => ?_⟩
  · simpa using Counter.mayBecome_zero _ _
  · simpa using Counter.mayBecome_zero _ _

/-- The summary at a boundary: at most a report, then the countdown. -/
theorem State.summary_eq (s : State) (n : Nat) : ∃ t k, Moves w s t ∧ s.summary n = t.setCountdown k := by
  unfold State.summary
  split
  · exact ⟨s, s.countdown, .refl, rfl⟩
  · split
    · exact ⟨_, _, Moves.refl.post _ (by simp [Report.kind, Detail.kind]), rfl⟩
    · exact ⟨s, _, .refl, rfl⟩

/-- An interval boundary: the interval count, every counter sampled, at most a report, the countdown (R166 to R168). -/
theorem State.boundary_eq (s : State) :
    ∃ t u n, Moves w (s.setTime { s.time with interval := s.time.interval + 1 }) t ∧ Moves w (t.setMpt s.mpt.sampled) u ∧
      s.boundary = u.setCountdown n := by
  obtain ⟨t, sampled, eqSample⟩ := (s.setTime { s.time with interval := s.time.interval + 1 }).sampleAll_eq (w := w)
  obtain ⟨u, n, summed, eqSummary⟩ := (t.setMpt s.mpt.sampled).summary_eq (w := w) s.errorLanes
  refine ⟨t, u, n, sampled, summed, ?_⟩
  unfold State.boundary
  rw [eqSample]
  exact eqSummary

theorem State.countMpt_fields (s : State) (i : Fin 2) :
    (s.countMpt i).pending = s.pending ∧ (s.countMpt i).identity = s.identity ∧ (s.countMpt i).settings = s.settings ∧
    (s.countMpt i).plan = s.plan ∧ (s.countMpt i).time = s.time ∧ (s.countMpt i).mpt.rate = s.mpt.rate := by
  obtain ⟨rs, -, counted⟩ := s.countMpt_eq i
  rw [counted]
  exact ⟨rfl, rfl, rfl, rfl, rfl, rfl⟩

theorem Mpt.turn_rate (m : Mpt) (b : List BufEntry) (sending : Bool) : (m.turn b sending).rate = m.rate := by
  unfold Mpt.turn Mpt.sendHead
  dsimp only
  split
  · split <;> rfl
  · rfl

theorem Mpt.answer_rate (m : Mpt) (i : Instr) (st : Status) (body : List Byte) : (m.answer i st body).rate = m.rate := by
  unfold Mpt.answer
  split
  · exact m.turn_rate _ _
  · rfl

theorem Mpt.sent_rate (m : Mpt) : m.sent.rate = m.rate := by
  unfold Mpt.sent
  split
  · exact m.turn_rate _ _
  · rfl

/-! ### What a received byte does -/

/-- A received byte moves the assembler, and may then count in a management counter or hand a frame to the request buffer (R170 to
R173). -/
inductive ByteTaken (s : State) : State → Prop
  | dropped : ByteTaken s s
  | moved (a : Assembler) : ByteTaken s (s.setMpt { s.mpt with asm := a })
  | counted (a : Assembler) (overrun : Bool) (i : Fin 2) : ByteTaken s ((s.setMpt { s.mpt with asm := a, overrun := overrun }).countMpt i)
  | joined (a : Assembler) (e : BufEntry) (room : s.mpt.buffer.length < 2) (new : e.phase = .waiting) :
      ByteTaken s (s.setMpt (Mpt.turn { s.mpt with asm := a } (s.mpt.buffer ++ [e]) (headAnswered s.mpt.buffer)))

theorem State.frameError_taken (s : State) : ByteTaken s s.frameError := .counted .hunting s.mpt.overrun ctrFramesBad

theorem State.judgeFrame_taken (s : State) (n : Nat) (bs : List Byte) : ByteTaken s (s.judgeFrame n bs) := by
  unfold State.judgeFrame
  dsimp only
  split
  · split
    · unfold State.takeFrame
      split
      · rename_i room
        exact .joined .hunting _ room rfl
      · exact .counted .hunting true ctrOverruns
    · exact s.frameError_taken
  · exact s.frameError_taken

theorem State.receiveByte_taken (s : State) (b : Byte) : ByteTaken s (s.receiveByte b) := by
  unfold State.receiveByte
  dsimp only
  split
  · split
    · exact .moved _
    · exact .dropped
  · split
    · exact .moved _
    · exact s.frameError_taken
  · exact .moved _
  · split
    · exact .moved _
    · exact s.judgeFrame_taken _ _

/-! ### Shared state (O3) -/


/-- The commands that put the whole part back to its power-on values (R180, log entry 2). -/
def ResetsPart (c : Instr) (o : State) : Prop := (∃ a b, c = .powerOn a b) ∨ (∃ a b, c = .pinReset a b) ∨ c.Restarts o

/-- From `o` to `t`, shared state has changed only where `c` is the command named for it. -/
structure NamedOnly (c : Instr) (o t : State) : Prop where
  identity : t.identity = o.identity ∨ ∃ a b, c = .setIdentity a b
  settings : t.settings = o.settings ∨ (∃ r, c = .settingsWrite r) ∨ c = .esuBlockReset
  plan : t.plan = o.plan ∨ c.WritesPlan
  clock : t.time.clock = o.time.clock ∨ c = .monitorPeriodEnd
  interval : t.time.interval = o.time.interval ∨ c = .intervalBoundary
  rate : t.mpt.rate = o.mpt.rate

theorem NamedOnly.refl (c : Instr) (o : State) : NamedOnly c o o := ⟨.inl rfl, .inl rfl, .inl rfl, .inl rfl, .inl rfl, rfl⟩

/-- Where a change leaves all shared state alone, what has changed before stands. -/
theorem NamedOnly.keep (h : NamedOnly c o s)
    (k : t.identity = s.identity ∧ t.settings = s.settings ∧ t.plan = s.plan ∧ t.time = s.time ∧ t.mpt.rate = s.mpt.rate) :
    NamedOnly c o t := by
  obtain ⟨identity, settings, plan, time, rate⟩ := k
  exact ⟨identity ▸ h.identity, settings ▸ h.settings, plan ▸ h.plan, time ▸ h.clock, time ▸ h.interval, rate.trans h.rate⟩

theorem NamedOnly.moves (h : NamedOnly c o s) (k : Moves w s t) : NamedOnly c o t :=
  h.keep ⟨k.identity, k.settings, k.plan, k.time, by rw [k.mpt]⟩

theorem NamedOnly.countMpt (h : NamedOnly c o s) (i : Fin 2) : NamedOnly c o (s.countMpt i) := by
  obtain ⟨-, identity, settings, plan, time, rate⟩ := s.countMpt_fields i
  exact h.keep ⟨identity, settings, plan, time, rate⟩

theorem NamedOnly.byteTaken (h : NamedOnly c o s) (k : ByteTaken s t) : NamedOnly c o t := by
  cases k with
  | dropped => exact h
  | moved a => exact h.keep ⟨rfl, rfl, rfl, rfl, rfl⟩
  | counted a overrun i =>
    exact NamedOnly.countMpt (s := s.setMpt { s.mpt with asm := a, overrun := overrun }) (h.keep ⟨rfl, rfl, rfl, rfl, rfl⟩) i
  | joined a e _ _ => exact h.keep ⟨rfl, rfl, rfl, rfl, Mpt.turn_rate _ _ _⟩

theorem ByteTaken.pending (k : ByteTaken s t) : t.pending = s.pending := by
  cases k with
  | counted a overrun i => exact (State.countMpt_fields _ i).1
  | _ => rfl

/-- What an operation keeps besides what it is named for: the waiting commands, and the shared state as `NamedOnly` has it. -/
def KeepsShared (c : Instr) (o s : State) : Prop := s.pending = o.pending ∧ (ResetsPart c o ∨ NamedOnly c o s)

theorem KeepsShared.moves (h : KeepsShared c o s) (k : Moves w s t) : KeepsShared c o t :=
  ⟨k.pending.trans h.1, h.2.imp_right (·.moves k)⟩

theorem KeepsShared.keep (h : KeepsShared c o s) (pending : t.pending = s.pending)
    (k : t.identity = s.identity ∧ t.settings = s.settings ∧ t.plan = s.plan ∧ t.time = s.time ∧ t.mpt.rate = s.mpt.rate) :
    KeepsShared c o t := ⟨pending.trans h.1, h.2.imp_right (·.keep k)⟩

theorem KeepsShared.setMpt (h : KeepsShared c o s) {m : Mpt} (k : m.rate = s.mpt.rate) : KeepsShared c o (s.setMpt m) :=
  h.keep rfl ⟨rfl, rfl, rfl, rfl, k⟩

theorem KeepsShared.setCountdown (h : KeepsShared c o s) (n : Nat) : KeepsShared c o (s.setCountdown n) :=
  h.keep rfl ⟨rfl, rfl, rfl, rfl, rfl⟩

theorem KeepsShared.setReports (h : KeepsShared c o s) (l : ReportList) : KeepsShared c o (s.setReports l) :=
  h.keep rfl ⟨rfl, rfl, rfl, rfl, rfl⟩

theorem KeepsShared.setSettings (h : KeepsShared c o s) (g : Settings) (k : (∃ r, c = .settingsWrite r) ∨ c = .esuBlockReset) :
    KeepsShared c o (s.setSettings g) := ⟨h.1, h.2.imp_right fun n => ⟨n.identity, .inr k, n.plan, n.clock, n.interval, n.rate⟩⟩

/-- Every operation of a command keeps the waiting commands, and outside a reset it writes only the shared state the command is named
for. -/
theorem Act.named (act : Act c o s t) (h : KeepsShared c o s) : KeepsShared c o t := by
  obtain ⟨pending, named⟩ := id h
  cases act with
  | ports k => exact h.moves k.moves
  | power rate k => exact ⟨pending, .inl (k.imp_right .inl)⟩
  | restart k => exact ⟨pending, .inl (.inr (.inr k))⟩
  | setIdentity x k => exact ⟨pending, named.imp_right fun n => ⟨.inr k, n.settings, n.plan, n.clock, n.interval, n.rate⟩⟩
  | putSettings g k =>
    obtain ⟨r, written, -⟩ := k
    obtain ⟨n, moved⟩ := s.putSettings_eq (w := false) g
    exact ((h.setSettings g (.inl ⟨r, written⟩)).setCountdown n).moves moved
  | setPlan q k _ => exact ⟨pending, named.imp_right fun n => ⟨n.identity, n.settings, .inr k, n.clock, n.interval, n.rate⟩⟩
  | esuReset k =>
    obtain ⟨u, back, eq⟩ := s.esuReset_eq (w := false)
    rw [eq]
    exact ((h.moves back).setSettings _ (.inr k)).moves (w := false) (State.grantTest_moves _)
  | tick k =>
    obtain ⟨u, moved, eq⟩ := s.tick_eq (w := false)
    rw [eq]
    obtain ⟨kept, named⟩ := (h.moves moved).setMpt (m := s.mpt.tick) (by rw [moved.mpt]; rfl)
    exact ⟨kept, named.imp_right fun n => ⟨n.identity, n.settings, n.plan, .inr k, moved.time ▸ n.interval, n.rate⟩⟩
  | boundary k =>
    obtain ⟨u, v, n, sampled, summed, eq⟩ := s.boundary_eq (w := false)
    rw [eq]
    have counted : KeepsShared c o (s.setTime { s.time with interval := s.time.interval + 1 }) :=
      ⟨pending, named.imp_right fun n => ⟨n.identity, n.settings, n.plan, n.clock, .inr k, n.rate⟩⟩
    exact (((counted.moves sampled).setMpt (by rw [sampled.mpt]; rfl)).moves summed).setCountdown n
  | answer i st body => exact h.setMpt (Mpt.answer_rate _ _ _ _)
  | sent => exact h.setMpt (Mpt.sent_rate _)
  | receiveByte b =>
    exact ⟨(s.receiveByte_taken b).pending.trans pending, named.imp_right (·.byteTaken (s.receiveByte_taken b))⟩
  | frameError => exact ⟨s.frameError_taken.pending.trans pending, named.imp_right (·.byteTaken s.frameError_taken)⟩
  | writeMpt i v _ _ => exact h.setMpt rfl
  | clearCounters _ =>
    obtain ⟨u, moved, eq⟩ := s.clearCounters_eq
    rw [eq]
    exact (h.moves moved).setMpt (by rw [moved.mpt])
  | dropReports k => exact h.setReports _
  | setMask m => exact h.setReports _
  | clearReports => exact h.setReports _

/-- Settles O3: every operation of every command keeps the waiting commands, and writes only the shared state its command is named for. -/
theorem onlyNamedCommandsWriteSharedState : Obligations.OnlyNamedCommandsWriteSharedState := by
  intro c s t runs
  obtain ⟨u, ends, -⟩ := exec_runs c s
  have last : t = u.closed := by rw [ends] at runs; exact (Host.Outcome.next.inj runs).symm
  have opens : KeepsShared c s s.opened := ⟨rfl, .inr ((NamedOnly.refl c s).keep ⟨rfl, rfl, rfl, rfl, rfl⟩)⟩
  obtain ⟨pending, named⟩ := exec_keeps (Q := KeepsShared c s) opens (fun u v act h => act.named h)
    (fun u h => h.keep u.closed_pending (by simp)) runs
  refine ⟨pending, last ▸ u.closed_deferred, ?_⟩
  rcases named with (power | pin | restart | ends) | n
  · exact .inl power
  · exact .inr (.inl pin)
  · exact .inr (.inr (.inl restart))
  · exact .inr (.inr (.inr (.inl ends)))
  · exact .inr (.inr (.inr (.inr ⟨n.identity, n.settings, n.plan, n.clock, n.interval, n.rate⟩)))

end Sys2Proof.Machine
end


section
/-! SUPPORT. The order of the request buffer under its operations, and O57. -/

namespace Sys2Proof.Machine

variable {w : Bool} {c : Instr} {o s t : State}

/-! ### The request buffer stays in order -/

/-- The buffer as it is before the next request is handed on: as `bufferOrdered` has it, or with none in hand though some wait. -/
def bufferLoose : List BufEntry → Prop
  | [] => True
  | e :: es =>
    match e.phase with
    | .answered _ _ => if e.restarts then ∀ d ∈ es, d.phase = .waiting else bufferLoose es
    | .handed => ∀ d ∈ es, d.phase = .waiting
    | .waiting => ∀ d ∈ es, d.phase = .waiting

section
variable {e : BufEntry} {es : List BufEntry}

theorem bufferLoose_answered {st : Status} {body : List Byte} (h : e.phase = .answered st body) :
    bufferLoose (e :: es) ↔ if e.restarts then ∀ d ∈ es, d.phase = .waiting else bufferLoose es := by rw [bufferLoose, h]

theorem bufferLoose_handed (h : e.phase = .handed) : bufferLoose (e :: es) ↔ ∀ d ∈ es, d.phase = .waiting := by rw [bufferLoose, h]

theorem bufferLoose_waiting (h : e.phase = .waiting) : bufferLoose (e :: es) ↔ ∀ d ∈ es, d.phase = .waiting := by rw [bufferLoose, h]

theorem bufferOrdered_answered {st : Status} {body : List Byte} (h : e.phase = .answered st body) :
    bufferOrdered (e :: es) ↔ if e.restarts then ∀ d ∈ es, d.phase = .waiting else bufferOrdered es := by rw [bufferOrdered, h]

theorem bufferOrdered_handed (h : e.phase = .handed) : bufferOrdered (e :: es) ↔ ∀ d ∈ es, d.phase = .waiting := by
  rw [bufferOrdered, h]

theorem not_bufferOrdered_waiting (h : e.phase = .waiting) : ¬bufferOrdered (e :: es) := by rw [bufferOrdered, h]; exact id

end

theorem bufferLoose_of_waiting {b : List BufEntry} (h : ∀ d ∈ b, d.phase = .waiting) : bufferLoose b := by
  cases b with
  | nil => trivial
  | cons e es => exact (bufferLoose_waiting (h e List.mem_cons_self)).2 fun d hd => h d (List.mem_cons_of_mem _ hd)

theorem bufferOrdered.loose {b : List BufEntry} (h : bufferOrdered b) : bufferLoose b := by
  induction b with
  | nil => trivial
  | cons e es ih =>
    cases phase : e.phase with
    | answered st body =>
      rw [bufferOrdered_answered phase] at h
      rw [bufferLoose_answered phase]
      split
      next restarts => rwa [if_pos restarts] at h
      next plain => rw [if_neg plain] at h; exact ih h
    | handed => exact (bufferLoose_handed phase).2 ((bufferOrdered_handed phase).1 h)
    | waiting => exact absurd h (not_bufferOrdered_waiting phase)

/-- A RESTART's body is empty, or of a wrong length. -/
theorem parseRequest_restart_error {body : List Byte} {st : Status} (h : parseRequest 0x18 body = .error st) : st = .badLength := by
  cases body with
  | nil => cases h
  | cons b bs => cases h; rfl

/-- An entry the MPT has answered itself is no RESTART taken. -/
theorem restarts_of_unread {e : BufEntry} {st : Status} (h : parseRequest e.code e.body = .error st) :
    BufEntry.restarts { e with phase := .answered st [] } = false := by
  by_cases code : e.code = 0x18
  · rw [code] at h
    rw [parseRequest_restart_error h]
    simp [BufEntry.restarts]
  · unfold BufEntry.restarts
    rw [decide_eq_false code, Bool.false_and]

section
variable {e : BufEntry} {es : List BufEntry}

theorem handOn_answered {st : Status} {body : List Byte} (h : e.phase = .answered st body) :
    handOn (e :: es) = e :: if e.restarts then es else handOn es := by rw [handOn, h]

theorem handOn_handed (h : e.phase = .handed) : handOn (e :: es) = e :: es := by rw [handOn, h]

theorem handOn_refused (h : e.phase = .waiting) {st : Status} (k : parseRequest e.code e.body = .error st) :
    handOn (e :: es) = { e with phase := .answered st [] } :: handOn es := by rw [handOn, h, k]

theorem handOn_read (h : e.phase = .waiting) {i : Instr} (k : parseRequest e.code e.body = .ok i) :
    handOn (e :: es) = { e with phase := .handed } :: es := by rw [handOn, h, k]

theorem answerIn_answered {st : Status} {body : List Byte} (h : e.phase = .answered st body) (i : Instr) (st' : Status)
    (body' : List Byte) : answerIn i st' body' (e :: es) = (answerIn i st' body' es).map (e :: ·) := by rw [answerIn, h]

theorem answerIn_handed (h : e.phase = .handed) (i : Instr) (st : Status) (body : List Byte) :
    answerIn i st body (e :: es) = if e.asks i then some ({ e with phase := .answered st body } :: es) else none := by rw [answerIn, h]

theorem answerIn_waiting (h : e.phase = .waiting) (i : Instr) (st : Status) (body : List Byte) :
    answerIn i st body (e :: es) = none := by rw [answerIn, h]

end

theorem answerIn_of_waiting {b : List BufEntry} (h : ∀ d ∈ b, d.phase = .waiting) (i : Instr) (st : Status) (body : List Byte) :
    answerIn i st body b = none := by
  cases b with
  | nil => rfl
  | cons e es => exact answerIn_waiting (h e List.mem_cons_self) i st body

theorem handOn_length (b : List BufEntry) : (handOn b).length = b.length := by
  induction b with
  | nil => rfl
  | cons e es ih =>
    cases phase : e.phase with
    | answered st body => rw [handOn_answered phase]; split <;> simp [ih]
    | handed => rw [handOn_handed phase]
    | waiting =>
      cases read : parseRequest e.code e.body with
      | error st => rw [handOn_refused phase read]; simp [ih]
      | ok i => rw [handOn_read phase read]; rfl

/-- Handing on puts a buffer in order. -/
theorem bufferLoose.handOn {b : List BufEntry} (h : bufferLoose b) : bufferOrdered (handOn b) := by
  induction b with
  | nil => trivial
  | cons e es ih =>
    cases phase : e.phase with
    | answered st body =>
      rw [bufferLoose_answered phase] at h
      rw [handOn_answered phase, bufferOrdered_answered phase]
      split
      next restarts => rwa [if_pos restarts] at h
      next plain => rw [if_neg plain] at h; exact ih h
    | handed => rw [handOn_handed phase]; exact (bufferOrdered_handed phase).2 ((bufferLoose_handed phase).1 h)
    | waiting =>
      have waits := (bufferLoose_waiting phase).1 h
      cases read : parseRequest e.code e.body with
      | error st =>
        rw [handOn_refused phase read, bufferOrdered_answered rfl, restarts_of_unread read]
        exact ih (bufferLoose_of_waiting waits)
      | ok i =>
        rw [handOn_read phase read]
        exact (bufferOrdered_handed rfl).2 waits

/-- The owner's answer leaves the buffer in order, but for the next hand-on. -/
theorem answerIn_loose {b b' : List BufEntry} (h : bufferOrdered b) {i : Instr} {st : Status} {body : List Byte}
    (k : answerIn i st body b = some b') : bufferLoose b' ∧ b'.length = b.length := by
  induction b generalizing b' with
  | nil => cases k
  | cons e es ih =>
    cases phase : e.phase with
    | answered st' body' =>
      rw [bufferOrdered_answered phase] at h
      rw [answerIn_answered phase] at k
      obtain ⟨es', later, rfl⟩ := Option.map_eq_some_iff.1 k
      rw [bufferLoose_answered phase]
      split
      next restarts =>
        rw [if_pos restarts] at h
        rw [answerIn_of_waiting h] at later
        cases later
      next plain =>
        rw [if_neg plain] at h
        obtain ⟨loose, length⟩ := ih h later
        exact ⟨loose, by simp [length]⟩
    | handed =>
      have waits := (bufferOrdered_handed phase).1 h
      rw [answerIn_handed phase] at k
      split at k
      · cases k
        refine ⟨?_, rfl⟩
        rw [bufferLoose_answered rfl]
        split
        · exact waits
        · exact bufferLoose_of_waiting waits
      · cases k
    | waiting => exact absurd h (not_bufferOrdered_waiting phase)

/-- A new entry joins behind the others. -/
theorem bufferOrdered.joined {b : List BufEntry} (h : bufferOrdered b) {e : BufEntry} (k : e.phase = .waiting) : bufferLoose (b ++ [e]) := by
  have waits : ∀ {es : List BufEntry}, (∀ d ∈ es, d.phase = .waiting) → ∀ d ∈ es ++ [e], d.phase = .waiting := fun old d hd => by
    rcases List.mem_append.1 hd with hd | hd
    · exact old d hd
    · rw [List.mem_singleton.1 hd]; exact k
  induction b with
  | nil => exact bufferLoose_of_waiting (waits (by simp))
  | cons d ds ih =>
    rw [List.cons_append]
    cases phase : d.phase with
    | answered st body =>
      rw [bufferOrdered_answered phase] at h
      rw [bufferLoose_answered phase]
      split
      next restarts => rw [if_pos restarts] at h; exact waits h
      next plain => rw [if_neg plain] at h; exact ih h
    | handed => exact (bufferLoose_handed phase).2 (waits ((bufferOrdered_handed phase).1 h))
    | waiting => exact absurd h (not_bufferOrdered_waiting phase)

theorem bufferOrdered.tail {b : List BufEntry} (h : bufferOrdered b) : bufferLoose b.tail := by
  cases b with
  | nil => trivial
  | cons e es =>
    cases phase : e.phase with
    | answered st body =>
      rw [bufferOrdered_answered phase] at h
      split at h
      · exact bufferLoose_of_waiting h
      · exact bufferOrdered.loose h
    | handed => exact bufferLoose_of_waiting ((bufferOrdered_handed phase).1 h)
    | waiting => exact absurd h (not_bufferOrdered_waiting phase)

theorem Mpt.turn_buffer (m : Mpt) (b : List BufEntry) (sending : Bool) : (m.turn b sending).buffer = handOn b := by
  unfold Mpt.turn Mpt.sendHead
  dsimp only
  split
  · split <;> rfl
  · rfl

theorem Mpt.turn_counters (m : Mpt) (b : List BufEntry) (sending : Bool) : (m.turn b sending).counters = m.counters := by
  unfold Mpt.turn Mpt.sendHead
  dsimp only
  split
  · split <;> rfl
  · rfl

theorem Mpt.turn_legal {m : Mpt} {b : List BufEntry} (h : bufferLoose b) (short : b.length ≤ 2) (sending : Bool) :
    (m.turn b sending).bufferLegal :=
  ⟨by rw [Mpt.turn_buffer, handOn_length]; exact short, by rw [Mpt.turn_buffer]; exact h.handOn⟩

theorem Mpt.bufferLegal.answer {m : Mpt} (h : m.bufferLegal) (i : Instr) (st : Status) (body : List Byte) :
    (m.answer i st body).bufferLegal := by
  unfold Mpt.answer
  split
  next answered =>
    obtain ⟨loose, length⟩ := answerIn_loose h.2 answered
    exact Mpt.turn_legal loose (by rw [length]; exact h.1) _
  next => exact h

theorem Mpt.bufferLegal.sent {m : Mpt} (h : m.bufferLegal) : m.sent.bufferLegal := by
  unfold Mpt.sent
  split
  next =>
    refine Mpt.turn_legal h.2.tail ?_ _
    rw [List.length_tail]
    have := h.1
    omega
  next => exact h

theorem Mpt.answer_counters (m : Mpt) (i : Instr) (st : Status) (body : List Byte) : (m.answer i st body).counters = m.counters := by
  unfold Mpt.answer
  split
  · exact m.turn_counters _ _
  · rfl

theorem Mpt.sent_counters (m : Mpt) : m.sent.counters = m.counters := by
  unfold Mpt.sent
  split
  · exact m.turn_counters _ _
  · rfl

/-! ### Report list, buffer and counters (O57) -/

/-- The lists and counters in form, and no LIST_OVERFLOW kept back. -/
structure InForm (s : State) : Prop where
  reports : s.reports.wf
  buffer : s.mpt.bufferLegal
  ports : ∀ p, (s.port p).countersWithin
  management : ∀ i : Fin 2, s.mpt.counters[i].within shortCounterMax
  deferred : ∀ r ∈ s.deferred, r.kind ≠ .listOverflow

theorem InForm.moves (h : InForm s) (k : Moves w s t) : InForm t where
  reports := k.reports h.reports
  buffer := k.mpt ▸ h.buffer
  ports := k.counters h.ports
  management := k.mpt ▸ h.management
  deferred := k.deferred h.deferred

theorem InForm.setMpt (h : InForm s) {m : Mpt} (buffer : m.bufferLegal) (counters : ∀ i : Fin 2, m.counters[i].within shortCounterMax) :
    InForm (s.setMpt m) := ⟨h.reports, buffer, h.ports, counters, h.deferred⟩

theorem InForm.setTime (h : InForm s) (x : TimeBase) : InForm (s.setTime x) := ⟨h.reports, h.buffer, h.ports, h.management, h.deferred⟩

theorem InForm.setSettings (h : InForm s) (g : Settings) : InForm (s.setSettings g) :=
  ⟨h.reports, h.buffer, h.ports, h.management, h.deferred⟩

theorem InForm.setCountdown (h : InForm s) (n : Nat) : InForm (s.setCountdown n) :=
  ⟨h.reports, h.buffer, h.ports, h.management, h.deferred⟩

theorem InForm.setReports (h : InForm s) {l : ReportList} (k : l.wf) : InForm (s.setReports l) :=
  ⟨k, h.buffer, h.ports, h.management, h.deferred⟩

/-- A report that counting keeps back is a COUNTER_SATURATED. -/
theorem State.countMpt_deferred (s : State) (i : Fin 2) : ∀ r ∈ (s.countMpt i).deferred, r ∈ s.deferred ∨ r.kind ≠ .listOverflow := by
  unfold State.countMpt
  dsimp only
  split
  · intro r hr
    rw [State.deferReport_deferred, List.mem_append, List.mem_singleton] at hr
    rcases hr with hr | rfl
    · exact .inl hr
    · exact .inr (by simp [Report.kind, Detail.kind])
  · exact fun r hr => .inl hr

theorem InForm.countMpt (h : InForm s) (i : Fin 2) : InForm (s.countMpt i) := by
  obtain ⟨rs, -, counted⟩ := s.countMpt_eq i
  refine ⟨?_, ?_, ?_, State.countMpt_within h.management, fun r hr => (s.countMpt_deferred i r hr).elim (h.deferred r) id⟩
  · rw [counted]; exact h.reports
  · rw [counted]; exact h.buffer
  · rw [counted]; exact h.ports

theorem InForm.byteTaken (h : InForm s) (k : ByteTaken s t) : InForm t := by
  cases k with
  | dropped => exact h
  | moved a => exact h.setMpt h.buffer h.management
  | counted a overrun i => exact InForm.countMpt (s := s.setMpt { s.mpt with asm := a, overrun := overrun }) (h.setMpt h.buffer h.management) i
  | joined a e room new =>
    refine h.setMpt (Mpt.turn_legal (h.buffer.2.joined new) ?_ _) (by rw [Mpt.turn_counters]; exact h.management)
    rw [List.length_append, List.length_singleton]
    omega

theorem Counter.zero_within (m : Nat) : Counter.zero.within m := ⟨Nat.zero_le _, Nat.zero_le _⟩

theorem ReportList.wf_of_sublist {l m : ReportList} (h : l.wf) (k : m.records.Sublist l.records) : m.wf where
  ordinary := ((k.filter _).length_le).trans h.ordinary
  overflow := ((k.filter _).length_le).trans h.overflow
  distinct := h.distinct.sublist (k.filter _)
  counts x hx := h.counts x (k.subset hx)

theorem ReportList.reset_wf : ReportList.reset.wf where
  ordinary := Nat.zero_le _
  overflow := Nat.zero_le _
  distinct := List.Pairwise.nil
  counts _ hx := by cases hx

/-- A port after power-on has every counter at 0. -/
theorem Port.reset_countersWithin : Port.reset.countersWithin := by
  refine ⟨fun i => ?_, fun l i => ?_⟩
  · have zero : Port.reset.counters[i] = .zero := by simp [Port.reset]
    exact zero ▸ Counter.zero_within _
  · have zero : (Port.reset.lane l).counters[i] = .zero := by simp [Port.reset, Port.lane, Lane.reset]
    exact zero ▸ Counter.zero_within _

theorem State.powered_port (s : State) (rate : LineRate) (p : PortIx) : (s.powered rate).port p = .reset := by
  simp [State.powered, State.powerOn, State.port]

theorem InForm.powered (s : State) (rate : LineRate) : InForm (s.powered rate) where
  reports := ReportList.reset_wf
  buffer := ⟨Nat.zero_le _, trivial⟩
  ports p := by rw [State.powered_port]; exact Port.reset_countersWithin
  management i := by
    have zero : (s.powered rate).mpt.counters[i] = .zero := by simp [State.powered, State.powerOn, Mpt.reset]
    exact zero ▸ Counter.zero_within _
  deferred _ hr := by cases hr

/-- The end of a command keeps lists and counters in form. -/
theorem InForm.closed (h : InForm s) : s.closed.reports.wf ∧ s.closed.mpt.bufferLegal ∧ s.closed.countersWithin := by
  refine ⟨State.closed_reports_wf h.reports h.deferred, ?_, fun p => ?_, ?_⟩
  · rw [State.closed_mpt]; exact h.buffer
  · rw [State.closed_port]; exact h.ports p
  · rw [State.closed_mpt]; exact h.management

/-- A counter of the management port replaced by one within the maximum. -/
theorem management_set_within {v : Vector Counter 2} (h : ∀ i : Fin 2, v[i].within shortCounterMax) (j : Fin 2) {x : Counter}
    (k : x.within shortCounterMax) : ∀ i : Fin 2, (v.set j x)[i].within shortCounterMax := by
  intro i
  by_cases same : j = i
  · subst same; simpa using k
  · simpa [Fin.val_ne_of_ne same] using h i

theorem Mpt.sampled_live (m : Mpt) (i : Fin 2) : m.sampled.counters[i].live = m.counters[i].live := by simp [Mpt.sampled, Counter.sample]

theorem Mpt.sampled_within {m : Mpt} (h : ∀ i : Fin 2, m.counters[i].within shortCounterMax) :
    ∀ i : Fin 2, m.sampled.counters[i].within shortCounterMax := fun i => by
  have live := (h i).1
  simpa [Mpt.sampled, Counter.within, Counter.sample] using live

/-- Every operation of a command keeps lists and counters in form. -/
theorem InForm.act (h : InForm s) (act : Act c o s t) : InForm t := by
  cases act with
  | ports k => exact h.moves k.moves
  | power rate _ => exact .powered s rate
  | restart _ =>
    have powered := InForm.powered s s.mpt.rate
    exact powered.setMpt powered.buffer powered.management
  | setIdentity x _ => exact ⟨h.reports, h.buffer, h.ports, h.management, h.deferred⟩
  | putSettings g _ =>
    obtain ⟨n, moved⟩ := s.putSettings_eq (w := false) g
    exact ((h.setSettings g).setCountdown n).moves moved
  | setPlan q _ _ => exact ⟨h.reports, h.buffer, h.ports, h.management, h.deferred⟩
  | esuReset _ =>
    obtain ⟨u, back, eq⟩ := s.esuReset_eq (w := false)
    rw [eq]
    exact ((h.moves back).setSettings _).moves (w := false) (State.grantTest_moves _)
  | tick _ =>
    obtain ⟨u, moved, eq⟩ := s.tick_eq (w := false)
    rw [eq]
    exact ((h.moves moved).setMpt (m := s.mpt.tick) h.buffer h.management).setTime _
  | boundary _ =>
    obtain ⟨u, v, n, sampled, summed, eq⟩ := s.boundary_eq (w := false)
    rw [eq]
    have counted : InForm (u.setMpt s.mpt.sampled) := ((h.setTime _).moves sampled).setMpt h.buffer (Mpt.sampled_within h.management)
    exact (counted.moves summed).setCountdown n
  | answer i st body => exact h.setMpt (h.buffer.answer i st body) (by rw [Mpt.answer_counters]; exact h.management)
  | sent => exact h.setMpt h.buffer.sent (by rw [Mpt.sent_counters]; exact h.management)
  | receiveByte b => exact h.byteTaken (s.receiveByte_taken b)
  | frameError => exact h.byteTaken s.frameError_taken
  | writeMpt i v _ k => exact h.setMpt h.buffer (management_set_within h.management i ⟨k, k⟩)
  | clearCounters _ =>
    obtain ⟨u, moved, eq⟩ := s.clearCounters_eq
    rw [eq]
    exact (h.moves moved).setMpt h.buffer fun i => by simpa using Counter.zero_within _
  | dropReports k => exact h.setReports (ReportList.wf_of_sublist h.reports (List.drop_sublist _ _))
  | setMask m => exact h.setReports ⟨h.reports.ordinary, h.reports.overflow, h.reports.distinct, h.reports.counts⟩
  | clearReports => exact h.setReports ReportList.reset_wf

theorem exec_inForm (reports : o.reports.wf) (buffer : o.mpt.bufferLegal) (counters : o.countersWithin) (k : exec c o = .next t) :
    t.reports.wf ∧ t.mpt.bufferLegal ∧ t.countersWithin :=
  exec_keeps (P := InForm) (Q := fun t => t.reports.wf ∧ t.mpt.bufferLegal ∧ t.countersWithin)
    ⟨reports, buffer, counters.1, counters.2, fun _ hr => by cases hr⟩ (fun _ _ act h => h.act act) (fun _ h => h.closed) k

/-! ### Counters rise (O57) -/

/-- Every counter is within its maximum and stands no lower than in `o`. -/
structure Risen (o s : State) : Prop where
  portsWithin : ∀ p, (s.port p).countersWithin
  managementWithin : ∀ i : Fin 2, s.mpt.counters[i].within shortCounterMax
  ports : ∀ p, (o.port p).countersRise (s.port p)
  management : ∀ i : Fin 2, o.mpt.counters[i].live ≤ s.mpt.counters[i].live

theorem Port.countersRise.trans {x y z : Port} (h : x.countersRise y) (k : y.countersRise z) : x.countersRise z :=
  ⟨fun i => (h.1 i).trans (k.1 i), fun l i => (h.2 l i).trans (k.2 l i)⟩

theorem Risen.moves (h : Risen o s) (k : Moves false s t) : Risen o t where
  portsWithin := k.counters h.portsWithin
  managementWithin := k.mpt ▸ h.managementWithin
  ports p := (h.ports p).trans (k.rise h.portsWithin p)
  management := k.mpt ▸ h.management

/-- A change that leaves every port alone, and takes no management counter down. -/
theorem Risen.keep (h : Risen o s) (ports : t.ports = s.ports)
    (within : ∀ i : Fin 2, t.mpt.counters[i].within shortCounterMax)
    (rise : ∀ i : Fin 2, s.mpt.counters[i].live ≤ t.mpt.counters[i].live) : Risen o t := by
  have same : ∀ p, t.port p = s.port p := fun p => by rw [State.port, ports, State.port]
  exact ⟨fun p => same p ▸ h.portsWithin p, within, fun p => same p ▸ h.ports p, fun i => (h.management i).trans (rise i)⟩

/-- A change that leaves every counter alone. -/
theorem Risen.same (h : Risen o s) (ports : t.ports = s.ports) (k : t.mpt.counters = s.mpt.counters) : Risen o t :=
  h.keep ports (k ▸ h.managementWithin) fun i => by rw [k]

theorem Risen.countMpt (h : Risen o s) (i : Fin 2) : Risen o (s.countMpt i) := by
  obtain ⟨rs, -, counted⟩ := s.countMpt_eq i
  refine h.keep (by rw [counted]) (State.countMpt_within h.managementWithin) fun j => ?_
  rw [counted]
  by_cases same : i = j
  · subst same
    simpa using Counter.mayBecome.rises (Counter.mayBecome_bump false shortCounterMax 1 _) (h.managementWithin i).1
  · simp [Fin.val_ne_of_ne same]

theorem Risen.byteTaken (h : Risen o s) (k : ByteTaken s t) : Risen o t := by
  cases k with
  | dropped => exact h
  | moved a => exact h.same rfl rfl
  | counted a overrun i => exact Risen.countMpt (s := s.setMpt { s.mpt with asm := a, overrun := overrun }) (h.same rfl rfl) i
  | joined a e _ _ => exact h.same rfl (Mpt.turn_counters _ _ _)

/-- Outside writes and resets, no operation of a command takes a counter down. -/
theorem Risen.act (h : Risen o s) (act : Act c o s t) (reads : c.writesCounters = false) (runs : ¬ResetsPart c o) : Risen o t := by
  cases act with
  | ports k => exact h.moves (reads ▸ k.moves)
  | power rate k => exact absurd (k.imp_right .inl) runs
  | restart k => exact absurd (.inr (.inr k)) runs
  | setIdentity x _ => exact h.same rfl rfl
  | putSettings g _ =>
    obtain ⟨n, moved⟩ := s.putSettings_eq (w := false) g
    have set : Risen o ((s.setSettings g).setCountdown n) := h.same rfl rfl
    exact set.moves moved
  | setPlan q _ _ => exact h.same rfl rfl
  | esuReset _ =>
    obtain ⟨u, back, eq⟩ := s.esuReset_eq (w := false)
    rw [eq]
    have limited : Risen o (u.setSettings { u.settings with sweepLimit := 4 }) := (h.moves back).same rfl rfl
    exact limited.moves (State.grantTest_moves _)
  | tick _ =>
    obtain ⟨u, moved, eq⟩ := s.tick_eq (w := false)
    rw [eq]
    exact (h.moves moved).same rfl (by rw [moved.mpt]; rfl)
  | boundary _ =>
    obtain ⟨u, v, n, sampled, summed, eq⟩ := s.boundary_eq (w := false)
    rw [eq]
    have counted : Risen o (s.setTime { s.time with interval := s.time.interval + 1 }) := h.same rfl rfl
    have through : Risen o (u.setMpt s.mpt.sampled) := (counted.moves sampled).keep rfl (Mpt.sampled_within h.managementWithin) fun i => by
      rw [sampled.mpt]; exact (s.mpt.sampled_live i).ge
    exact (through.moves summed).same rfl rfl
  | answer i st body => exact h.same rfl (Mpt.answer_counters _ _ _ _)
  | sent => exact h.same rfl (Mpt.sent_counters _)
  | receiveByte b => exact h.byteTaken (s.receiveByte_taken b)
  | frameError => exact h.byteTaken s.frameError_taken
  | writeMpt i v k _ => rw [reads] at k; cases k
  | clearCounters k => rw [reads] at k; cases k
  | dropReports k => exact h.same rfl rfl
  | setMask m => exact h.same rfl rfl
  | clearReports => exact h.same rfl rfl

theorem exec_risen (counters : o.countersWithin) (reads : c.writesCounters = false) (runs : ¬ResetsPart c o) (k : exec c o = .next t) :
    Risen o t := by
  have begins : Risen o o := ⟨counters.1, counters.2, fun p => ⟨fun _ => Nat.le_refl _, fun _ _ => Nat.le_refl _⟩, fun _ => Nat.le_refl _⟩
  exact exec_keeps (P := Risen o) (begins.same rfl rfl) (fun _ _ act h => h.act act reads runs)
    (fun u h => h.same u.closed_ports (by rw [u.closed_mpt])) k

/-- Settles O57: every operation of a command keeps the lists and counters in form, and takes no counter down outside the commands that
write or reset. -/
theorem stepKeepsListsAndCounters : Obligations.StepKeepsListsAndCounters := by
  refine ⟨fun s t reports buffer counters runs => ?_, fun c s t counters runs noWrite noPort noPorts noClear noPower noPin noRestart sent => ?_⟩
  · exact step_keeps (P := fun t => t.reports.wf ∧ t.mpt.bufferLegal ∧ t.countersWithin) ⟨reports, buffer, counters⟩ (fun c q => exec_inForm (o := s.setPending q) reports buffer counters) runs
  · have reads : c.writesCounters = false := by
      cases c with
      | counterWrite a b d e f => exact absurd rfl (noWrite a b d e f)
      | portBlockReset a => exact absurd rfl (noPort a)
      | allPortsBlockReset => exact absurd rfl noPorts
      | countersBlockReset => exact absurd rfl noClear
      | _ => rfl
    have keepsRunning : ¬ResetsPart c s := by
      rintro (⟨a, b, rfl⟩ | ⟨a, b, rfl⟩ | rfl | ⟨rfl, e, head, restarts⟩)
      · exact noPower a b rfl
      · exact noPin a b rfl
      · exact noRestart rfl
      · rw [sent rfl e head] at restarts; cases restarts
    have risen := exec_risen counters reads keepsRunning runs
    exact ⟨fun p => (risen.ports p).1, fun p => (risen.ports p).2, risen.management⟩

end Sys2Proof.Machine
end


section
/-! SUPPORT. Queue, sweep channels and port states stay in step under every operation (O59). -/

namespace Sys2Proof.Machine

variable {w : Bool} {c : Instr} {o s t : State} {p : PortIx}

/-! ### The operations of commands on ports -/

theorem PortAct.slots (act : PortAct w s t) (h : s.slots) : t.slots := by
  have lane : ∀ p l (f : Lane → Lane), (s.modLane p l f).slots := fun p l f => State.slots_of_view h (s.modLane_view p l f)
  cases act with
  | started p m => exact State.modPort_slots h p (fun _ => rfl) fun _ => rfl
  | autoMode p => exact State.modPort_slots h p (fun _ => rfl) fun _ => rfl
  | startInto p m => exact State.startInto_slots h p m
  | stepInto p g => exact State.stepInto_slots h p g
  | stop p => exact State.stopPort_slots h p
  | reset p _ => exact State.resetPort_slots h p
  | afterAbort z => exact State.afterAbort_slots h z
  | grantTest => exact State.grantTest_slots h
  | takeAnswer p a => exact State.takeAnswer_slots h p a
  | storeControl p l c => exact State.storeControl_slots h p l c
  | inject p l i => exact lane p l _
  | writeLane p l i v _ _ => exact lane p l _
  | writePort p i v _ _ => exact State.modPort_slots h p (fun _ => rfl) fun _ => rfl
  | driftCheck => exact State.driftCheck_slots h
  | loopBack p l bs => exact State.loopBack_slots h p l bs
  | receive p l k => exact State.receive_slots h p l k
  | silence p l => exact State.silence_slots h p l
  | discoveryExpiry p => exact State.discoveryExpiry_slots h p
  | fault p r => exact State.enterFaulted_slots (h.near p) r
  | figure p l n g => exact State.sweepFigure_slots h p l n g
  | sendBeacon p l me => exact State.sendBeacon_slots h p l me
  | blockBegun p l => exact State.modPort_slots h p (fun _ => rfl) fun _ => rfl
  | watchdog c => exact State.watchdog_slots h c
  | setLock p l k => exact State.setLock_slots h p l k
  | useFree => exact State.slots_of_view h rfl
  | countBlock p l n => exact State.countBlock_slots h p l n
  | countLane p l i n => exact State.slots_of_view h (s.countLane_view p l i n)
  | symbolError p l => exact lane p l _
  | startHunt p l => exact lane p l _
  | endHunt p l => exact lane p l _
  | lockBlip p l n => exact State.slots_of_view h rfl
  | linkLost p l v => exact State.linkLost_slots h p l v
  | judgePeriod p l => exact State.judgePeriod_slots h p l
  | takeTriggers n ks => exact State.takeTriggers_slots n ks h
  | cleanRun p => exact State.modPort_slots h p (fun _ => rfl) fun _ => rfl

theorem State.setMpt_view (s : State) (m : Mpt) : (s.setMpt m).view = s.view := rfl

theorem State.setTime_view (s : State) (x : TimeBase) : (s.setTime x).view = s.view := rfl

/-! ### A millisecond passes -/

/-- Sweep records that change and keep their ports leave queue, channels and ports in step. -/
theorem State.slots_of_sweeps (h : s.slots) (f : Sweep → Sweep) (k : ∀ v, (f v).port = v.port) {e : Esu} (queue : e.queue = s.esu.queue)
    (channels : ∀ c : ChanIx, e.channels[c] = s.esu.channels[c].map f) : (s.setEsu e).slots := by
  refine ⟨fun p => ?_, ?_, ?_, fun p c => ?_, h.channelled⟩
  · simpa [queue] using h.queued p
  · simpa [queue] using h.once
  · simpa [queue] using h.ordered
  · refine Iff.trans (h.tuned p c) ?_
    rw [State.setEsu_esu, channels c]
    cases s.esu.channels[c] <;> simp [k]

theorem State.tick_slots (h : s.slots) : s.tick.slots := by
  have ports : (s.mapPorts fun _ x => x.tick).slots :=
    State.slots_of_view h (s.mapPorts_view _ (fun _ _ => rfl) fun _ _ => rfl)
  have sweeps : ((s.mapPorts fun _ x => x.tick).setEsu s.esu.tick).slots := by
    refine State.slots_of_sweeps ports Sweep.tick (fun _ => rfl) ?_ fun c => ?_
    · rw [State.mapPorts_esu]; rfl
    · rw [State.mapPorts_esu]; simp [Esu.tick]
  exact State.slots_of_view sweeps (by rw [State.tick, State.setTime_view, State.setMpt_view])

/-! ### The interval boundary, cleared counters, settings, received bytes -/

theorem State.summary_view (s : State) (n : Nat) : (s.summary n).view = s.view := by
  unfold State.summary
  split
  · rfl
  · split <;> rfl

theorem State.sampleAll_view (s : State) : s.sampleAll.view = s.view := by
  rw [State.sampleAll, State.setMpt_view]
  exact State.mapPorts_view _ _ (fun _ _ => rfl) fun _ _ => rfl

theorem State.boundary_view (s : State) : s.boundary.view = s.view := by
  rw [State.boundary, State.summary_view, State.sampleAll_view, State.setTime_view]

theorem State.clearCounters_view (s : State) : s.clearCounters.view = s.view := by
  rw [State.clearCounters, State.setMpt_view]
  exact State.mapPorts_view _ _ (fun _ _ => rfl) fun _ _ => rfl

theorem State.putSettings_slots (h : s.slots) (g : Settings) : (s.putSettings g).slots := by
  have set : ∀ n, ((s.setSettings g).setCountdown n).slots := fun n => State.slots_of_view h rfl
  have kept : (s.setSettings g).slots := State.slots_of_view h rfl
  unfold State.putSettings
  dsimp only
  split
  · split
    · exact State.grantTest_slots (set _)
    · exact State.grantTest_slots kept
  · split
    · exact set _
    · exact kept

theorem State.countMpt_view (s : State) (i : Fin 2) : (s.countMpt i).view = s.view := by
  obtain ⟨rs, -, counted⟩ := s.countMpt_eq i
  rw [counted]
  rfl

theorem ByteTaken.view (k : ByteTaken s t) : t.view = s.view := by
  cases k with
  | counted a overrun i => exact State.countMpt_view _ i
  | _ => rfl

/-! ### Power-on -/

theorem State.powered_slots (s : State) (rate : LineRate) : (s.powered rate).slots := by
  have idle : ∀ p, ((s.powered rate).port p).state = .idle := fun p => by rw [State.powered_port]; rfl
  have none_channel : ∀ p, ((s.powered rate).port p).channel = none := fun p => by rw [State.powered_port]; rfl
  have empty : (s.powered rate).esu.queue = [] := rfl
  have free : ∀ c : ChanIx, (s.powered rate).esu.channels[c] = none := fun c => by simp [State.powered, Esu.reset]
  refine ⟨fun p => ?_, by simp [empty], by rw [empty]; exact List.Pairwise.nil, fun p c => ?_, fun p => ?_⟩
  · simp [idle, empty]
  · simp [idle, free]
  · simp [idle, none_channel]

/-! ### The ESU block reset (R132) -/

theorem queueEntries_perm (q : List QueueEntry) :
    (q.filter (fun e => decide (e.cycle = .retrain)) ++ q.filter fun e => decide (e.cycle = .initial)).Perm q := by
  have other : q.filter (fun e => decide (e.cycle = .initial)) = q.filter fun e => !decide (e.cycle = .retrain) :=
    List.filter_congr fun e _ => by cases cycle : e.cycle <;> rfl
  rw [other]
  exact List.filter_append_perm _ q

theorem queueReturn_perm (back q : List QueueEntry) : (queueReturn back q).Perm (back ++ q) := by
  unfold queueReturn
  have swap : ∀ a b c d : List QueueEntry, (a ++ b ++ c ++ d).Perm ((a ++ c) ++ (b ++ d)) := fun a b c d => by
    simp only [List.append_assoc]
    exact List.Perm.append_left a (by
      rw [← List.append_assoc, ← List.append_assoc]
      exact List.Perm.append_right d List.perm_append_comm)
  exact (swap _ _ _ _).trans ((queueEntries_perm back).append (queueEntries_perm q))

theorem queueReturn_ordered (back q : List QueueEntry) : queueOrdered (queueReturn back q) := by
  unfold queueReturn queueOrdered
  rw [List.append_assoc]
  have retrains : ∀ e ∈ back.filter (fun e => decide (e.cycle = .retrain)) ++ q.filter (fun e => decide (e.cycle = .retrain)),
      e.cycle = .retrain := fun e he => by
    rcases List.mem_append.1 he with he | he <;> simpa using (List.mem_filter.1 he).2
  have initials : ∀ e ∈ back.filter (fun e => decide (e.cycle = .initial)) ++ q.filter (fun e => decide (e.cycle = .initial)),
      e.cycle = .initial := fun e he => by
    rcases List.mem_append.1 he with he | he <;> simpa using (List.mem_filter.1 he).2
  refine List.pairwise_append.2 ⟨?_, ?_, fun a _ b hb _ => initials b hb⟩
  · exact List.pairwise_of_forall_mem_list fun a ha b _ initial => by rw [retrains a ha] at initial; cases initial
  · exact List.pairwise_of_forall_mem_list fun a _ b hb _ => initials b hb

/-- Ports on their way, all in AWAIT_SLOT and without a channel, are settled when entries of theirs join the queue. -/
theorem State.rejoin_slots {P : PortIx → Prop} (h : s.view.but P) (waits : ∀ p, P p → (s.port p).state = .awaitSlot)
    (bare : ∀ p, P p → (s.port p).channel = none) {back q : List QueueEntry} (perm : q.Perm (back ++ s.esu.queue))
    (ordered : queueOrdered q) (once : (back.map QueueEntry.port).Nodup) (entries : ∀ p, P p ↔ ∃ e ∈ back, e.port = p) :
    (s.setEsu { s.esu with queue := q }).slots := by
  have mem : ∀ e, e ∈ q ↔ e ∈ back ∨ e ∈ s.esu.queue := fun e => by rw [perm.mem_iff, List.mem_append]
  refine ⟨fun p => ?_, ?_, ordered, fun p c => ?_, fun p => ?_⟩
  · by_cases hp : P p
    · obtain ⟨e, he, port⟩ := (entries p).1 hp
      exact ⟨fun _ => ⟨e, (mem e).2 (.inl he), port⟩, fun _ => waits p hp⟩
    · refine (h.queued p hp).trans ⟨fun ⟨e, he, port⟩ => ⟨e, (mem e).2 (.inr he), port⟩, fun ⟨e, he, port⟩ => ?_⟩
      rcases (mem e).1 he with he | he
      · exact absurd ((entries p).2 ⟨e, he, port⟩) hp
      · exact ⟨e, he, port⟩
  · show (q.map QueueEntry.port).Nodup
    rw [(perm.map _).nodup_iff, List.map_append, List.nodup_append]
    refine ⟨once, h.once, fun p hp r hr same => ?_⟩
    obtain ⟨e, he, rfl⟩ := List.mem_map.1 hp
    obtain ⟨d, hd, rfl⟩ := List.mem_map.1 hr
    exact h.out d hd ((entries _).2 ⟨e, he, same⟩)
  · by_cases hp : P p
    · refine ⟨fun ⟨tune, _⟩ => ?_, fun ⟨v, hv, port⟩ => absurd (port ▸ hp) (h.free c v hv)⟩
      rw [State.setEsu_port, waits p hp] at tune
      cases tune
    · exact h.tuned p c hp
  · by_cases hp : P p
    · rw [State.setEsu_port, waits p hp, bare p hp]; simp
    · exact h.channelled p hp

theorem State.sendBack_mode (s : State) (p q : PortIx) : ((s.sendBack p).port q).mode = (s.port q).mode := by
  have moved : ∀ (t : State) new (f : Port → Port), (∀ x, (f x).mode = x.mode) → (t.port q).mode = (s.port q).mode →
      ((t.transition p new f).port q).mode = (s.port q).mode := fun t new f kept same => by
    by_cases hq : q = p
    · subst hq
      rw [(t.transition_record q new f).mode]
      show (f ((t.undo q).port q)).mode = _
      rw [kept, (t.undo_record q).mode]
      exact same
    · rw [t.transition_port_other hq]; exact same
  unfold State.sendBack
  split
  · exact moved (s.postPort p _) .paused _ (fun _ => rfl) rfl
  · exact moved s .awaitSlot id (fun _ => rfl) rfl

/-- A port sent back: in STEP mode it is settled, else it stands in AWAIT_SLOT without a channel, on its way. -/
theorem State.sendBack_but {P : PortIx → Prop} (h : s.view.but P) (hp : P p) :
    (s.sendBack p).view.but (fun q => P q ∧ ¬(q = p ∧ (s.port p).mode = .step)) ∧
      (∀ q, q ≠ p → (s.sendBack p).port q = s.port q) ∧
      ((s.port p).mode ≠ .step → ((s.sendBack p).port p).state = .awaitSlot ∧ ((s.sendBack p).port p).channel = none) := by
  unfold State.sendBack
  split
  next step =>
    have settled := State.transition_settles (s := s.postPort p (.stagePause .awaitSlot)) (P := P) h p .paused
      (fun x => { x with pending := some .awaitSlot }) (fun _ => rfl) nofun nofun
    refine ⟨settled.mono fun q => ?_, fun q hq => ?_, fun other => absurd step other⟩
    · simp [step]
    · rw [State.enterPaused, State.transition_port_other _ hq]; rfl
  next other =>
    refine ⟨?_, fun q hq => s.transition_port_other hq _ _, fun _ => ⟨s.transition_state p .awaitSlot id, ?_⟩⟩
    · refine (State.transition_awaits h p id fun _ => rfl).mono fun q => ?_
      simp only [other, and_false, not_false_eq_true, and_true]
      exact ⟨fun k => k.elim id (fun same => same ▸ hp), .inl⟩
    · have view := congrArg (fun v => v.ch p) (s.transition_view p .awaitSlot id fun _ => rfl)
      simpa using view

/-- Ports sent back one after another: those in STEP mode are settled, the others stand in AWAIT_SLOT without a channel, on their way. -/
theorem State.sendBacks_but {P : PortIx → Prop} (ps : List PortIx) (once : ps.Nodup) (h : s.view.but P) (hp : ∀ p ∈ ps, P p) :
    (ps.foldl State.sendBack s).view.but (fun q => P q ∧ ¬(q ∈ ps ∧ (s.port q).mode = .step)) ∧
      (∀ q, q ∉ ps → (ps.foldl State.sendBack s).port q = s.port q) ∧
      (∀ q, ((ps.foldl State.sendBack s).port q).mode = (s.port q).mode) ∧
      ∀ q ∈ ps, (s.port q).mode ≠ .step →
        ((ps.foldl State.sendBack s).port q).state = .awaitSlot ∧ ((ps.foldl State.sendBack s).port q).channel = none := by
  induction ps generalizing s P with
  | nil => exact ⟨h.mono fun q => by simp, fun _ _ => rfl, fun _ => rfl, fun q hq => by cases hq⟩
  | cons p ps ih =>
    obtain ⟨fresh, once⟩ := List.nodup_cons.1 once
    obtain ⟨moved, others, waits⟩ := State.sendBack_but h (hp p List.mem_cons_self)
    have left : ∀ q ∈ ps, P q ∧ ¬(q = p ∧ (s.port p).mode = .step) := fun q hq =>
      ⟨hp q (List.mem_cons_of_mem _ hq), fun same => fresh (same.1 ▸ hq)⟩
    obtain ⟨all, rest, modes, settled⟩ := ih once moved left
    rw [List.foldl_cons]
    refine ⟨all.mono fun q => ?_, fun q hq => ?_, fun q => ?_, fun q hq mode => ?_⟩
    · rw [s.sendBack_mode p q, List.mem_cons]
      by_cases same : q = p
      · subst same; simp only [true_and, true_or]; tauto
      · simp [same]
    · rw [List.mem_cons, not_or] at hq
      rw [rest q hq.2, others q hq.1]
    · rw [modes q, s.sendBack_mode p q]
    · rcases List.mem_cons.1 hq with rfl | hq
      · rw [rest q fresh]
        exact waits mode
      · exact settled q hq (by rw [s.sendBack_mode p q]; exact mode)

/-- With every channel freed, the ports in TUNE are on their way. -/
theorem State.slots.freed (h : s.slots) :
    (s.setEsu { s.esu with channels := Vector.replicate 4 none }).view.but fun p => (s.port p).state = .tune := by
  have free : ∀ c : ChanIx, (Vector.replicate 4 none : Vector (Option Sweep) 4)[c] = none := fun c => by simp
  refine ⟨fun p _ => h.queued p, fun e he tune => ?_, h.once, h.ordered, fun p c other => ?_, fun c v hv => ?_,
    fun p other => h.channelled p, fun p c _ _ => free c⟩
  · have waits := (h.queued e.port).2 ⟨e, he, rfl⟩
    rw [waits] at tune; cases tune
  · refine ⟨fun tune => absurd tune.1 other, fun ⟨v, hv, _⟩ => ?_⟩
    rw [State.view_esu, State.setEsu_esu, free c] at hv; cases hv
  · rw [State.view_esu, State.setEsu_esu, free c] at hv; cases hv

theorem mem_allPorts (p : PortIx) : p ∈ allPorts := by revert p; decide

theorem allPorts_nodup : allPorts.Nodup := by decide

theorem State.mem_tuning (s : State) (p : PortIx) : p ∈ s.tuning ↔ (s.port p).state = .tune := by
  simp only [State.tuning, List.mem_filter, decide_eq_true_eq, mem_allPorts, true_and]

theorem State.tuning_nodup (s : State) : s.tuning.Nodup := allPorts_nodup.filter _

theorem State.esuReset_slots (h : s.slots) : s.esuReset.slots := by
  obtain ⟨view, others, modes, waits⟩ := State.sendBacks_but s.tuning s.tuning_nodup h.freed fun p hp => (s.mem_tuning p).1 hp
  refine State.grantTest_slots (State.slots_of_view (State.rejoin_slots view (fun p hp => ?_) (fun p hp => ?_)
    (queueReturn_perm _ _) (queueReturn_ordered _ _) ?_ fun p => ?_) rfl)
  · exact (waits p ((s.mem_tuning p).2 hp.1) fun step => hp.2 ⟨(s.mem_tuning p).2 hp.1, step⟩).1
  · exact (waits p ((s.mem_tuning p).2 hp.1) fun step => hp.2 ⟨(s.mem_tuning p).2 hp.1, step⟩).2
  · unfold State.returning
    rw [List.map_map]
    exact (s.tuning_nodup.filter _).map fun _ _ same => same
  · simp only [State.returning, List.mem_map, List.mem_filter, decide_eq_true_eq, exists_exists_and_eq_and, exists_eq_right, modes,
      s.mem_tuning]
    simp only [State.setEsu_port]
    tauto

/-! ### Every command -/

theorem Act.slots (act : Act c o s t) (h : s.slots) : t.slots := by
  cases act with
  | ports k => exact k.slots h
  | power rate _ => exact s.powered_slots rate
  | restart _ => exact State.slots_of_view (s.powered_slots s.mpt.rate) rfl
  | putSettings g _ => exact State.putSettings_slots h g
  | esuReset _ => exact State.esuReset_slots h
  | tick _ => exact State.tick_slots h
  | boundary _ => exact State.slots_of_view h s.boundary_view
  | receiveByte b => exact State.slots_of_view h (s.receiveByte_taken b).view
  | frameError => exact State.slots_of_view h s.frameError_taken.view
  | clearCounters _ => exact State.slots_of_view h s.clearCounters_view
  | setIdentity _ _ | setPlan _ _ _ | answer _ _ _ | sent | writeMpt _ _ _ _ | dropReports _ | setMask _ | clearReports =>
    exact State.slots_of_view h rfl

/-- Settles O59: every operation of a command keeps queue, channels and ports in step. -/
theorem stepKeepsQueueAndChannels : Obligations.StepKeepsQueueAndChannels := fun s _ h runs =>
  step_keeps h (fun _ q => exec_keeps (o := s.setPending q) (State.slots_of_view h rfl) (fun _ _ act k => act.slots k)
    fun _ k => State.closed_slots k) runs

end Sys2Proof.Machine
end


section
/-! SUPPORT. Every port record holds the fields of its own state only, under every operation (R17, R76, R77, R92, R122, R135, R154): the
changes that keep those fields, the changes of state, and one lemma per operation. -/

namespace Sys2Proof.Machine

variable {w : Bool} {c : Instr} {o s t : State} {p : PortIx} {x y : Port}

/-! ### Changes that keep the fields -/

/-- A change of a port record that keeps its state and adds nothing that belongs to one state only. -/
structure Port.AddsNothing (x y : Port) : Prop where
  state : y.state = x.state
  pending : y.pending ≠ none → x.pending ≠ none
  fault : y.fault ≠ none → x.fault ≠ none
  stageTimer : y.stageTimer ≠ none → x.stageTimer ≠ none
  cleanRun : y.cleanRun ≠ none → x.cleanRun ≠ none
  channel : y.channel ≠ none → x.channel ≠ none
  handover : y.handover ≠ none → x.handover ≠ none
  window : ∀ q, y.qualify = some q → q.begun = true → ∃ r, x.qualify = some r ∧ r.begun = true
  owner : ∀ l, (y.lane l).owner = .switch → (x.lane l).owner = .switch

theorem Port.AddsNothing.refl (x : Port) : x.AddsNothing x := ⟨rfl, id, id, id, id, id, id, fun q some begun => ⟨q, some, begun⟩, fun _ => id⟩

theorem Port.stageFields.keep (h : x.stageFields) (k : x.AddsNothing y) : y.stageFields where
  pending held := by rw [k.state]; exact h.pending (k.pending held)
  fault held := by rw [k.state]; exact h.fault (k.fault held)
  stageTimer held := by rw [k.state]; exact h.stageTimer (k.stageTimer held)
  cleanRun held := by rw [k.state]; exact h.cleanRun (k.cleanRun held)
  channel held := by rw [k.state]; exact h.channel (k.channel held)
  handover held := by rw [k.state]; exact h.handover (k.handover held)
  window q some begun := by
    obtain ⟨r, had, was⟩ := k.window q some begun
    rw [k.state]; exact h.window r had was
  owner l switch := by rw [k.state]; exact h.owner l (k.owner l switch)

/-- A change that leaves alone everything that belongs to one state only. -/
theorem Port.addsNothing_of_eq (state : y.state = x.state) (pending : y.pending = x.pending) (fault : y.fault = x.fault)
    (stageTimer : y.stageTimer = x.stageTimer) (cleanRun : y.cleanRun = x.cleanRun) (channel : y.channel = x.channel)
    (handover : y.handover = x.handover) (qualify : y.qualify = x.qualify) (owner : ∀ l, (y.lane l).owner = (x.lane l).owner) :
    x.AddsNothing y where
  state := state
  pending := by rw [pending]; exact id
  fault := by rw [fault]; exact id
  stageTimer := by rw [stageTimer]; exact id
  cleanRun := by rw [cleanRun]; exact id
  channel := by rw [channel]; exact id
  handover := by rw [handover]; exact id
  window q some begun := ⟨q, qualify ▸ some, begun⟩
  owner l switch := by rw [← owner l]; exact switch

theorem Port.addsNothing_mapLanes (x : Port) {f : LanePos → Lane → Lane} (h : ∀ l y, (f l y).owner = y.owner) :
    x.AddsNothing (x.mapLanes f) :=
  Port.addsNothing_of_eq rfl rfl rfl rfl rfl rfl rfl rfl fun l => by rw [Port.mapLanes_lane, h]

theorem Port.addsNothing_modLane (x : Port) (l : LanePos) {f : Lane → Lane} (h : ∀ y, (f y).owner = y.owner) :
    x.AddsNothing (x.modLane l f) :=
  Port.addsNothing_of_eq rfl rfl rfl rfl rfl rfl rfl rfl fun k => by
    rw [Port.modLane_lane]
    split
    next same => subst same; exact h _
    next => rfl

/-! ### The state -/

/-- Every port record holds the fields of its own state only. -/
def State.stages (s : State) : Prop := ∀ p, (s.port p).stageFields

theorem State.stages_of_ports (h : s.stages) (k : t.ports = s.ports) : t.stages := fun p => by
  rw [State.port, k]; exact h p

theorem State.modPort_stages (h : s.stages) (p : PortIx) {f : Port → Port} (k : (s.port p).AddsNothing (f (s.port p))) :
    (s.modPort p f).stages := fun q => by
  rw [State.modPort_port]
  split
  next same => subst same; exact (h p).keep k
  next => exact h q

theorem State.mapPorts_stages (h : s.stages) {f : PortIx → Port → Port} (k : ∀ p, (s.port p).AddsNothing (f p (s.port p))) :
    (s.mapPorts f).stages := fun p => by
  rw [State.mapPorts_port]
  exact (h p).keep (k p)

theorem State.modLane_stages (h : s.stages) (p : PortIx) (l : LanePos) {f : Lane → Lane} (k : ∀ y, (f y).owner = y.owner) :
    (s.modLane p l f).stages := State.modPort_stages h p ((s.port p).addsNothing_modLane l k)

theorem State.postPort_stages (h : s.stages) (p : PortIx) (d : Detail) : (s.postPort p d).stages := State.stages_of_ports h rfl

theorem State.postLane_stages (h : s.stages) (p : PortIx) (l : LanePos) (d : Detail) : (s.postLane p l d).stages :=
  State.stages_of_ports h rfl

theorem State.setEsu_stages (h : s.stages) (e : Esu) : (s.setEsu e).stages := State.stages_of_ports h rfl

theorem State.foldl_stages {α : Type} {f : State → α → State} (xs : List α) (k : ∀ t a, t.stages → (f t a).stages) (h : s.stages) :
    (xs.foldl f s).stages := by
  induction xs generalizing s with
  | nil => exact h
  | cons a xs ih => exact ih (k s a h)

theorem State.syncPort_stages (h : s.stages) (p : PortIx) : (s.syncPort p).stages :=
  State.modPort_stages h p ((s.port p).addsNothing_mapLanes fun _ _ => rfl)

theorem State.countLane_stages (h : s.stages) (p : PortIx) (l : LanePos) (i : Fin 7) (n : Nat) : (s.countLane p l i n).stages := by
  have counted : ∀ v, (s.modLane p l fun y => { y with counters := y.counters.set i v }).stages := fun v =>
    State.modLane_stages h p l fun _ => rfl
  unfold State.countLane
  dsimp only
  split
  · exact State.stages_of_ports (counted _) rfl
  · exact counted _

theorem State.countPort_stages (h : s.stages) (p : PortIx) (i : Fin 3) : (s.countPort p i).stages := by
  have counted : ∀ v, (s.modPort p fun x => { x with counters := x.counters.set i v }).stages := fun v =>
    State.modPort_stages h p (Port.addsNothing_of_eq rfl rfl rfl rfl rfl rfl rfl rfl fun _ => rfl)
  unfold State.countPort
  dsimp only
  split
  · exact State.stages_of_ports (counted _) rfl
  · exact counted _

/-! ### Loops -/

theorem Port.loopEntered_addsNothing (x : Port) : x.AddsNothing x.loopEntered := by
  unfold Port.loopEntered
  split
  · exact { Port.AddsNothing.refl x with stageTimer := fun held none => held (by simp [none]) }
  · exact .refl x

/-- A loop that ends starts a discovery timer in DISCOVER only (R30). -/
theorem Port.stageFields.loopLeft (h : x.stageFields) (g : Settings) : (x.loopLeft g).stageFields := by
  unfold Port.loopLeft
  split
  next left => exact { h with stageTimer := fun _ => by simp [left.1] }
  next => exact h

theorem State.judgeLoop_stages (h : s.stages) (p : PortIx) (l : LanePos) : (s.judgeLoop p l).stages := by
  have marked : ∀ b, (s.modLane p l fun y => { y with autoLoop := b }).stages := fun b => State.modLane_stages h p l (by intros; rfl)
  unfold State.judgeLoop
  split
  · exact h
  · split
    · exact State.modPort_stages (State.postLane_stages (marked true) p l _) p (Port.loopEntered_addsNothing _)
    · intro q
      rw [State.modPort_port]
      split
      · exact Port.stageFields.loopLeft (marked false p) _
      · exact marked false q

theorem State.judgeLoops_stages (h : s.stages) (p : PortIx) : (s.judgeLoops p).stages :=
  State.foldl_stages _ (fun _ l k => State.judgeLoop_stages k p l) h

/-! ### Changes of state -/

/-- A port record between two states: it holds nothing that belongs to one state only (R94). -/
structure Port.Bare (x : Port) : Prop where
  pending : x.pending = none
  fault : x.fault = none
  stageTimer : x.stageTimer = none
  cleanRun : x.cleanRun = none
  channel : x.channel = none
  handover : x.handover = none
  window : ∀ q, x.qualify = some q → q.begun = false
  owner : ∀ l, (x.lane l).owner = .part

theorem Lane.takeBack_owner (y : Lane) : y.takeBack.owner = .part := by
  unfold Lane.takeBack
  split
  · rfl
  next part => cases owner : y.owner with
    | part => rfl
    | switch => exact absurd owner part

theorem Port.undo_bare (x : Port) : x.undo.Bare where
  pending := rfl
  fault := rfl
  stageTimer := rfl
  cleanRun := rfl
  channel := rfl
  handover := rfl
  window q some := by
    have undone : x.undo.qualify = x.qualify.map fun q => { q with begun := false } := rfl
    rw [undone, Option.map_eq_some_iff] at some
    obtain ⟨r, -, rfl⟩ := some
    rfl
  owner l := by
    rw [Port.undo_lane]
    have parted : (x.undoneLane l).owner = ((x.lane l).takeBack).owner := by
      unfold Port.undoneLane
      dsimp only
      split <;> rfl
    rw [parted, Lane.takeBack_owner]

theorem State.undo_bare (s : State) (p : PortIx) : ((s.undo p).port p).Bare := by
  unfold State.undo
  dsimp only
  rw [State.modPort_port, if_pos rfl]
  exact Port.undo_bare _

/-- A bare record is in form in every state. -/
theorem Port.Bare.stageFields (h : x.Bare) (z : PortState) : Port.stageFields { x with state := z } where
  pending held := absurd h.pending held
  fault held := absurd h.fault held
  stageTimer held := absurd h.stageTimer held
  cleanRun held := absurd h.cleanRun held
  channel held := absurd h.channel held
  handover held := absurd h.handover held
  window q some begun := by rw [h.window q some] at begun; cases begun
  owner l switch := by
    have part : (Port.lane { x with state := z } l).owner = .part := h.owner l
    rw [part] at switch; cases switch

theorem Lane.listen_owner (y : Lane) (on : Bool) : (y.listen on).owner = y.owner := by
  unfold Lane.listen
  split
  · rfl
  · split <;> rfl

/-- A change of state to a record in form. -/
theorem State.transition_stages (h : s.stages) (p : PortIx) (new : PortState) (f : Port → Port)
    (k : ∀ x : Port, x.Bare → Port.stageFields { f x with state := new }) : (s.transition p new f).stages := by
  have arrived : (s.arrived p new f).stages := fun q => by
    rw [State.arrived, State.modPort_port]
    split
    next => exact (k _ (s.undo_bare p)).keep (Port.addsNothing_mapLanes _ fun _ y => y.listen_owner _)
    next other => rw [s.undo_port_other (Ne.symm other)]; exact h q
  rw [s.transition_eq]
  exact State.syncPort_stages (State.judgeLoops_stages (State.postPort_stages arrived p _) p) p

theorem State.transition_id_stages (h : s.stages) (p : PortIx) (new : PortState) : (s.transition p new id).stages :=
  State.transition_stages h p new id fun _ bare => bare.stageFields new

theorem State.enterPaused_stages (h : s.stages) (p : PortIx) (g : PendingStage) : (s.enterPaused p g).stages :=
  State.transition_stages (State.postPort_stages h p _) p .paused _ fun _ bare => { bare.stageFields .paused with pending := fun _ => rfl }

theorem State.grantTo_stages (h : s.stages) (p : PortIx) (c : ChanIx) : (s.grantTo p c).stages :=
  State.transition_stages (State.setEsu_stages h _) p .tune _ fun _ bare => { bare.stageFields .tune with channel := fun _ => rfl }

theorem State.grant_stages (h : s.stages) : s.grant.stages := by
  unfold State.grant
  split
  · split
    · exact State.grantTo_stages h _ _
    · exact h
  · exact h

theorem State.grantTest_stages (h : s.stages) : s.grantTest.stages :=
  State.grant_stages (State.grant_stages (State.grant_stages (State.grant_stages h)))

theorem State.afterAbort_stages (h : s.stages) (z : PortState) : (s.afterAbort z).stages := by
  unfold State.afterAbort
  split
  · exact State.grantTest_stages h
  · exact h

theorem State.enterAwaitSlot_stages (h : s.stages) (p : PortIx) : (s.enterAwaitSlot p).stages := by
  have joined : ((s.transition p .awaitSlot id).joinQueue p).stages := State.setEsu_stages (State.transition_id_stages h p _) _
  unfold State.enterAwaitSlot
  refine State.grantTest_stages ?_
  unfold State.countAttempt
  split
  · exact State.countPort_stages joined p _
  · exact joined

theorem State.toAwaitSlot_stages (h : s.stages) (p : PortIx) : (s.toAwaitSlot p).stages := by
  unfold State.toAwaitSlot
  split
  · exact State.enterPaused_stages h p _
  · exact State.enterAwaitSlot_stages h p

theorem State.peerTest_stages (h : s.stages) (p : PortIx) : (s.peerTest p).stages := by
  unfold State.peerTest
  split
  · exact State.toAwaitSlot_stages h p
  · exact h

theorem State.enterPeerWait_stages (h : s.stages) (p : PortIx) : (s.enterPeerWait p).stages := by
  unfold State.enterPeerWait
  refine State.peerTest_stages ?_ p
  exact State.transition_stages h p .peerWait _ fun _ bare => { bare.stageFields .peerWait with stageTimer := fun _ => by simp }

theorem State.toPeerWait_stages (h : s.stages) (p : PortIx) : (s.toPeerWait p).stages := by
  unfold State.toPeerWait
  split
  · exact State.enterPaused_stages h p _
  · exact State.enterPeerWait_stages h p

/-- A window begins in QUALIFY only (R135). -/
theorem State.windowTest_stages (h : s.stages) (p : PortIx) : (s.windowTest p).stages := by
  unfold State.windowTest
  split
  next begins =>
    refine State.syncPort_stages (fun q => ?_) p
    rw [State.modPort_port]
    split
    next => exact { h p with stageTimer := fun held => absurd rfl held, window := fun _ _ _ => begins.1 }
    next => exact h q
  next => exact h

theorem State.enterQualify_stages (h : s.stages) (p : PortIx) : (s.enterQualify p).stages := by
  unfold State.enterQualify
  refine State.windowTest_stages ?_ p
  exact State.transition_stages h p .qualify _ fun _ bare =>
    { bare.stageFields .qualify with stageTimer := fun _ => by simp, window := fun _ _ _ => rfl }

theorem State.toQualify_stages (h : s.stages) (p : PortIx) : (s.toQualify p).stages := by
  unfold State.toQualify
  split
  · exact State.enterPaused_stages h p _
  · exact State.enterQualify_stages h p

theorem State.enterHandover_stages (h : s.stages) (p : PortIx) : (s.enterHandover p).stages :=
  State.transition_stages h p .handover _ fun _ bare =>
    { bare.stageFields .handover with stageTimer := fun _ => by simp, handover := fun _ => rfl }

theorem State.toHandover_stages (h : s.stages) (p : PortIx) : (s.toHandover p).stages := by
  unfold State.toHandover
  split
  · exact State.enterPaused_stages h p _
  · exact State.enterHandover_stages h p

theorem State.enterActive_stages (h : s.stages) (p : PortIx) : (s.enterActive p).stages :=
  State.transition_stages h p .active _ fun _ bare =>
    { bare.stageFields .active with cleanRun := fun _ => rfl, owner := fun _ _ => rfl }

theorem State.enterFaulted_stages (h : s.stages) (p : PortIx) (r : FaultReason) : (s.enterFaulted p r).stages := by
  unfold State.enterFaulted
  refine State.afterAbort_stages (State.countPort_stages ?_ p _) _
  exact State.transition_stages (State.postPort_stages h p _) p .faulted _ fun _ bare =>
    { bare.stageFields .faulted with fault := fun _ => rfl }

theorem State.failedAttempt_stages (h : s.stages) (p : PortIx) (r : FaultReason) : (s.failedAttempt p r).stages := by
  have counted : (s.modPort p fun x => { x with attempts := x.attempts + 1 }).stages :=
    State.modPort_stages h p (Port.addsNothing_of_eq rfl rfl rfl rfl rfl rfl rfl rfl (by intros; rfl))
  unfold State.failedAttempt
  dsimp only
  split
  · exact State.enterFaulted_stages counted p r
  · exact State.toAwaitSlot_stages counted p

theorem State.reduceWidth_stages (h : s.stages) (p : PortIx) (c : WidthCause) : (s.reduceWidth p c).stages :=
  State.syncPort_stages (State.modPort_stages (State.postPort_stages h p _) p
    (Port.addsNothing_of_eq rfl rfl rfl rfl rfl rfl rfl rfl (by intros; rfl))) p

/-! ### Discovery -/

theorem State.enterConsult_stages (h : s.stages) (p : PortIx) (n : Snapshot) : (s.enterConsult p n).stages :=
  State.transition_stages (State.postPort_stages h p _) p .consult _ fun _ bare =>
    { bare.stageFields .consult with stageTimer := fun _ => by simp }

theorem State.byMode_stages (h : s.stages) (p : PortIx) : (s.byMode p).stages := by
  unfold State.byMode
  split
  · exact State.transition_id_stages h p _
  · exact State.toPeerWait_stages h p

theorem State.decide8_stages (h : s.stages) (p : PortIx) (n : Snapshot) (v : Option Verdict) (m : Vector MapEntry 8 × MapClass × Width) :
    (s.decide8 p n v m).stages := by
  have mapped : (s.modPort p fun x => { x with map := m.1, mapClass := some m.2.1, width := some m.2.2 }).stages :=
    State.modPort_stages h p (Port.addsNothing_of_eq rfl rfl rfl rfl rfl rfl rfl rfl (by intros; rfl))
  unfold State.decide8
  dsimp only
  split
  · exact State.enterConsult_stages mapped p n
  · exact State.byMode_stages mapped p

theorem State.derivation_stages (h : s.stages) (p : PortIx) : (s.derivation p).stages := by
  unfold State.derivation
  split
  · exact h
  next n _ =>
    have found : (s.modPort p fun x =>
        { x with neighbour := (derive n (s.port p).usables).neighbour, verdict := (derive n (s.port p).usables).verdict }).stages :=
      State.modPort_stages h p (Port.addsNothing_of_eq rfl rfl rfl rfl rfl rfl rfl rfl (by intros; rfl))
    dsimp only
    split
    · exact State.enterFaulted_stages found p _
    · exact State.decide8_stages found p n _ _

theorem State.discoveryTest_stages (h : s.stages) (p : PortIx) : (s.discoveryTest p).stages := by
  unfold State.discoveryTest
  split
  · exact State.derivation_stages h p
  · exact h

theorem State.darkTest_stages (h : s.stages) (p : PortIx) : (s.darkTest p).stages := by
  unfold State.darkTest
  split
  · exact State.enterFaulted_stages h p _
  · exact h

theorem State.enterDiscover_stages (h : s.stages) (p : PortIx) : (s.enterDiscover p).stages := by
  unfold State.enterDiscover
  refine State.darkTest_stages (State.discoveryTest_stages (State.afterAbort_stages ?_ _) p) p
  exact State.transition_stages h p .discover _ fun _ bare =>
    { bare.stageFields .discover with stageTimer := fun _ => by simp, window := fun _ some => by cases some }

theorem State.stopPort_stages (h : s.stages) (p : PortIx) : (s.stopPort p).stages := by
  unfold State.stopPort
  split
  · exact h
  · exact State.transition_stages h p .idle _ fun _ bare => { bare.stageFields .idle with window := fun _ some => by cases some }

theorem State.resetPort_stages (h : s.stages) (p : PortIx) : (s.resetPort p).stages :=
  State.modPort_stages (State.stopPort_stages h p) p
    (Port.addsNothing_of_eq rfl rfl rfl rfl rfl rfl rfl rfl fun l => by rw [Port.blockReset, Port.mapLanes_lane]; rfl)

/-! ### Sweeps -/

theorem State.sweepOutcome_stages (h : s.stages) (p : PortIx) (ys : List SweepLane) : (s.sweepOutcome p ys).stages := by
  unfold State.sweepOutcome
  split
  · exact State.toQualify_stages h p
  · split
    · exact State.toQualify_stages (State.reduceWidth_stages h p _) p
    · exact State.failedAttempt_stages h p _

theorem State.endSweep_stages (h : s.stages) (c : ChanIx) (v : Sweep) (d : Detail) : (s.endSweep c v d).stages :=
  State.grantTest_stages (State.sweepOutcome_stages (State.postPort_stages (State.setEsu_stages h _) _ d) _ _)

theorem State.writeGains_stages (h : s.stages) (v : Sweep) : (s.writeGains v).stages :=
  State.foldl_stages _ (fun t y k => by
    dsimp only
    split
    · exact State.modLane_stages k _ _ (by intros; rfl)
    · exact k) h

theorem State.completeSweep_stages (h : s.stages) (c : ChanIx) (v : Sweep) : (s.completeSweep c v).stages :=
  State.endSweep_stages (State.writeGains_stages h v) c v _

theorem State.watchdog_stages (h : s.stages) (c : ChanIx) : (s.watchdog c).stages := by
  unfold State.watchdog
  split
  · exact h
  · exact State.endSweep_stages h c _ _

theorem State.sweepBeacon_stages (h : s.stages) (p : PortIx) (l : LanePos) : (s.sweepBeacon p l).stages := by
  unfold State.sweepBeacon
  split
  · exact h
  · dsimp only
    split
    · exact State.completeSweep_stages h _ _
    · exact State.setEsu_stages h _

theorem State.sweepFigure_stages (h : s.stages) (p : PortIx) (l : LanePos) (n : Nat) (g : Byte) : (s.sweepFigure p l n g).stages := by
  unfold State.sweepFigure
  split
  · exact h
  · split
    · exact State.setEsu_stages h _
    · exact h

/-! ### Lane events -/

theorem State.takeRetrain_stages (h : s.stages) (p : PortIx) (l : LanePos) (c : RetrainCause) (v : Option (RetrainWindow × List Bool)) :
    (s.takeRetrain p l c v).stages := by
  have unstable : (s.modPort p fun x => { x with unstable := x.unstable + 1 }).stages :=
    State.modPort_stages h p (Port.addsNothing_of_eq rfl rfl rfl rfl rfl rfl rfl rfl (by intros; rfl))
  unfold State.takeRetrain
  split
  · exact State.enterFaulted_stages h p _
  · dsimp only
    refine State.toAwaitSlot_stages (State.modPort_stages (State.postPort_stages (State.countPort_stages unstable p _) p _) p ?_) p
    exact Port.addsNothing_of_eq rfl rfl rfl rfl rfl rfl rfl rfl (by intros; rfl)

theorem State.withdraw_stages (h : s.stages) (p : PortIx) (l : LanePos) (e : WithdrawEvent) : (s.withdraw p l e).stages :=
  State.enterDiscover_stages (State.postLane_stages h p l _) p

theorem State.lostEvent_stages (h : s.stages) (p : PortIx) (l : LanePos) (e : LaneEvent) : (s.lostEvent p l e).stages := by
  cases e with
  | silent => exact State.enterDiscover_stages (State.postLane_stages h p l _) p
  | identityChanged a b => exact State.enterDiscover_stages (State.postLane_stages h p l _) p
  | locked | stable | oneWay | twoWay => exact h

theorem State.huntEvent_stages (h : s.stages) (p : PortIx) (l : LanePos) (e : LaneEvent) : (s.huntEvent p l e).stages := by
  cases e with
  | identityChanged a b => exact State.enterDiscover_stages (State.postLane_stages h p l _) p
  | locked | stable | silent | oneWay | twoWay => exact h

theorem State.discoverEvent_stages (h : s.stages) (p : PortIx) (l : LanePos) (e : LaneEvent) : (s.discoverEvent p l e).stages := by
  cases e with
  | stable | twoWay => exact State.discoveryTest_stages h p
  | identityChanged a b =>
    unfold State.discoverEvent
    dsimp only
    split
    · exact State.modPort_stages h p { Port.AddsNothing.refl (s.port p) with stageTimer := fun held none => held (by
        simp [Port.restartDiscovery, none]) }
    · exact h
  | locked | silent | oneWay => exact h

theorem State.darkEvent_stages (h : s.stages) (p : PortIx) (l : LanePos) (e : LaneEvent) : (s.darkEvent p l e).stages := by
  cases e with
  | locked =>
    unfold State.darkEvent
    dsimp only
    split
    · exact h
    · exact State.enterFaulted_stages h p _
  | stable | silent | identityChanged _ _ | oneWay | twoWay => exact h

theorem State.consultEvent_stages (h : s.stages) (p : PortIx) (l : LanePos) (e : LaneEvent) : (s.consultEvent p l e).stages := by
  have taken : ∀ (b : Prop) [Decidable b] v, (if b then s.withdraw p l v else s).stages := fun b _ v => by
    split
    · exact State.withdraw_stages h p l v
    · exact h
  cases e with
  | silent | oneWay | identityChanged _ _ => exact taken _ _
  | locked | stable | twoWay => exact h

theorem State.laneEvent_stages (h : s.stages) (p : PortIx) (l : LanePos) (e : LaneEvent) : (s.laneEvent p l e).stages := by
  have lost : ∀ (b : Prop) [Decidable b], (if b then s.lostEvent p l e else s).stages := fun b _ => by
    split
    · exact State.lostEvent_stages h p l e
    · exact h
  unfold State.laneEvent
  split
  · split
    · exact State.discoverEvent_stages h p l e
    · exact State.darkEvent_stages h p l e
  · exact State.darkEvent_stages h p l e
  · exact State.consultEvent_stages h p l e
  any_goals exact lost _
  · split
    · exact State.huntEvent_stages h p l e
    · exact h
  all_goals exact h

theorem Port.readyHeard_addsNothing (x : Port) (l : LanePos) (ready : Bool) : x.AddsNothing (x.readyHeard l ready) :=
  { Port.AddsNothing.refl x with handover := fun held none => held (by simp [Port.readyHeard, none]) }

theorem State.farEndEvent_stages (h : s.stages) (p : PortIx) (l : LanePos) (b : Beacon) (g : Option Stage) :
    (s.farEndEvent p l b g).stages := by
  have discovers := State.enterDiscover_stages h p
  have fails := State.failedAttempt_stages h p .qualifyFail
  have back : ∀ (q : Prop) [Decidable q], (if q then s.enterDiscover p else s).stages := fun q _ => by
    split
    · exact discovers
    · exact h
  unfold State.farEndEvent
  dsimp only
  split
  · exact State.enterFaulted_stages h p _
  · split
    · exact State.peerTest_stages h p
    · exact back _
    · exact back _
    · exact back _
    · split
      · exact discovers
      · split
        · split
          · exact fails
          · exact h
        · exact State.windowTest_stages h p
    · split
      · exact discovers
      · split
        · exact fails
        · exact State.modPort_stages h p (Port.readyHeard_addsNothing _ l _)
    · exact h

theorem State.farTests_stages (h : s.stages) (p : PortIx) (l : LanePos) (b : Beacon) (g : Option Stage) : (s.farTests p l b g).stages := by
  have event : ∀ (q : Prop) [Decidable q], (if q then s.farEndEvent p l b g else s).stages := fun q _ => by
    split
    · exact State.farEndEvent_stages h p l b g
    · exact h
  unfold State.farTests
  split
  any_goals exact event _
  · split
    · exact State.takeRetrain_stages h p l _ _
    · exact h
  · exact h

theorem State.loopCheck_stages (h : s.stages) (p : PortIx) (l : LanePos) : (s.loopCheck p l).stages := by
  unfold State.loopCheck
  split
  · exact State.discoveryTest_stages (State.judgeLoop_stages h p l) p
  · exact State.judgeLoop_stages h p l

theorem State.reportChange_stages (h : s.stages) (p : PortIx) (l : LanePos) (e : LaneEvent) : (s.reportChange p l e).stages := by
  cases e with
  | identityChanged a b => exact State.postLane_stages h p l _
  | locked | stable | silent | oneWay | twoWay => exact h

theorem State.handEvents_stages (h : s.stages) (p : PortIx) (l : LanePos) (es : List LaneEvent) : (s.handEvents p l es).stages :=
  State.foldl_stages es (fun _ e k => State.laneEvent_stages k p l e)
    (State.loopCheck_stages (State.foldl_stages es (fun _ e k => State.reportChange_stages k p l e) h) p l)

theorem Lane.honour_owner (y : Lane) (t : Option Taps) : (y.honour t).owner = y.owner := by cases t <;> rfl

/-- The state once the receiver has taken a good beacon and its port the events, before the far end's stage and flags act (R7). -/
def State.heardGood (s : State) (p : PortIx) (l : LanePos) (b : Beacon) (pol : Polarity) : State :=
  let x := s.port p
  let out := (x.lane l).rx.good b pol
  ((s.countLane p l ctrBeaconGood 1).modLane p l fun y =>
    (if x.honoursTaps then y.honour b.tap else y).received out.1 (x.nearEnd l) (x.lock l) (x.correctionAfter l out.1)).handEvents p l out.2

theorem State.receiveGood_eq (s : State) (p : PortIx) (l : LanePos) (b : Beacon) (pol : Polarity) :
    s.receiveGood p l b pol = if ((s.heardGood p l b pol).port p).state = (s.port p).state
      then (s.heardGood p l b pol).farTests p l b (s.port p).farStage else s.heardGood p l b pol := rfl

theorem State.heardGood_stages (h : s.stages) (p : PortIx) (l : LanePos) (b : Beacon) (pol : Polarity) :
    (s.heardGood p l b pol).stages := by
  unfold State.heardGood
  refine State.handEvents_stages (State.modLane_stages (State.countLane_stages h p l _ _) p l fun y => ?_) p l _
  show (if (s.port p).honoursTaps then y.honour b.tap else y).owner = y.owner
  split
  · exact y.honour_owner b.tap
  · rfl

theorem State.receiveGood_stages (h : s.stages) (p : PortIx) (l : LanePos) (b : Beacon) (pol : Polarity) :
    (s.receiveGood p l b pol).stages := by
  rw [State.receiveGood_eq]
  split
  · exact State.farTests_stages (State.heardGood_stages h p l b pol) p l b _
  · exact State.heardGood_stages h p l b pol

theorem State.receiveBad_stages (h : s.stages) (p : PortIx) (l : LanePos) : (s.receiveBad p l).stages := by
  unfold State.receiveBad
  dsimp only
  refine State.handEvents_stages ?_ p l _
  unfold State.readyLost
  split
  · exact State.modPort_stages (State.modLane_stages (State.countLane_stages h p l _ _) p l (by intros; rfl)) p
      (Port.readyHeard_addsNothing _ l _)
  · exact State.modLane_stages (State.countLane_stages h p l _ _) p l (by intros; rfl)

theorem State.receive_stages (h : s.stages) (p : PortIx) (l : LanePos) (k : Classed) : (s.receive p l k).stages := by
  cases k with
  | nothing => exact h
  | bad => exact State.receiveBad_stages h p l
  | good b pol => exact State.receiveGood_stages h p l b pol

theorem State.silence_stages (h : s.stages) (p : PortIx) (l : LanePos) : (s.silence p l).stages :=
  State.handEvents_stages (State.modLane_stages h p l (by intros; rfl)) p l _

/-! ### Qualification and monitoring -/

theorem State.takeOutcome_stages (h : s.stages) (p : PortIx) (z : QualOutcome) : (s.takeOutcome p z).stages := by
  cases z with
  | handover => exact State.toHandover_stages h p
  | halfHandover => exact State.toHandover_stages (State.reduceWidth_stages h p _) p
  | failedAttempt => exact State.failedAttempt_stages h p _

theorem State.endWindow_stages (h : s.stages) (p : PortIx) (n : PlanEntry) (q : QualRecord) (d : Option (LanePos × LanePos)) :
    (s.endWindow p n q d).stages := State.takeOutcome_stages (State.postPort_stages h p _) p _

/-- The record a counted block leaves has the mark of the one before it. -/
theorem State.setQualify_stages (h : s.stages) {q r : QualRecord} (had : (s.port p).qualify = some r) (same : q.begun = r.begun) :
    (s.modPort p (·.setQualify q)).stages :=
  State.modPort_stages h p { Port.AddsNothing.refl (s.port p) with
    window := fun _ now begun => ⟨r, had, by cases now; rw [← same]; exact begun⟩ }

theorem State.afterBlock_stages (h : s.stages) {q r : QualRecord} (had : (s.port p).qualify = some r) (same : q.begun = r.begun)
    (n : PlanEntry) (e : QualEntry) : (s.afterBlock p n q e).stages := by
  unfold State.afterBlock
  split
  · exact State.endWindow_stages (State.setQualify_stages h had same) p _ _ _
  · split
    · exact State.endWindow_stages (State.setQualify_stages h had (q := q.judge n.grade) same) p _ _ _
    · exact State.setQualify_stages h had same

theorem State.qualifyBlock_stages (h : s.stages) (p : PortIx) (l : LanePos) (n : Nat) : (s.qualifyBlock p l n).stages := by
  unfold State.qualifyBlock
  split
  next _ _ _ had =>
    split
    · split
      · dsimp only
        exact State.afterBlock_stages h had (by rfl) _ _
      · exact h
    · exact h
  next => exact h

theorem State.countBlock_stages (h : s.stages) (p : PortIx) (l : LanePos) (n : Nat) : (s.countBlock p l n).stages := by
  have counted : (((s.modPort p (·.nextBlock l)).countLane p l ctrPrbsErr n).countLane p l ctrPrbsBlocks 1).stages :=
    State.countLane_stages (State.countLane_stages (State.modPort_stages h p ((s.port p).addsNothing_modLane l (by intros; rfl))) p l _ _) p l _ _
  unfold State.countBlock
  dsimp only
  split
  · exact State.qualifyBlock_stages counted p l n
  · exact counted

theorem State.judgePeriod_stages (h : s.stages) (p : PortIx) (l : LanePos) : (s.judgePeriod p l).stages := by
  unfold State.judgePeriod
  split
  · dsimp only
    split
    · exact State.countLane_stages (State.modLane_stages h p l (by intros; rfl)) p l _ _
    · exact State.modLane_stages h p l (by intros; rfl)
  · exact h

theorem State.takeTrigger_stages (h : s.stages) (p : PortIx) (l : LanePos) : (s.takeTrigger p l).stages := by
  unfold State.takeTrigger
  split
  · exact State.takeRetrain_stages h p l _ _
  · exact h

theorem State.takeTriggers_stages (n : Nat) (ks : List (PortIx × LanePos)) (h : s.stages) : (State.takeTriggers n ks s).stages := by
  induction n generalizing ks s with
  | zero => exact h
  | succ n ih =>
    match ks with
    | [] => exact h
    | [k] => exact State.takeTrigger_stages h _ _
    | a :: b :: ks => exact ih _ (State.takeTrigger_stages (s := s.useFree) h _ _)

/-! ### Requests and the line -/

theorem State.driftCheck_stages (h : s.stages) : s.driftCheck.stages := State.stages_of_ports h s.driftCheck_ports

theorem State.startInto_stages (h : s.stages) (p : PortIx) (m : Mode) : (s.startInto p m).stages := by
  have starts : (if (s.port p).state = .verified then s.toPeerWait p else s.enterDiscover p).stages := by
    split
    · exact State.toPeerWait_stages h p
    · exact State.enterDiscover_stages h p
  cases m with
  | manual => exact State.transition_id_stages h p _
  | verify => exact State.enterDiscover_stages h p
  | auto | step => exact starts

theorem State.stepInto_stages (h : s.stages) (p : PortIx) (g : Option PendingStage) : (s.stepInto p g).stages :=
  match g with
  | none => h
  | some .peerWait => State.enterPeerWait_stages h p
  | some .awaitSlot => State.enterAwaitSlot_stages h p
  | some .qualify => State.enterQualify_stages h p
  | some .handover => State.enterHandover_stages h p

theorem State.takeAnswer_stages (h : s.stages) (p : PortIx) (a : Bool) : (s.takeAnswer p a).stages := by
  unfold State.takeAnswer
  split
  · exact State.byMode_stages (State.modPort_stages h p (Port.addsNothing_of_eq rfl rfl rfl rfl rfl rfl rfl rfl (by intros; rfl))) p
  · exact State.enterFaulted_stages h p _

theorem Lane.retap_owner (y : Lane) (k : Polarity) : (y.retap k).owner = y.owner := by
  unfold Lane.retap
  split <;> rfl

theorem Port.AddsNothing.trans {z : Port} (h : x.AddsNothing y) (k : y.AddsNothing z) : x.AddsNothing z where
  state := k.state.trans h.state
  pending held := h.pending (k.pending held)
  fault held := h.fault (k.fault held)
  stageTimer held := h.stageTimer (k.stageTimer held)
  cleanRun held := h.cleanRun (k.cleanRun held)
  channel held := h.channel (k.channel held)
  handover held := h.handover (k.handover held)
  window q now begun := by
    obtain ⟨r, had, was⟩ := k.window q now begun
    exact h.window r had was
  owner l switch := h.owner l (k.owner l switch)

theorem Port.turnNearEnd_addsNothing (x z : Port) (l : LanePos) : z.AddsNothing (x.turnNearEnd z l) := by
  unfold Port.turnNearEnd
  split
  · exact z.addsNothing_modLane l (by intros; rfl)
  · split
    · exact z.addsNothing_modLane l (by intros; rfl)
    · exact .refl z

theorem Port.storeControl_addsNothing (x : Port) (l : LanePos) (k : Control) : x.AddsNothing (x.storeControl l k) := by
  unfold Port.storeControl
  dsimp only
  exact ((x.addsNothing_modLane l (by intros; rfl)).trans (Port.turnNearEnd_addsNothing _ _ l)).trans
    (Port.addsNothing_modLane _ l fun y => y.retap_owner _)

theorem State.storeControl_stages (h : s.stages) (p : PortIx) (l : LanePos) (k : Control) : (s.storeControl p l k).stages := by
  have stored : (((s.modPort p (·.storeControl l k)).loopCheck p l).syncPort p).stages :=
    State.syncPort_stages (State.loopCheck_stages (State.modPort_stages h p ((s.port p).storeControl_addsNothing l k)) p l) p
  unfold State.storeControl
  dsimp only
  split
  · unfold State.afterExclude
    split
    · exact State.withdraw_stages stored p l _
    · exact stored
  · split
    · unfold State.afterInclude
      split
      · exact State.discoveryTest_stages stored p
      · exact State.darkTest_stages stored p
    · exact stored

theorem Lane.spend_owner (y : Lane) (k : InjectKind) : (y.spend k).owner = y.owner := by
  unfold Lane.spend
  split <;> rfl

theorem State.handBeacon_stages (h : s.stages) (p : PortIx) (l : LanePos) : (s.handBeacon p l).stages := by
  have sent : (s.modPort p fun x => { x with handover := x.handover.map (·.addSent l) }).stages :=
    State.modPort_stages h p { Port.AddsNothing.refl (s.port p) with handover := fun held none => held (by simp [none]) }
  unfold State.handBeacon
  dsimp only
  split
  · exact State.enterActive_stages sent p
  · exact sent

theorem State.afterBeacon_stages (h : s.stages) (p : PortIx) (l : LanePos) : (s.afterBeacon p l).stages := by
  unfold State.afterBeacon
  split
  · exact State.sweepBeacon_stages h p l
  · exact State.handBeacon_stages h p l
  · exact h

theorem State.hearOwn_stages (h : s.stages) (p : PortIx) (l : LanePos) (bs : List Byte) : (s.hearOwn p l bs).stages := by
  unfold State.hearOwn
  split
  · exact State.receive_stages h p l _
  · exact h

theorem State.sendBeacon_stages (h : s.stages) (p : PortIx) (l : LanePos) (me : LocalId) : (s.sendBeacon p l me).stages := by
  unfold State.sendBeacon
  dsimp only
  refine State.hearOwn_stages (State.afterBeacon_stages (State.modLane_stages h p l fun y => ?_) p l) p l _
  exact y.spend_owner _

theorem State.loopBack_stages (h : s.stages) (p : PortIx) (l : LanePos) (bs : List Byte) : (s.loopBack p l bs).stages := by
  unfold State.loopBack
  split
  · exact State.modLane_stages h p l (by intros; rfl)
  · exact h

theorem State.setLock_stages (h : s.stages) (p : PortIx) (l : LanePos) (k : PatternLock) : (s.setLock p l k).stages :=
  State.syncPort_stages (State.modLane_stages h p l (by intros; rfl)) p

theorem State.discoveryExpiry_stages (h : s.stages) (p : PortIx) : (s.discoveryExpiry p).stages := by
  unfold State.discoveryExpiry
  split
  · split
    · exact State.enterFaulted_stages h p _
    · exact State.derivation_stages h p
  · split
    · exact State.enterFaulted_stages h p _
    · exact State.transition_id_stages h p _

theorem State.linkLost_stages (h : s.stages) (p : PortIx) (l : LanePos) (v : Hunt) : (s.linkLost p l v).stages :=
  State.enterDiscover_stages (State.postLane_stages h p l _) p

theorem Lane.startHunt_owner (y : Lane) : (if y.monitor.hunt = none then y.startHunt else y).owner = y.owner := by
  split <;> rfl

theorem PortAct.stages (act : PortAct w s t) (h : s.stages) : t.stages := by
  cases act with
  | started p m => exact State.modPort_stages h p (Port.addsNothing_of_eq rfl rfl rfl rfl rfl rfl rfl rfl (by intros; rfl))
  | autoMode p => exact State.modPort_stages h p (Port.addsNothing_of_eq rfl rfl rfl rfl rfl rfl rfl rfl (by intros; rfl))
  | startInto p m => exact State.startInto_stages h p m
  | stepInto p g => exact State.stepInto_stages h p g
  | stop p => exact State.stopPort_stages h p
  | reset p _ => exact State.resetPort_stages h p
  | afterAbort z => exact State.afterAbort_stages h z
  | grantTest => exact State.grantTest_stages h
  | takeAnswer p a => exact State.takeAnswer_stages h p a
  | storeControl p l k => exact State.storeControl_stages h p l k
  | inject p l i => exact State.modLane_stages h p l (by intros; rfl)
  | writeLane p l i v _ _ => exact State.modLane_stages h p l (by intros; rfl)
  | writePort p i v _ _ => exact State.modPort_stages h p (Port.addsNothing_of_eq rfl rfl rfl rfl rfl rfl rfl rfl (by intros; rfl))
  | driftCheck => exact State.driftCheck_stages h
  | loopBack p l bs => exact State.loopBack_stages h p l bs
  | receive p l k => exact State.receive_stages h p l k
  | silence p l => exact State.silence_stages h p l
  | discoveryExpiry p => exact State.discoveryExpiry_stages h p
  | fault p r => exact State.enterFaulted_stages h p r
  | figure p l n g => exact State.sweepFigure_stages h p l n g
  | sendBeacon p l me => exact State.sendBeacon_stages h p l me
  | blockBegun p l => exact State.modPort_stages h p ((s.port p).addsNothing_modLane l fun y => y.spend_owner _)
  | watchdog k => exact State.watchdog_stages h k
  | setLock p l k => exact State.setLock_stages h p l k
  | useFree => exact State.stages_of_ports h rfl
  | countBlock p l n => exact State.countBlock_stages h p l n
  | countLane p l i n => exact State.countLane_stages h p l i n
  | symbolError p l => exact State.modLane_stages h p l (by intros; rfl)
  | startHunt p l => exact State.modLane_stages h p l fun y => y.startHunt_owner
  | endHunt p l => exact State.modLane_stages h p l (by intros; rfl)
  | lockBlip p l n => exact State.postLane_stages h p l _
  | linkLost p l v => exact State.linkLost_stages h p l v
  | judgePeriod p l => exact State.judgePeriod_stages h p l
  | takeTriggers n ks => exact State.takeTriggers_stages n ks h
  | cleanRun p => exact State.modPort_stages h p { Port.AddsNothing.refl (s.port p) with cleanRun := fun held => absurd rfl held }

end Sys2Proof.Machine
end


section
/-! SUPPORT. Settings, plan, snapshots and the fields of every port's state stay legal under every operation (O58); the state after reset
(O60). -/

namespace Sys2Proof.Machine

variable {w : Bool} {c : Instr} {o s t : State}

/-! ### Settings -/

theorem clamp_range {lo hi : Nat} (h : lo ≤ hi) (n : Nat) : lo ≤ clamp lo hi n ∧ clamp lo hi n ≤ hi := by
  unfold clamp
  omega

/-- A settings write that is taken puts legal settings in effect (R176). -/
theorem judgeSettings_legal {r : RawSettings} {g : Settings} (h : judgeSettings r = some g) : g.legal := by
  simp only [judgeSettings, Option.bind_eq_bind, Option.bind_eq_some_iff, Option.pure_def, Option.some.injEq] at h
  obtain ⟨sampling, -, attention, -, rfl⟩ := h
  exact ⟨clamp_range (by decide) _, clamp_range (by decide) _, clamp_range (by decide) _, clamp_range (by decide) _,
    clamp_range (by decide) _, (clamp_range (by decide) _).2⟩

theorem Settings.legal.full {g : Settings} (h : g.legal) : Settings.legal { g with sweepLimit := 4 } :=
  { h with sweepLimit := by simp }

theorem Settings.reset_legal : Settings.reset.legal := by
  constructor <;> decide

/-! ### Power-on -/

theorem Lane.reset_owner : Lane.reset.owner = .part := rfl

theorem Port.reset_stageFields : Port.reset.stageFields where
  pending held := absurd rfl held
  fault held := absurd rfl held
  stageTimer held := absurd rfl held
  cleanRun held := absurd rfl held
  channel held := absurd rfl held
  handover held := absurd rfl held
  window _ some := by cases some
  owner l switch := by
    have part : Port.reset.lane l = .reset := by simp [Port.reset, Port.lane]
    rw [part, Lane.reset_owner] at switch
    cases switch

theorem State.powered_legal (s : State) (rate : LineRate) : (s.powered rate).recordsLegal where
  settings := Settings.reset_legal
  plan := Plan.reset_legal
  snapshots p := by rw [State.powered_port]; intro _ some; cases some
  stages p := by rw [State.powered_port]; exact Port.reset_stageFields

/-! ### Every operation -/

theorem State.recordsLegal.port (h : s.recordsLegal) (k : PortAct w s t) : t.recordsLegal where
  settings := k.moves.settings ▸ h.settings
  plan := k.moves.plan ▸ h.plan
  snapshots := k.moves.snapshots h.plan h.snapshots
  stages := k.stages h.stages

/-- A change that leaves settings, plan and ports alone. -/
theorem State.recordsLegal.same (h : s.recordsLegal) (settings : t.settings = s.settings) (plan : t.plan = s.plan)
    (ports : t.ports = s.ports) : t.recordsLegal where
  settings := settings ▸ h.settings
  plan := plan ▸ h.plan
  snapshots p := by rw [State.port, ports]; exact h.snapshots p
  stages := State.stages_of_ports h.stages ports

theorem State.recordsLegal.setSettings (h : s.recordsLegal) {g : Settings} (k : g.legal) : (s.setSettings g).recordsLegal :=
  ⟨k, h.plan, h.snapshots, h.stages⟩

theorem State.recordsLegal.setMpt (h : s.recordsLegal) (m : Mpt) : (s.setMpt m).recordsLegal := h.same rfl rfl rfl

theorem State.recordsLegal.setTime (h : s.recordsLegal) (x : TimeBase) : (s.setTime x).recordsLegal := h.same rfl rfl rfl

theorem State.recordsLegal.setEsu (h : s.recordsLegal) (e : Esu) : (s.setEsu e).recordsLegal := h.same rfl rfl rfl

theorem State.recordsLegal.setCountdown (h : s.recordsLegal) (n : Nat) : (s.setCountdown n).recordsLegal := h.same rfl rfl rfl

theorem State.recordsLegal.post (h : s.recordsLegal) (r : Report) : (s.post r).recordsLegal := h.same rfl rfl rfl

/-- Ports changed alike, each keeping its snapshot and adding nothing that belongs to one state only. -/
theorem State.recordsLegal.mapPorts (h : s.recordsLegal) {f : PortIx → Port → Port} (snapshot : ∀ p x, (f p x).snapshot = x.snapshot)
    (adds : ∀ p (x : Port), x.AddsNothing (f p x)) : (s.mapPorts f).recordsLegal where
  settings := by rw [State.mapPorts_settings]; exact h.settings
  plan := by rw [State.mapPorts_plan]; exact h.plan
  snapshots p := by
    rw [State.mapPorts_port]
    intro n held
    rw [snapshot] at held
    exact h.snapshots p n held
  stages := State.mapPorts_stages h.stages fun p => adds p _

theorem Port.tick_addsNothing (x : Port) : x.AddsNothing x.tick := by
  have timers : x.AddsNothing { x with stageTimer := x.stageTimer.map StageTimer.tick, cleanRun := x.cleanRun.map (· - 1) } :=
    { Port.AddsNothing.refl x with
      stageTimer := fun held none => held (by simp [none])
      cleanRun := fun held none => held (by simp [none]) }
  exact timers.trans (Port.addsNothing_mapLanes _ (by intros; rfl))

theorem State.recordsLegal.tick (h : s.recordsLegal) : s.tick.recordsLegal := by
  have ports : (s.mapPorts fun _ x => x.tick).recordsLegal := h.mapPorts (by intros; rfl) fun _ => Port.tick_addsNothing
  exact ((ports.setEsu _).setMpt _).setTime _

theorem State.recordsLegal.sampleAll (h : s.recordsLegal) : s.sampleAll.recordsLegal := by
  unfold State.sampleAll
  dsimp only
  have sampled : ∀ x : Port, x.AddsNothing { x with counters := Vector.ofFn fun i : Fin 3 => x.counters[i].sample } := fun x =>
    Port.addsNothing_of_eq rfl rfl rfl rfl rfl rfl rfl rfl (by intros; rfl)
  refine State.recordsLegal.setMpt (State.recordsLegal.mapPorts h ?_ fun _ x => ?_) _
  · intros; rfl
  · exact (sampled x).trans (Port.addsNothing_mapLanes _ (by intros; rfl))

theorem State.recordsLegal.clearCounters (h : s.recordsLegal) : s.clearCounters.recordsLegal := by
  unfold State.clearCounters
  dsimp only
  have cleared : ∀ x : Port, x.AddsNothing { x with counters := Vector.replicate 3 .zero } := fun x =>
    Port.addsNothing_of_eq rfl rfl rfl rfl rfl rfl rfl rfl (by intros; rfl)
  refine State.recordsLegal.setMpt (State.recordsLegal.mapPorts h ?_ fun _ x => ?_) _
  · intros; rfl
  · exact (cleared x).trans (Port.addsNothing_mapLanes _ (by intros; rfl))

theorem State.recordsLegal.boundary (h : s.recordsLegal) : s.boundary.recordsLegal := by
  have summed : ∀ u : State, u.recordsLegal → ∀ n, (u.summary n).recordsLegal := fun u k n => by
    unfold State.summary
    split
    · exact k
    · split
      · exact (k.post _).setCountdown _
      · exact k.setCountdown _
  exact summed _ (h.setTime _).sampleAll _

theorem State.recordsLegal.putSettings (h : s.recordsLegal) {g : Settings} (k : g.legal) : (s.putSettings g).recordsLegal := by
  have loaded : ∀ n, ((s.setSettings g).setCountdown n).recordsLegal := fun n => (h.setSettings k).setCountdown n
  have granted : ∀ u : State, u.recordsLegal → u.grantTest.recordsLegal := fun u k => k.port (w := false) .grantTest
  unfold State.putSettings
  dsimp only
  split
  · split
    · exact granted _ (loaded _)
    · exact granted _ (h.setSettings k)
  · split
    · exact loaded _
    · exact h.setSettings k

theorem State.sendBack_stages (h : s.stages) (p : PortIx) : (s.sendBack p).stages := by
  unfold State.sendBack
  split
  · exact State.enterPaused_stages h p _
  · exact State.transition_id_stages h p _

theorem State.recordsLegal.sendBack (h : s.recordsLegal) (p : PortIx) : (s.sendBack p).recordsLegal where
  settings := (s.sendBack_moves (w := false) p).settings ▸ h.settings
  plan := (s.sendBack_moves (w := false) p).plan ▸ h.plan
  snapshots := (s.sendBack_moves (w := false) p).snapshots h.plan h.snapshots
  stages := State.sendBack_stages h.stages p

/-- The sweeps of an ESU reset aborted and the ports in TUNE sent back (R132 steps 1 and 2). -/
def State.sentBack (s : State) : State :=
  s.tuning.foldl State.sendBack (s.setEsu { s.esu with channels := Vector.replicate 4 none })

theorem State.esuReset_eq_sentBack (s : State) :
    ∃ e, s.esuReset = ((s.sentBack.setEsu e).setSettings { s.sentBack.settings with sweepLimit := 4 }).grantTest := ⟨_, rfl⟩

theorem State.recordsLegal.sentBack (h : s.recordsLegal) : s.sentBack.recordsLegal := by
  have each : ∀ (ps : List PortIx) (u : State), u.recordsLegal → (ps.foldl State.sendBack u).recordsLegal := fun ps => by
    induction ps with
    | nil => exact fun _ k => k
    | cons p ps ih => exact fun u k => ih _ (k.sendBack p)
  exact each _ _ (h.setEsu _)

theorem State.recordsLegal.esuReset (h : s.recordsLegal) : s.esuReset.recordsLegal := by
  obtain ⟨e, eq⟩ := s.esuReset_eq_sentBack
  rw [eq]
  exact ((h.sentBack.setEsu e).setSettings h.sentBack.settings.full).port (w := false) .grantTest

theorem State.countMpt_ports (s : State) (i : Fin 2) : (s.countMpt i).ports = s.ports := by
  obtain ⟨rs, -, counted⟩ := s.countMpt_eq i
  rw [counted]

theorem State.recordsLegal.byteTaken (h : s.recordsLegal) (k : ByteTaken s t) : t.recordsLegal := by
  cases k with
  | counted a overrun i =>
    obtain ⟨-, -, settings, plan, -, -⟩ := State.countMpt_fields (s.setMpt { s.mpt with asm := a, overrun := overrun }) i
    exact h.same settings plan (State.countMpt_ports _ i)
  | dropped => exact h
  | moved _ => exact h.same rfl rfl rfl
  | joined _ _ _ _ => exact h.same rfl rfl rfl

theorem State.recordsLegal.act (h : s.recordsLegal) (act : Act c o s t) : t.recordsLegal := by
  cases act with
  | ports k => exact h.port k
  | power rate _ => exact s.powered_legal rate
  | restart _ => exact (s.powered_legal s.mpt.rate).same rfl rfl rfl
  | putSettings g judged =>
    obtain ⟨r, -, judged⟩ := judged
    exact h.putSettings (judgeSettings_legal judged)
  | setPlan q _ legal => exact ⟨h.settings, legal h.plan, h.snapshots, h.stages⟩
  | esuReset _ => exact h.esuReset
  | tick _ => exact h.tick
  | boundary _ => exact h.boundary
  | receiveByte b => exact h.byteTaken (s.receiveByte_taken b)
  | frameError => exact h.byteTaken s.frameError_taken
  | clearCounters _ => exact h.clearCounters
  | setIdentity _ _ | answer _ _ _ | sent | writeMpt _ _ _ _ | dropReports _ | setMask _ | clearReports => exact h.same rfl rfl rfl

/-- Settles O58: every operation of a command keeps settings, plan, snapshots and the fields of each state legal. -/
theorem stepKeepsRecordsLegal : Obligations.StepKeepsRecordsLegal := fun s _ h runs =>
  step_keeps h (fun _ q => exec_keeps (o := s.setPending q) (State.recordsLegal.same h rfl rfl rfl) (fun _ _ act k => k.act act)
    fun u k => State.recordsLegal.same k u.closed_settings u.closed_plan u.closed_ports) runs

/-! ### The state after reset (O60) -/

/-- Settles O60: reset is a power-on. -/
theorem resetMeetsInvariants : Obligations.ResetMeetsInvariants := by
  have form := InForm.powered State.reset .r115200
  exact ⟨form.reports, form.buffer, ⟨form.ports, form.management⟩, State.powered_legal State.reset .r115200,
    State.powered_slots State.reset .r115200⟩

end Sys2Proof.Machine
end


section
/-! SUPPORT. The frame of every command, the events a state does not take (O6), the front command (O1), the power-on values (O4), and the
frame assembler byte by byte (O7). -/

namespace Sys2Proof.Machine

variable {s t : State} {p : PortIx} {l : LanePos}

/-! ### The end of a command that kept no report back -/

theorem State.done_of_none (h : t.deferred = []) : t.done = .next t.settled := by
  rw [State.done, State.closed_of_none t h, State.settled, State.attention, ← h]

theorem State.opened_done (s : State) : s.opened.done = .next s.settled := State.done_of_none rfl

/-! ### The front of the queue (O1) -/

/-- Settles O1: by the definition of a step. -/
theorem stepRunsFrontCommand : Obligations.StepRunsFrontCommand :=
  ⟨fun _ _ _ => rfl, fun s empty => by unfold step; split <;> simp_all⟩

/-! ### Events not taken (O6) -/

section
variable (p : PortIx) (l : LanePos) (b : Byte) (s : State)

theorem exec_managementByteReceived_of_restarting (h : s.mpt.restarting = true) :
    exec (.managementByteReceived b) s = .next s.settled := by
  show State.done (if s.mpt.restarting then s.opened else s.opened.receiveByte b) = _
  rw [if_pos h, s.opened_done]

theorem exec_frameComplete_of_not (h : ¬(s.mpt.asm.lastByte = true ∧ s.mpt.restarting = false)) :
    exec (.frameComplete b) s = .next s.settled := by
  show State.done (if s.mpt.asm.lastByte ∧ s.mpt.restarting = false then s.opened.receiveByte b else s.opened) = _
  rw [if_neg h, s.opened_done]

theorem exec_gapTimerExpiry_of_hunt (h : s.mpt.asm.phase = .hunt) : exec .gapTimerExpiry s = .next s.settled := by
  show State.done (if s.mpt.asm.phase = .hunt then s.opened else s.opened.frameError) = _
  rw [if_pos h, s.opened_done]

theorem exec_silenceTimerExpiry_of_not (h : (s.lane p l).rx.timed = false) :
    exec (.silenceTimerExpiry p l) s = .next s.settled := by
  show State.done (if (s.lane p l).rx.timed then s.opened.silence p l else s.opened) = _
  rw [h]
  exact s.opened_done

theorem exec_discoveryTimerExpiry_of_not (h : ¬((s.port p).state = .discover ∧ (s.port p).timed = true)) :
    exec (.discoveryTimerExpiry p) s = .next s.settled := by
  show State.done (if (s.port p).state = .discover ∧ (s.port p).timed then s.opened.discoveryExpiry p else s.opened) = _
  rw [if_neg h, s.opened_done]

theorem exec_consultTimerExpiry_of_not (h : ¬((s.port p).state = .consult ∧ (s.port p).timed = true)) :
    exec (.consultTimerExpiry p) s = .next s.settled := by
  show State.done (if (s.port p).state = .consult ∧ (s.port p).timed then s.opened.enterFaulted p .consultTimeout else s.opened) = _
  rw [if_neg h, s.opened_done]

theorem exec_farEndWaitExpiry_of_not (h : ¬((s.port p).state.waitsFarEnd = true ∧ (s.port p).timed = true)) :
    exec (.farEndWaitExpiry p) s = .next s.settled := by
  show State.done (if (s.port p).state.waitsFarEnd ∧ (s.port p).timed then s.opened.enterFaulted p .farEndStall else s.opened) = _
  rw [if_neg h, s.opened_done]

theorem exec_watchdogExpiry_of_free (c : ChanIx) (h : s.esu.channels[c] = none) : exec (.watchdogExpiry c) s = .next s.settled := by
  have free : s.opened.watchdog c = s.opened := by
    have none_of : s.opened.esu.channels[c] = none := h
    unfold State.watchdog
    rw [none_of]
  show (s.opened.watchdog c).done = _
  rw [free, s.opened_done]

theorem exec_patternLock_of_not (h : (s.port p).takesLock l = false) :
    exec (.patternLockLost p l) s = .next s.settled ∧ exec (.patternLockRegained p l) s = .next s.settled := by
  constructor
  · show State.done (if (s.port p).takesLock l then s.opened.setLock p l .searching else s.opened) = _
    rw [h]
    exact s.opened_done
  · show State.done (if (s.port p).takesLock l then s.opened.setLock p l .locked else s.opened) = _
    rw [h]
    exact s.opened_done

theorem exec_testBlockTransmit_of_not (h : (s.port p).content l ≠ .prbs) :
    exec (.testBlockTransmit p l) s = .next s.settled := by
  show State.done (if (s.port p).content l = .prbs then s.opened.modPort p (·.blockBegun l) else s.opened) = _
  rw [if_neg h, s.opened_done]

theorem exec_cleanRunExpiry_of_not (h : ¬((s.port p).state = .active ∧ (s.port p).cleanRun ≠ none)) :
    exec (.cleanRunExpiry p) s = .next s.settled := by
  show State.done (if (s.port p).state = .active ∧ (s.port p).cleanRun ≠ none then _ else s.opened) = _
  rw [if_neg h, s.opened_done]

/-- A tap event of a lane that the part owns (R19). -/
theorem exec_tapEvents_of_part (h : (s.lane p l).owner = .part) :
    exec (.symbolError p l) s = .next s.settled ∧ exec (.blockLockLost p l) s = .next s.settled := by
  constructor
  · show State.done (if (s.lane p l).owner = .switch then _ else s.opened) = _
    rw [if_neg (by rw [h]; exact nofun), s.opened_done]
  · show State.done (if (s.lane p l).owner = .switch then _ else s.opened) = _
    rw [if_neg (by rw [h]; exact nofun), s.opened_done]

/-- The end of a hunt on a lane that does not hunt, or that the part owns (R157). -/
theorem exec_huntEnds_of_not (h : (s.lane p l).owner = .part ∨ (s.lane p l).monitor.hunt = none) :
    exec (.blockLockRegained p l) s = .next s.settled ∧ exec (.recoveryTimerExpiry p l) s = .next s.settled := by
  constructor
  · show State.done (match (s.lane p l).owner, (s.lane p l).monitor.hunt with
      | .switch, some h => (s.opened.modLane p l Lane.endHunt).postLane p l (.lockBlip (Config.recoveryMs - h.remaining))
      | _, _ => s.opened) = _
    rcases h with owner | hunt
    · rw [owner]; exact s.opened_done
    · rw [hunt]; cases (s.lane p l).owner <;> exact s.opened_done
  · show State.done (match (s.lane p l).owner, (s.lane p l).monitor.hunt with
      | .switch, some h => s.opened.linkLost p l h
      | _, _ => s.opened) = _
    rcases h with owner | hunt
    · rw [owner]; exact s.opened_done
    · rw [hunt]; cases (s.lane p l).owner <;> exact s.opened_done

end

theorem State.sweepFigure_of_late {n : Nat} {g : Byte} (h : s.figureDue p l ≠ some n) : s.sweepFigure p l n g = s := by
  unfold State.sweepFigure
  split
  · rfl
  · rw [if_neg h]

/-- A figure of merit is due to a running sweep of its number whose lane waits for one (R124). -/
theorem State.figureDue_eq_some {n : Nat} (h : s.figureDue p l = some n) :
    ∃ d w z, (s.port p).channel = some d ∧ s.esu.channels[d] = some w ∧ w.number = n ∧ z ∈ w.lanes ∧ z.pos = l ∧ z.phase = .measure := by
  simp only [State.figureDue, State.sweepOf, Option.bind_eq_some_iff, Option.map_eq_some_iff, Option.ite_none_right_eq_some,
    List.any_eq_true, decide_eq_true_eq, Option.some.injEq] at h
  obtain ⟨-, ⟨d, channel, w, record, rfl⟩, ⟨z, lane, pos, phase⟩, number⟩ := h
  exact ⟨d, w, z, channel, record, number, lane, pos, phase⟩

theorem exec_figureOfMerit_of_late (f : Figure) (h : (s.port p).state ≠ .tune ∨ s.figureDue p l ≠ some f.sweep) :
    exec (.figureOfMerit p l f) s = .next s.settled := by
  have dropped : (if (s.port p).state = .tune then s.opened.sweepFigure p l f.sweep f.value else s.opened) = s.opened := by
    split
    next tune => exact State.sweepFigure_of_late (h.resolve_left fun other => other tune)
    next => rfl
  show State.done (if (s.port p).state = .tune then s.opened.sweepFigure p l f.sweep f.value else s.opened) = _
  rw [dropped, s.opened_done]

theorem exec_testBlockEnd_of_not (n : Fin 1048577) (h : (s.port p).counts l = false ∨ (s.lane p l).checker = .off ∨
    (s.lane p l).checker = .waiting) : exec (.testBlockEnd p l n) s = .next s.settled := by
  show execTestBlockEnd p l n s = _
  unfold execTestBlockEnd
  split
  next counts block =>
    rcases h with h | h | h
    · rw [h] at counts; cases counts
    · rw [h] at block; cases block
    · rw [h] at block; cases block
  next => exact s.opened_done

theorem exec_beaconTransmit_of_not (h : s.identity = none ∨ (s.port p).beacons l = false) :
    exec (.beaconTransmit p l) s = .next s.settled := by
  show execBeaconTransmit p l s = _
  unfold execBeaconTransmit
  split
  next me identity =>
    rcases h with h | h
    · rw [h] at identity; cases identity
    · rw [h]; exact s.opened_done
  next => exact s.opened_done

theorem exec_replySent_of_not (h : ∀ e ∈ s.mpt.buffer.head?, e.answered = false) : exec .replySent s = .next s.settled := by
  have waits : headAnswered s.mpt.buffer = false := by
    unfold headAnswered
    cases head : s.mpt.buffer.head? with
    | none => rfl
    | some e => exact h e head
  have runs : s.mpt.buffer.head?.any BufEntry.restarts = false := by
    cases head : s.mpt.buffer.head? with
    | none => rfl
    | some e =>
      have unanswered := h e head
      unfold BufEntry.answered at unanswered
      simp only [Option.any_some, BufEntry.restarts]
      cases phase : e.phase with
      | answered _ _ => rw [phase] at unanswered; cases unanswered
      | waiting | handed => simp
  show State.done (if s.mpt.buffer.head?.any BufEntry.restarts then s.opened.restarted else s.opened.setMpt s.mpt.sent) = _
  rw [runs, Mpt.sent, waits]
  exact s.opened_done

theorem Receiver.timed_eq_false {r : Receiver} (h : r.state = .off ∨ r.suspended = true ∨ r.silence = none) : r.timed = false := by
  rcases h with h | h | h <;> simp [Receiver.timed, h]

theorem Port.timed_eq_false {x : Port} (h : ∀ u ∈ x.stageTimer, u.halted = true) : x.timed = false := by
  unfold Port.timed
  cases timer : x.stageTimer with
  | none => rfl
  | some u => simp [h u timer]

theorem Mpt.restarting_of_mem {m : Mpt} (h : ∃ e ∈ m.buffer, e.restarts = true) : m.restarting = true :=
  List.any_eq_true.2 h

/-- Settles O6: each event's guard fails, and the command ends as it began. -/
theorem eventsNotAdmittedChangeNothing : Obligations.EventsNotAdmittedChangeNothing := by
  intro p l c b n number s
  refine ⟨fun taken => ?_, exec_gapTimerExpiry_of_hunt s, fun early => ?_, exec_replySent_of_not, fun still => ?_, fun still => ?_,
    fun still => ?_, fun still => ?_, fun late => ?_, exec_watchdogExpiry_of_free s c, fun deaf => ?_, exec_testBlockEnd_of_not n,
    exec_testBlockTransmit_of_not p l s, fun silent => ?_, exec_tapEvents_of_part p l s, exec_huntEnds_of_not p l s, fun still => ?_⟩
  · have restarting := Mpt.restarting_of_mem taken
    exact ⟨exec_managementByteReceived_of_restarting b s restarting, exec_frameComplete_of_not b s (by simp [restarting])⟩
  · refine exec_frameComplete_of_not b s fun last => ?_
    have held := of_decide_eq_true last.1
    rcases early with phase | short
    · exact phase held.1
    · omega
  · exact exec_silenceTimerExpiry_of_not p l s (Receiver.timed_eq_false still)
  · exact exec_discoveryTimerExpiry_of_not p s fun ⟨state, timed⟩ => still.elim (· state) fun halted => by
      rw [Port.timed_eq_false halted] at timed; cases timed
  · exact exec_consultTimerExpiry_of_not p s fun ⟨state, timed⟩ => still.elim (· state) fun halted => by
      rw [Port.timed_eq_false halted] at timed; cases timed
  · refine exec_farEndWaitExpiry_of_not p s fun ⟨state, timed⟩ => still.elim (fun others => ?_) fun halted => ?_
    · cases at_ : (s.port p).state <;> simp_all [PortState.waitsFarEnd]
    · rw [Port.timed_eq_false halted] at timed; cases timed
  · refine exec_figureOfMerit_of_late _ (late.imp_right fun none_waits due => ?_)
    obtain ⟨d, w, z, channel, record, numbered, lane, pos, phase⟩ := State.figureDue_eq_some due
    exact (none_waits d w channel record).elim (· numbered) fun others => others z lane pos phase
  · refine exec_patternLock_of_not p l s ?_
    have deaf : ((s.port p).lane l).owner = .switch ∨ ((s.port p).lane l).rx.state = .off ∨ (s.port p).nearEnd l = true := deaf
    rcases deaf with h | h | h <;> simp [Port.takesLock, h]
  · exact exec_beaconTransmit_of_not (silent.imp_right fun h => by simp [Port.beacons, h.1, h.2])
  · exact exec_cleanRunExpiry_of_not p s fun ⟨state, run⟩ => still.elim (· state) run

/-! ### The power-on values (O4) -/

/-- Settles O4: field by field. -/
theorem resetValues : Obligations.ResetValues := by
  have port : ∀ p, State.reset.port p = .reset := fun p => by simp [State.reset, State.powerOn, State.port]
  have lane : ∀ p l, State.reset.lane p l = .reset := fun p l => by rw [State.lane, port]; simp [Port.reset, Port.lane]
  have loop : ∀ l, Port.reset.loopback l = .none := by decide
  unfold Obligations.ResetValues
  simp only [port, lane, loop]
  refine ⟨?_, fun p l => ?_, fun p i => ?_, ?_, fun p l i => ?_, rfl, fun n => ?_, fun n p => ?_, rfl, fun c => ?_, rfl, rfl, fun k => ?_,
    rfl, rfl, rfl, rfl, rfl, fun i => ?_, rfl, rfl, rfl, rfl, rfl, rfl⟩
  · simp [Port.reset]
  · simp [Port.reset, MapEntry.empty]
  · simp [Port.reset, Counter.zero]
  · exact fun _ _ => ⟨rfl, rfl, rfl, rfl, rfl, rfl, trivial, rfl, rfl, rfl, rfl, rfl, rfl, rfl⟩
  · simp [Lane.reset, Counter.zero]
  · cases n <;> rfl
  · cases n <;> simp [State.reset, State.powerOn, Plan.reset, Plan.entry, Plan.layer, Layer.reset, PlanEntry.resetEmpty,
      PlanEntry.resetBackground]
  · simp [State.reset, State.powerOn, Esu.reset]
  · simp [State.reset, State.powerOn, ReportList.reset]
  · simp [State.reset, State.powerOn, Mpt.reset, Counter.zero]

/-! ### The frame assembler (O7) -/

section
variable {b : Byte}

theorem State.receiveByte_start (h : s.mpt.asm.phase = .hunt) (k : b = startByte) :
    s.receiveByte b = s.setMpt { s.mpt with asm := { phase := .length, length := 0, bytes := [], gap := gapRunning } } := by
  simp only [State.receiveByte, h, if_pos k]

theorem State.receiveByte_noise (h : s.mpt.asm.phase = .hunt) (k : b ≠ startByte) : s.receiveByte b = s := by
  simp only [State.receiveByte, h, if_neg k]

theorem State.receiveByte_length (h : s.mpt.asm.phase = .length) (k : 2 ≤ b.toNat ∧ b.toNat ≤ 250) :
    s.receiveByte b = s.setMpt { s.mpt with asm := { phase := .collect, length := b.toNat, bytes := [], gap := gapRunning } } := by
  simp only [State.receiveByte, h, if_pos k]

theorem State.receiveByte_more (h : s.mpt.asm.phase = .collect) (k : s.mpt.asm.bytes.length + 1 < s.mpt.asm.length) :
    s.receiveByte b = s.setMpt { s.mpt with asm :=
      { phase := .collect, length := s.mpt.asm.length, bytes := s.mpt.asm.bytes ++ [b], gap := gapRunning } } := by
  simp only [State.receiveByte, h, if_pos k]

theorem State.receiveByte_lastContent (h : s.mpt.asm.phase = .collect) (k : s.mpt.asm.length ≤ s.mpt.asm.bytes.length + 1) :
    s.receiveByte b = s.setMpt { s.mpt with asm :=
      { phase := .check, length := s.mpt.asm.length, bytes := s.mpt.asm.bytes ++ [b], gap := gapRunning } } := by
  simp only [State.receiveByte, h, if_neg (Nat.not_lt.2 k)]

theorem State.receiveByte_firstCheck (h : s.mpt.asm.phase = .check) (k : s.mpt.asm.bytes.length < s.mpt.asm.length + 1) :
    s.receiveByte b = s.setMpt { s.mpt with asm :=
      { phase := .check, length := s.mpt.asm.length, bytes := s.mpt.asm.bytes ++ [b], gap := gapRunning } } := by
  simp only [State.receiveByte, h, if_pos (by omega : s.mpt.asm.bytes.length + 1 < s.mpt.asm.length + 2)]

/-- A byte that only moves the assembler. -/
theorem exec_managementByteReceived_moves {m : Mpt} (running : ∀ e ∈ s.mpt.buffer, e.restarts = false)
    (h : s.opened.receiveByte b = s.opened.setMpt m) : exec (.managementByteReceived b) s = .next { s with mpt := m }.settled := by
  rw [exec_managementByteReceived running, h]
  exact State.done_of_none rfl

end

/-- Settles O7: row by row of the table of R170. -/
theorem assemblerTakesBytes : Obligations.AssemblerTakesBytes := by
  intro b s running
  refine ⟨fun phase start => ?_, fun phase noise => ?_, fun phase low high => ?_, fun phase more => ?_, fun phase last => ?_,
    fun phase first => ?_⟩
  · exact exec_managementByteReceived_moves running (State.receiveByte_start (s := s.opened) phase start)
  · exact exec_managementByteReceived_moves running (m := s.mpt) (State.receiveByte_noise (s := s.opened) phase noise)
  · exact exec_managementByteReceived_moves running (State.receiveByte_length (s := s.opened) phase ⟨low, high⟩)
  · exact exec_managementByteReceived_moves running (State.receiveByte_more (s := s.opened) phase more)
  · exact exec_managementByteReceived_moves running (State.receiveByte_lastContent (s := s.opened) phase last)
  · exact exec_managementByteReceived_moves running (State.receiveByte_firstCheck (s := s.opened) phase first)

end Sys2Proof.Machine
end


section
/-! SUPPORT. Frames, the request buffer, replies and the resets of the whole part (O5, O9, O10, O11). -/

namespace Sys2Proof.Machine

/-! ### Reading a request that is a RESTART -/

theorem orBadLength_eq_ok_iff {x : Option Instr} {i : Instr} : orBadLength x = .ok i ↔ x = some i := by
  cases x <;> simp [orBadLength]

theorem parseRequest_unknown {code : Byte} (h : 24 < code.toNat) (body : List Byte) : parseRequest code body = .ok (.unknownCode code) := by
  delta parseRequest parseRequest.match_1
  dsimp only
  iterate 24 rw [dif_neg (by omega)]
  rw [if_neg (by omega)]

theorem planTarget_ne_restart (a b : Byte) (e : RawEntry) : planTarget a b e ≠ .restart := by
  unfold planTarget
  split <;> exact nofun

theorem readBlock_ne_restart (a b : Byte) : readBlock a b ≠ .ok .restart := by
  intro h
  unfold readBlock at h
  split at h
  next i block =>
    cases h
    have named := List.mem_of_getElem? block
    simp at named
  next => cases h

theorem restart_of_parse {code : Byte} {body : List Byte} (h : parseRequest code body = .ok .restart) : code = 0x18 ∧ body = [] := by
  by_cases unknown : 24 < code.toNat
  · rw [parseRequest_unknown unknown] at h; cases h
  obtain rfl | rfl | rfl | rfl | rfl | other : code = 0x05 ∨ code = 0x06 ∨ code = 0x16 ∨ code = 0x17 ∨ code = 0x18 ∨
      code ∉ [(0x05 : Byte), 0x06, 0x16, 0x17, 0x18] := by
    simp only [List.mem_cons, List.not_mem_nil, or_false]; tauto
  · rcases body with _ | ⟨target, _ | ⟨port, e⟩⟩
    · cases h
    · cases h
    · obtain ⟨x, -, made⟩ := Option.map_eq_some_iff.1 (orBadLength_eq_ok_iff.1 h)
      exact absurd made (planTarget_ne_restart target port x)
  · rcases body with _ | ⟨layer, _ | ⟨first, _ | ⟨count, _ | ⟨direction, e⟩⟩⟩⟩
    · cases h
    · cases h
    · cases h
    · cases h
    · obtain ⟨x, -, made⟩ := Option.map_eq_some_iff.1 (orBadLength_eq_ok_iff.1 h)
      cases made
  · obtain ⟨x, -, made⟩ := Option.map_eq_some_iff.1 (orBadLength_eq_ok_iff.1 (show orBadLength ((readMask body).map .reportMask) = _ from h))
    cases made
  · rcases body with _ | ⟨block, _ | ⟨port, _ | ⟨more, rest⟩⟩⟩
    · cases h
    · cases h
    · exact absurd h (readBlock_ne_restart block port)
    · cases h
  · cases body with
    | nil => exact ⟨rfl, rfl⟩
    | cons => cases h
  · obtain ⟨n, small, rfl⟩ : ∃ n, n ≤ 24 ∧ code = BitVec.ofNat 8 n := ⟨code.toNat, by omega, by simp⟩
    rcases body with _ | ⟨_, _ | ⟨_, _ | ⟨_, _ | ⟨_, _ | ⟨_, _ | ⟨_, _ | ⟨_, _ | ⟨_, _ | ⟨_, _ | ⟨_, _ | ⟨_, _ | ⟨_, _ | ⟨_, _ | ⟨_, _⟩⟩⟩⟩⟩⟩⟩⟩⟩⟩⟩⟩⟩⟩
    all_goals interval_cases n <;> first | (cases h; done) | exact absurd (by decide) other

/-! ### The request buffer's operations, case by case -/

theorem Mpt.turn_quiet {m : Mpt} {b : List BufEntry} {sending : Bool} (h : sending = true ∨ headAnswered (handOn b) = false) :
    m.turn b sending = { m with buffer := handOn b } := by
  unfold Mpt.turn
  dsimp only
  rw [if_neg]
  rcases h with h | h <;> simp [h]

/-- A head that has become answered has its reply begun (R172, R173). -/
theorem Mpt.turn_sends {m : Mpt} {b es : List BufEntry} {e : BufEntry} {st : Status} {body : List Byte} (h : handOn b = e :: es)
    (phase : e.phase = .answered st body) :
    m.turn b false = { m with
      buffer := e :: es
      overrun := false
      line := some { code := e.code, tag := some e.tag, status := st, overrun := m.overrun, body := body } } := by
  have answered : headAnswered (e :: es) = true := by simp [headAnswered, BufEntry.answered, phase]
  obtain ⟨code, tag, bytes, ph⟩ := e
  subst phase
  unfold Mpt.turn
  dsimp only
  rw [h, if_pos (by simpa using answered)]
  rfl

theorem headAnswered_handed {e : BufEntry} {es : List BufEntry} (h : e.phase = .handed) : headAnswered (e :: es) = false := by
  simp [headAnswered, BufEntry.answered, h]

theorem headAnswered_of_answered {e : BufEntry} {es : List BufEntry} (h : e.answered = true) : headAnswered (e :: es) = true := by
  simpa [headAnswered] using h

theorem BufEntry.answered_iff {e : BufEntry} : e.answered = true ↔ ∃ st body, e.phase = .answered st body := by
  cases phase : e.phase <;> simp [BufEntry.answered, phase]

theorem BufEntry.restarts_of_code {e : BufEntry} (h : e.code ≠ 0x18) : e.restarts = false := by
  unfold BufEntry.restarts
  rw [decide_eq_false h, Bool.false_and]

theorem BufEntry.asks_iff {e : BufEntry} {i : Instr} : e.asks i = true ↔ parseRequest e.code e.body = .ok i := by
  cases read : parseRequest e.code e.body <;> simp [BufEntry.asks, read]

theorem BufEntry.asks_restart_iff {e : BufEntry} : e.asks .restart = true ↔ e.code = 0x18 ∧ e.body = [] := by
  rw [BufEntry.asks_iff]
  refine ⟨restart_of_parse, fun ⟨code, body⟩ => ?_⟩
  rw [code, body]
  rfl

/-- The code of a request other than a RESTART. -/
theorem BufEntry.code_ne_of_asks {e : BufEntry} {i : Instr} (h : e.asks i = true) (k : i ≠ .restart) : e.code ≠ 0x18 := by
  intro code
  rw [BufEntry.asks_iff, code] at h
  cases body : e.body with
  | nil => rw [body] at h; cases h; exact k rfl
  | cons b bs => rw [body] at h; cases h

/-- Where no entry in hand asks for a request, its answer goes to no entry. -/
theorem answerIn_eq_none {i : Instr} {b : List BufEntry} (h : ∀ e ∈ b, ¬(e.phase = .handed ∧ e.asks i = true)) (st : Status)
    (body : List Byte) : answerIn i st body b = none := by
  induction b with
  | nil => rfl
  | cons e es ih =>
    cases phase : e.phase with
    | answered st' body' => rw [answerIn_answered phase, ih fun d hd => h d (List.mem_cons_of_mem _ hd)]; rfl
    | handed =>
      rw [answerIn_handed phase, if_neg]
      exact fun asks => h e List.mem_cons_self ⟨phase, asks⟩
    | waiting => exact answerIn_waiting phase i st body

theorem answerIn_of_handed {e : BufEntry} {i : Instr} (phase : e.phase = .handed) (asks : e.asks i = true) (es : List BufEntry)
    (st : Status) (body : List Byte) : answerIn i st body (e :: es) = some ({ e with phase := .answered st body } :: es) := by
  rw [answerIn_handed phase, if_pos asks]

/-- The answer of the request at the head: its reply begins, and the next request is handed on. -/
theorem Mpt.answer_head {m : Mpt} {e : BufEntry} {es : List BufEntry} {i : Instr} (buffer : m.buffer = e :: es) (phase : e.phase = .handed)
    (asks : e.asks i = true) (st : Status) (body : List Byte) :
    m.answer i st body = { m with
      buffer := { e with phase := .answered st body } ::
        (if BufEntry.restarts { e with phase := .answered st body } then es else handOn es)
      overrun := false
      line := some { code := e.code, tag := some e.tag, status := st, overrun := m.overrun, body := body } } := by
  unfold Mpt.answer
  rw [buffer, answerIn_of_handed phase asks es st body, headAnswered_handed phase]
  exact Mpt.turn_sends (e := { e with phase := .answered st body }) (handOn_answered rfl) rfl

/-- The answer of a request behind an answered one waits for that one's reply. -/
theorem Mpt.answer_second {m : Mpt} {d e : BufEntry} {i : Instr} (buffer : m.buffer = [d, e]) (first : d.answered = true)
    (phase : e.phase = .handed) (asks : e.asks i = true) (st : Status) (body : List Byte) :
    m.answer i st body = { m with buffer := [d, { e with phase := .answered st body }] } := by
  obtain ⟨st', body', answered⟩ := BufEntry.answered_iff.1 first
  unfold Mpt.answer
  rw [buffer, answerIn_answered answered, answerIn_of_handed phase asks [] st body, headAnswered_of_answered first]
  simp only [Option.map_some]
  rw [Mpt.turn_quiet (.inl rfl), handOn_answered answered, handOn_answered (e := { e with phase := .answered st body }) rfl]
  simp [handOn]

/-- A request that reached its owner without a frame is answered by a reply without a tag. -/
theorem Mpt.answer_untagged {m : Mpt} {i : Instr} (h : ∀ e ∈ m.buffer, ¬(e.phase = .handed ∧ e.asks i = true)) (st : Status)
    (body : List Byte) :
    m.answer i st body = { m with
      overrun := false
      line := some { code := requestCode i, tag := none, status := st, overrun := m.overrun, body := body } } := by
  unfold Mpt.answer
  rw [answerIn_eq_none h]
  rfl

/-- The reply of the head has been sent: the buffer without it, the next request handed on. -/
theorem exec_replySent_plain {s : State} {e : BufEntry} {es : List BufEntry} (buffer : s.mpt.buffer = e :: es) (answered : e.answered = true)
    (plain : e.code ≠ 0x18) : exec .replySent s = .next { s with mpt := s.mpt.turn es false }.settled := by
  show State.done (if s.mpt.buffer.head?.any BufEntry.restarts then s.opened.restarted else s.opened.setMpt s.mpt.sent) = _
  rw [if_neg (by simp [buffer, BufEntry.restarts_of_code plain]), Mpt.sent, buffer, if_pos (headAnswered_of_answered answered)]
  exact State.done_of_none rfl

/-- Settles O11: one lemma for each place of the request whose owner answers or whose reply has been sent. -/
theorem repliesLeaveInOrder : Obligations.RepliesLeaveInOrder := by
  refine ⟨fun m i st body e buffer phase asks => ?_, fun m i j st body e f other buffer phase asks waits read => ?_,
    fun m i st body e f buffer first phase asks => Mpt.answer_second buffer first phase asks st body,
    fun m i st body none_asks => Mpt.answer_untagged none_asks st body, fun s e buffer answered plain => ?_,
    fun s e f buffer answered plain phase => ?_, fun s e f st body buffer answered plain phase => ?_⟩
  · rw [Mpt.answer_head buffer phase asks st body]
    simp [handOn]
  · have goesOn : BufEntry.restarts { e with phase := .answered st body } = false :=
      BufEntry.restarts_of_code (e := { e with phase := .answered st body }) (BufEntry.code_ne_of_asks asks other)
    rw [Mpt.answer_head buffer phase asks st body, goesOn, handOn_read waits read]
    rfl
  · rw [exec_replySent_plain buffer answered plain, Mpt.turn_quiet (.inr rfl)]
    rfl
  · have stands : handOn [f] = [f] := handOn_handed phase
    rw [exec_replySent_plain buffer answered plain, Mpt.turn_quiet (.inr (by rw [stands]; exact headAnswered_handed phase)), stands]
  · have stands : handOn [f] = [f] := by rw [handOn_answered phase]; simp [handOn]
    rw [exec_replySent_plain buffer answered plain, Mpt.turn_sends stands phase]

/-! ### A good frame (O9) -/

section
variable {s : State} {b : Byte} {code tag : Byte} {body : List Byte} {c : Instr}

theorem State.receiveByte_lastCheck (phase : s.mpt.asm.phase = .check) (last : s.mpt.asm.length + 1 ≤ s.mpt.asm.bytes.length) :
    s.receiveByte b = s.judgeFrame s.mpt.asm.length (s.mpt.asm.bytes ++ [b]) := by
  simp only [State.receiveByte, phase, if_neg (by omega : ¬s.mpt.asm.bytes.length + 1 < s.mpt.asm.length + 2)]

theorem State.judgeFrame_good {n : Nat} {bs : List Byte} (content : bs.take n = code :: tag :: body)
    (check : bs.drop n = checkBytes (byte n :: code :: tag :: body)) :
    s.judgeFrame n bs = (s.setMpt { s.mpt with asm := .hunting }).takeFrame code tag body := by
  unfold State.judgeFrame
  dsimp only
  rw [content, if_pos check]

/-- The second check byte of a good frame, by either command. -/
theorem exec_goodFrame (command : c = .managementByteReceived b ∨ c = .frameComplete b) (phase : s.mpt.asm.phase = .check)
    (last : s.mpt.asm.length + 1 ≤ s.mpt.asm.bytes.length) (running : ∀ e ∈ s.mpt.buffer, e.restarts = false)
    (content : (s.mpt.asm.bytes ++ [b]).take s.mpt.asm.length = code :: tag :: body)
    (check : (s.mpt.asm.bytes ++ [b]).drop s.mpt.asm.length = checkBytes (byte s.mpt.asm.length :: code :: tag :: body)) :
    exec c s = ((s.opened.setMpt { s.mpt with asm := .hunting }).takeFrame code tag body).done := by
  have judged : exec c s = (s.opened.receiveByte b).done := by
    rcases command with rfl | rfl
    · exact exec_managementByteReceived running
    · exact exec_frameComplete running phase last
  rw [judged, State.receiveByte_lastCheck (s := s.opened) phase last]
  exact congrArg State.done (State.judgeFrame_good (s := s.opened) content check)

theorem State.takeFrame_room (room : s.mpt.buffer.length < 2) : s.takeFrame code tag body =
    s.setMpt (s.mpt.turn (s.mpt.buffer ++ [{ code := code, tag := tag, body := body, phase := .waiting }]) (headAnswered s.mpt.buffer)) :=
  if_pos room

theorem State.takeFrame_overrun (full : 2 ≤ s.mpt.buffer.length) :
    s.takeFrame code tag body = (s.setMpt { s.mpt with overrun := true }).countMpt ctrOverruns := if_neg (by omega)

/-- A frame that finds room, and the management port it leaves. -/
theorem State.takeFrame_done {s : State} {m : Mpt} (room : s.mpt.buffer.length < 2)
    (turned : Mpt.turn { s.mpt with asm := .hunting } (s.mpt.buffer ++ [{ code := code, tag := tag, body := body, phase := .waiting }])
      (headAnswered s.mpt.buffer) = m) :
    ((s.opened.setMpt { s.mpt with asm := .hunting }).takeFrame code tag body).done = .next { s with mpt := m }.settled := by
  rw [State.takeFrame_room (s := s.opened.setMpt { s.mpt with asm := .hunting }) room]
  subst turned
  exact State.done_of_none rfl

/-- A counting event in the management port that ends a command: everything else stays, and the report list too where the counter does
not saturate. -/
theorem State.countMpt_done (s : State) (h : s.deferred = []) (i : Fin 2) : ∃ t, (s.countMpt i).done = .next t ∧
    t.mpt = { s.mpt with counters := s.mpt.counters.set i (s.mpt.counters[i].bump shortCounterMax 1) } ∧
    t.ports = s.ports ∧ t.plan = s.plan ∧ t.esu = s.esu ∧ t.settings = s.settings ∧ t.identity = s.identity ∧
    (s.mpt.counters[i].saturates shortCounterMax 1 = false → t.reports = s.reports) := by
  obtain ⟨rs, quiet, counted⟩ := s.countMpt_eq i
  refine ⟨_, rfl, ?_, ?_, ?_, ?_, ?_, ?_, fun clear => ?_⟩
  · rw [State.closed_mpt, counted]
  · rw [State.closed_ports, counted]
  · rw [State.closed_plan, counted]
  · rw [State.closed_esu, counted]
  · rw [State.closed_settings, counted]
  · rw [State.closed_identity, counted]
  · rw [State.closed_reports, counted, quiet clear, h]
    rfl

end

/-- Settles O9: the frame joins the buffer, or counts as an overrun. -/
theorem goodFrameJoinsBuffer : Obligations.GoodFrameJoinsBuffer := by
  intro b code tag body c s command phase last running content check
  rw [exec_goodFrame command phase last running content check]
  refine ⟨fun i empty read => ?_, fun st empty unread => ?_, fun e one phase => ?_, fun e i one answered read => ?_,
    fun e st one answered unread => ?_, fun full => ?_⟩
  · refine State.takeFrame_done (by simp [empty]) ?_
    rw [empty, List.nil_append, Mpt.turn_quiet (.inr (by rw [handOn_read (e := { code := code, tag := tag, body := body, phase := .waiting }) rfl read]; rfl)), handOn_read (e := { code := code, tag := tag, body := body, phase := .waiting }) rfl read]
  · refine State.takeFrame_done (by simp [empty]) ?_
    rw [empty, List.nil_append]
    exact Mpt.turn_sends (handOn_refused (e := { code := code, tag := tag, body := body, phase := .waiting }) rfl unread) rfl
  · refine State.takeFrame_done (by simp [one]) ?_
    rw [one, List.singleton_append, Mpt.turn_quiet (.inr (by rw [handOn_handed phase]; exact headAnswered_handed phase)), handOn_handed phase]
  · obtain ⟨st', body', phase⟩ := BufEntry.answered_iff.1 answered
    refine State.takeFrame_done (by simp [one]) ?_
    rw [one, List.singleton_append, Mpt.turn_quiet (.inl (headAnswered_of_answered answered)), handOn_answered phase,
      running e (by simp [one]), if_neg Bool.false_ne_true, handOn_read (e := { code := code, tag := tag, body := body, phase := .waiting }) rfl read]
  · obtain ⟨st', body', phase⟩ := BufEntry.answered_iff.1 answered
    refine State.takeFrame_done (by simp [one]) ?_
    rw [one, List.singleton_append, Mpt.turn_quiet (.inl (headAnswered_of_answered answered)), handOn_answered phase,
      running e (by simp [one]), if_neg Bool.false_ne_true,
      handOn_refused (e := { code := code, tag := tag, body := body, phase := .waiting }) rfl unread]
    rfl
  · rw [State.takeFrame_overrun (s := s.opened.setMpt { s.mpt with asm := .hunting }) full]
    exact State.countMpt_done ((s.opened.setMpt { s.mpt with asm := .hunting }).setMpt
      { s.mpt with asm := .hunting, overrun := true }) rfl ctrOverruns

end Sys2Proof.Machine
end


section
/-! SUPPORT. A frame on the management line, byte by byte (O10), and the resets of the whole part (O5). -/

namespace Sys2Proof.Machine

variable {s t : State}

/-! ### Runs of commands -/

theorem runAll_append {xs ys : List Instr} (h : runAll xs s = .next t) : runAll (xs ++ ys) s = runAll ys t := by
  induction xs generalizing s with
  | nil => cases h; rfl
  | cons x xs ih =>
    unfold runAll at h
    rw [List.cons_append, runAll]
    cases step : exec x s with
    | next u => rw [step] at h; exact ih h
    | fault f => rw [step] at h; cases h
    | refused r => rw [step] at h; cases h

theorem runAll_cons {x : Instr} {xs : List Instr} (h : exec x s = .next t) : runAll (x :: xs) s = runAll xs t := by
  rw [runAll, h]

/-! ### The assembler on the line (O10) -/

/-- A state whose assembler stands as given, at the end of a command. -/
def State.assembling (s : State) (a : Assembler) : State := State.settled { s with mpt := { s.mpt with asm := a } }

theorem toNat_byte {n : Nat} (h : n < 256) : (byte n).toNat = n := by simp [byte]; omega

/-- A byte that only moves the assembler, where no request is held. -/
theorem State.assembling_receive (empty : s.mpt.buffer = []) {a a' : Assembler} {b : Byte}
    (h : (s.assembling a).opened.receiveByte b = (s.assembling a).opened.setMpt { (s.assembling a).mpt with asm := a' }) :
    exec (.managementByteReceived b) (s.assembling a) = .next (s.assembling a') :=
  exec_managementByteReceived_moves (fun e he => by
    have held : e ∈ s.mpt.buffer := he
    rw [empty] at held; cases held) h

/-- The bytes of a frame's content, one after another. -/
theorem State.assembling_collect (empty : s.mpt.buffer = []) {n : Nat} {gap : Option Nat} (xs ys : List Byte) (x : Byte)
    (h : ys.length + xs.length + 1 = n) :
    runAll ((xs ++ [x]).map Instr.managementByteReceived) (s.assembling { phase := .collect, length := n, bytes := ys, gap := gap }) =
      .next (s.assembling { phase := .check, length := n, bytes := ys ++ xs ++ [x], gap := gapRunning }) := by
  induction xs generalizing ys gap with
  | nil =>
    have last : n ≤ ys.length + 1 := by simp only [List.length_nil] at h; omega
    have taken : exec (.managementByteReceived x) (s.assembling { phase := .collect, length := n, bytes := ys, gap := gap }) =
        .next (s.assembling { phase := .check, length := n, bytes := ys ++ [x], gap := gapRunning }) :=
      State.assembling_receive empty (State.receiveByte_lastContent (s := (s.assembling _).opened) rfl last)
    rw [List.nil_append, List.map_singleton, runAll_cons taken, List.append_nil]
    rfl
  | cons y xs ih =>
    have more : ys.length + 1 < n := by simp only [List.length_cons] at h; omega
    have taken : exec (.managementByteReceived y) (s.assembling { phase := .collect, length := n, bytes := ys, gap := gap }) =
        .next (s.assembling { phase := .collect, length := n, bytes := ys ++ [y], gap := gapRunning }) :=
      State.assembling_receive empty (State.receiveByte_more (s := (s.assembling _).opened) rfl more)
    have left : (ys ++ [y]).length + xs.length + 1 = n := by
      simp only [List.length_append, List.length_cons, List.length_nil] at h ⊢
      omega
    rw [List.cons_append, List.map_cons, runAll_cons taken, ih (ys ++ [y]) left]
    simp

/-- A frame on the line: each byte moves the assembler, and the last hands the frame on. -/
theorem runAll_frame {code tag : Byte} {body : List Byte} {i : Instr} (short : body.length ≤ 248) (read : parseRequest code body = .ok i)
    (hunts : s.mpt.asm = .hunting) (empty : s.mpt.buffer = []) :
    runAll ((frameBytes code tag body).map Instr.managementByteReceived) s =
      .next (State.settled { s with mpt := { s.mpt with buffer := [{ code := code, tag := tag, body := body, phase := .handed }] } }) := by
  have running : ∀ e ∈ s.mpt.buffer, e.restarts = false := fun e he => by rw [empty] at he; cases he
  have begun : exec (.managementByteReceived startByte) s =
      .next (s.assembling { phase := .length, length := 0, bytes := [], gap := gapRunning }) :=
    exec_managementByteReceived_moves running (State.receiveByte_start (s := s.opened) (congrArg Assembler.phase hunts) rfl)
  have size : (byte (2 + body.length)).toNat = 2 + body.length := toNat_byte (by omega)
  have sized : exec (.managementByteReceived (byte (2 + body.length)))
      (s.assembling { phase := .length, length := 0, bytes := [], gap := gapRunning }) =
      .next (s.assembling { phase := .collect, length := 2 + body.length, bytes := [], gap := gapRunning }) := by
    refine State.assembling_receive empty ((State.receiveByte_length (s := (s.assembling _).opened) rfl ⟨?_, ?_⟩).trans ?_)
    · omega
    · omega
    · rw [size]; rfl
  obtain ⟨xs, x, content⟩ : ∃ xs x, code :: tag :: body = xs ++ [x] :=
    ⟨_, _, (List.dropLast_append_getLast (List.cons_ne_nil _ _)).symm⟩
  have length : xs.length + 1 = 2 + body.length := by
    have count := congrArg List.length content
    simp only [List.length_cons, List.length_append, List.length_nil] at count
    omega
  have collected := State.assembling_collect empty (gap := gapRunning) xs [] x (n := 2 + body.length) (by simpa using length)
  rw [← content, List.nil_append, ← content] at collected
  generalize sum : crc16 (byte (2 + body.length) :: code :: tag :: body) = crc
  have checked : exec (.managementByteReceived (byte (crc.toNat / 256)))
      (s.assembling { phase := .check, length := 2 + body.length, bytes := code :: tag :: body, gap := gapRunning }) =
      .next (s.assembling { phase := .check, length := 2 + body.length, bytes := (code :: tag :: body) ++ [byte (crc.toNat / 256)],
                            gap := gapRunning }) := by
    refine State.assembling_receive empty (State.receiveByte_firstCheck (s := (s.assembling _).opened) rfl ?_)
    show (code :: tag :: body).length < 2 + body.length + 1
    simp only [List.length_cons]
    omega
  have whole : (code :: tag :: body).length = 2 + body.length := by simp only [List.length_cons]; omega
  have last : 2 + body.length + 1 ≤ ((code :: tag :: body) ++ [byte (crc.toNat / 256)]).length := by
    rw [List.length_append, whole]
    exact Nat.le_refl _
  have content' : (((code :: tag :: body) ++ [byte (crc.toNat / 256)]) ++ [byte crc.toNat]).take (2 + body.length) = code :: tag :: body := by
    rw [List.append_assoc, ← whole]
    exact List.take_left
  have check : (((code :: tag :: body) ++ [byte (crc.toNat / 256)]) ++ [byte crc.toNat]).drop (2 + body.length) =
      checkBytes (byte (2 + body.length) :: code :: tag :: body) := by
    rw [List.append_assoc, checkBytes, sum, ← whole]
    exact List.drop_left
  have taken := (goodFrameJoinsBuffer (byte crc.toNat) code tag body (.managementByteReceived (byte crc.toNat))
    (s.assembling { phase := .check, length := 2 + body.length, bytes := (code :: tag :: body) ++ [byte (crc.toNat / 256)],
                    gap := gapRunning })
    (.inl rfl) rfl last running content' check).1 i empty read
  have frame : frameBytes code tag body = startByte :: byte (2 + body.length) :: ((code :: tag :: body) ++
      [byte (crc.toNat / 256), byte crc.toNat]) := by
    rw [frameBytes, checkBytes, sum]
    rfl
  rw [frame, List.map_cons, List.map_cons, runAll_cons begun, runAll_cons sized, List.map_append, runAll_append collected]
  simp only [List.map_cons, List.map_nil]
  rw [runAll_cons checked, runAll_cons taken, runAll, ← hunts]
  rfl

/-- Settles O10: by the run of a frame's bytes. -/
theorem frameOnTheLineReachesItsOwner : Obligations.FrameOnTheLineReachesItsOwner :=
  fun _ _ _ _ _ short read hunts empty => runAll_frame short read hunts empty

/-! ### The resets of the whole part (O5) -/

theorem State.powered_done (s : State) (rate : LineRate) : (s.powered rate).done = .next (s.powered rate) := State.done_of_none rfl

theorem strapRate_of_mem {r1 r0 : Bool} {rate : LineRate}
    (h : (r1, r0, rate) ∈ [(false, false, LineRate.r115200), (false, true, .r460800), (true, false, .r921600), (true, true, .r3000000)]) :
    strapRate r1 r0 = rate := by
  simp only [List.mem_cons, Prod.mk.injEq, List.not_mem_nil, or_false] at h
  rcases h with ⟨rfl, rfl, rfl⟩ | ⟨rfl, rfl, rfl⟩ | ⟨rfl, rfl, rfl⟩ | ⟨rfl, rfl, rfl⟩ <;> rfl

theorem State.restarted_done (s : State) : s.restarted.done = .next s.restarted := State.done_of_none rfl

/-- A RESTART that the buffer holds in hand is answered there. -/
theorem exec_restart_held {b : List BufEntry} (held : answerIn .restart .ok [] s.mpt.buffer = some b) :
    exec .restart s = .next (State.settled { s with mpt := s.mpt.answer .restart .ok [] }) := by
  show State.done (if (answerIn .restart .ok [] s.mpt.buffer).isSome then s.opened.accept .restart []
    else (s.opened.accept .restart []).restarted) = _
  rw [held, Option.isSome_some, if_pos rfl]
  exact State.done_of_none rfl

theorem BufEntry.asks_restart {e : BufEntry} (code : e.code = 0x18) (body : e.body = []) : e.asks .restart = true :=
  BufEntry.asks_restart_iff.2 ⟨code, body⟩

/-- Settles O5: by cases on where the RESTART stands. -/
theorem wholePartResets : Obligations.WholePartResets := by
  refine ⟨fun r1 r0 rate s straps => ?_, fun s unheld => ?_, fun s e es buffer phase code body => ?_,
    fun s d e buffer first phase code body => ?_, fun s e es body buffer code phase => ?_⟩
  · rw [← strapRate_of_mem straps]
    exact ⟨State.powered_done s _, State.powered_done s _⟩
  · have apart : ∀ e ∈ s.mpt.buffer, ¬(e.phase = .handed ∧ e.asks .restart = true) := fun e he ⟨phase, asks⟩ =>
      unheld e he ⟨phase, (BufEntry.asks_restart_iff.1 asks).1, (BufEntry.asks_restart_iff.1 asks).2⟩
    show State.done (if (answerIn .restart .ok [] s.mpt.buffer).isSome then s.opened.accept .restart []
      else (s.opened.accept .restart []).restarted) = _
    rw [answerIn_eq_none apart, Option.isSome_none, if_neg Bool.false_ne_true, State.restarted_done]
    have replied : (s.opened.accept .restart []).mpt = { s.mpt with
        overrun := false
        line := some { code := 0x18, tag := none, status := .ok, overrun := s.mpt.overrun, body := [] } } :=
      Mpt.answer_untagged (m := s.mpt) apart .ok []
    rw [State.restarted, replied]
    rfl
  · have asks := BufEntry.asks_restart code body
    have taken : BufEntry.restarts { e with phase := .answered .ok [] } = true := by simp [BufEntry.restarts, code]
    rw [exec_restart_held (by rw [buffer]; exact answerIn_of_handed phase asks es .ok []), Mpt.answer_head buffer phase asks, taken, if_pos rfl,
      code]
  · obtain ⟨st, reply, answered⟩ := BufEntry.answered_iff.1 first
    have asks := BufEntry.asks_restart code body
    have held : answerIn .restart .ok [] s.mpt.buffer = some [d, { e with phase := .answered .ok [] }] := by
      rw [buffer, answerIn_answered answered, answerIn_of_handed phase asks]
      rfl
    rw [exec_restart_held held, Mpt.answer_second buffer first phase asks]
  · have taken : e.restarts = true := by simp [BufEntry.restarts, code, phase]
    show State.done (if s.mpt.buffer.head?.any BufEntry.restarts then s.opened.restarted else s.opened.setMpt s.mpt.sent) = _
    rw [if_pos (by simp [buffer, taken]), State.restarted_done]
    rfl

end Sys2Proof.Machine
end

section
/-! SUPPORT. The requests that only read (R36, R47, R50, R104, R164, R174, R176, R178), one equation each. -/

namespace Sys2Proof.Machine

variable {s : State} {port lane target scope : Byte}

theorem laneOf_eq_none {b : Byte} (h : 8 ≤ b.toNat) : laneOf b = none := by simp [laneOf, Nat.not_lt.2 h]

theorem portLaneOf_eq_none (h : 24 ≤ port.toNat ∨ 8 ≤ lane.toNat) : portLaneOf port lane = none := by
  rcases h with h | h
  · simp [portLaneOf, portOf_eq_none h]
  · simp [portLaneOf, laneOf_eq_none h]

/-- An answer to a request that touches nothing else. -/
theorem State.opened_accept_done (s : State) (i : Instr) (body : List Byte) :
    (s.opened.accept i body).done = .next (s.replied i .ok body) := State.answer_done rfl i .ok body

theorem exec_resolve_of_none (h : portOf port = none) :
    exec (.resolve port) s = .next (s.replied (.resolve port) .badArgument []) := by
  show execResolve port s = _
  rw [execResolve, h, State.opened_refuse_done]

theorem exec_resolve_of_some {p : PortIx} (h : portOf port = some p) :
    exec (.resolve port) s = .next (s.replied (.resolve port) .ok (s.plan.resolve p).bytes) := by
  show execResolve port s = _
  rw [execResolve, h, State.opened_accept_done]

theorem exec_portQuery_of_none (h : portOf port = none) :
    exec (.portQuery port) s = .next (s.replied (.portQuery port) .badArgument []) := by
  show execPortQuery port s = _
  rw [execPortQuery, h, State.opened_refuse_done]

theorem exec_portQuery_of_some {p : PortIx} (h : portOf port = some p) :
    exec (.portQuery port) s = .next (s.replied (.portQuery port) .ok (s.port p).bytes) := by
  show execPortQuery port s = _
  rw [execPortQuery, h, State.opened_accept_done]

theorem exec_unknownCode {code : Byte} (h : code = 0 ∨ 0x18 < code.toNat) :
    exec (.unknownCode code) s = .next (s.replied (.unknownCode code) .unknownCode []) := by
  have unnamed : ¬(1 ≤ code.toNat ∧ code.toNat ≤ 0x18) := by
    rintro ⟨low, high⟩
    rcases h with rfl | above
    · exact absurd low (by decide)
    · omega
  show execUnknownCode code s = _
  rw [execUnknownCode, if_neg unnamed, State.opened_refuse_done]

/-! ### PLAN_READ (R47) -/

theorem exec_planRead_of_none (h : s.plan.read target port = none) :
    exec (.planRead target port) s = .next (s.replied (.planRead target port) .badArgument []) := by
  show execPlanRead target port s = _
  rw [execPlanRead, h, State.opened_refuse_done]

theorem exec_planRead_of_some {e : PlanEntry} (h : s.plan.read target port = some e) :
    exec (.planRead target port) s = .next (s.replied (.planRead target port) .ok e.bytes) := by
  show execPlanRead target port s = _
  rw [execPlanRead, h, State.opened_accept_done]

theorem Plan.read_background (q : Plan) (port : Byte) : q.read 3 port = some q.background := if_pos rfl

theorem Plan.read_eq_none (q : Plan) (h : 3 < target.toNat ∨ target.toNat < 3 ∧ 24 ≤ port.toNat) : q.read target port = none := by
  have layer : target ≠ 3 := by rintro rfl; simp at h
  rw [Plan.read, if_neg layer, entryTarget_eq_none (by omega), Option.map_none]

theorem Plan.read_entry (q : Plan) (n : LayerName) {p : PortIx} (h : port.toNat = p.val) :
    q.read n.code port = some (q.entry n p) := by
  rw [Plan.read, if_neg n.code_ne_background, entryTarget_code n h, Option.map_some]

/-! ### LANE_QUERY (R36) -/

theorem exec_laneQuery_of_none (h : portLaneOf port lane = none) :
    exec (.laneQuery port lane) s = .next (s.replied (.laneQuery port lane) .badArgument []) := by
  show execLaneQuery port lane s = _
  rw [execLaneQuery, h, State.opened_refuse_done]

theorem exec_laneQuery_heard {p : PortIx} {l : LanePos} (h : portLaneOf port lane = some (p, l))
    (far : (s.lane p l).rx.far.isSome = true) :
    exec (.laneQuery port lane) s = .next (s.replied (.laneQuery port lane) .ok
      ((s.port p).laneBytes l (Config.absentFarFlags s.freeIx))) := by
  show execLaneQuery port lane s = _
  rw [execLaneQuery, h]
  simp only [far, if_true]
  exact State.opened_accept_done s _ _

theorem exec_laneQuery_unheard {p : PortIx} {l : LanePos} (h : portLaneOf port lane = some (p, l))
    (far : (s.lane p l).rx.far = none) :
    exec (.laneQuery port lane) s = .next (({ s with freeIx := s.freeIx + 1 } : State).replied (.laneQuery port lane) .ok
      ((s.port p).laneBytes l (Config.absentFarFlags s.freeIx))) := by
  show execLaneQuery port lane s = _
  rw [execLaneQuery, h]
  simp only [far, Option.isSome_none, Bool.false_eq_true, if_false]
  exact State.answer_done (t := s.opened.useFree) rfl _ .ok _

/-- The far-end flags of a lane that holds some leave no room for a free value. -/
theorem Receiver.bytes_of_far {r : Receiver} (h : r.far.isSome = true) (a b : Byte) : r.bytes a = r.bytes b := by
  obtain ⟨g, held⟩ := Option.isSome_iff_exists.1 h
  simp only [Receiver.bytes, held, Option.map_some, Option.getD_some]

/-- Of a free value the five defined bits of the flags byte alone are shown (R189 item 8). -/
theorem Receiver.bytes_masked (r : Receiver) (a : Byte) : r.bytes (a &&& 0x1F) = r.bytes a := by
  have once : a &&& 0x1F &&& 0x1F = a &&& 0x1F := by rw [BitVec.and_assoc, BitVec.and_self]
  simp only [Receiver.bytes, once]

theorem Port.laneBytes_of_far {x : Port} {l : LanePos} (h : (x.lane l).rx.far.isSome = true) (a b : Byte) :
    x.laneBytes l a = x.laneBytes l b := by
  simp only [Port.laneBytes, Receiver.bytes_of_far h a b]

theorem Port.laneBytes_masked (x : Port) (l : LanePos) (a : Byte) : x.laneBytes l (a &&& 0x1F) = x.laneBytes l a := by
  simp only [Port.laneBytes, Receiver.bytes_masked]

theorem toNat_masked_lt (a : Byte) : (a &&& 0x1F).toNat < 32 := by
  rw [BitVec.toNat_and]
  exact Nat.lt_of_le_of_lt Nat.and_le_right (by decide)

/-! ### DEVICE_INFO (R178) -/

theorem State.infoBytes_eq (s : State) : s.infoBytes = [0x09, 0x68, 1, 24, 8, s.mpt.rate.code] ++
    (match s.identity with | none => [0, 0] | some i => [1, 1] ++ be32 i.chassis.toNat ++ [i.base]) ++
    be32 s.time.interval.toNat ++ s.mptCounters := by
  have part : be16 Config.partCode = [0x09, 0x68] := by decide
  have revision : byte Config.revision = 1 := rfl
  rw [State.infoBytes, part, revision]
  cases s.identity <;> rfl

/-- Settles O12: each query has one equation for a request it takes and one for a request it refuses. -/
theorem queriesAnswerAndChangeNothing : Obligations.QueriesAnswerAndChangeNothing := by
  intro s
  refine ⟨?_, s.opened_accept_done _ _, s.opened_accept_done _ _, fun code => exec_unknownCode, fun port outside => ?_,
    fun port p named => ?_, fun port lane outside => exec_laneQuery_of_none (portLaneOf_eq_none outside),
    fun port lane p l hp hl => ?_, ?_, fun port target outside => exec_planRead_of_none (s.plan.read_eq_none outside), ?_⟩
  · exact (s.opened_accept_done .deviceInfo s.infoBytes).trans
      (congrArg (fun body => Host.Outcome.next (s.replied .deviceInfo .ok body)) s.infoBytes_eq)
  · exact ⟨exec_resolve_of_none (portOf_eq_none outside), exec_portQuery_of_none (portOf_eq_none outside)⟩
  · exact ⟨exec_resolve_of_some (portOf_eq_some named), exec_portQuery_of_some (portOf_eq_some named)⟩
  · have named : portLaneOf port lane = some (p, l) := portLaneOf_eq_some_iff.2 ⟨hp, hl⟩
    refine ⟨fun far a => ?_, fun far => ⟨Config.absentFarFlags s.freeIx &&& 0x1F, toNat_masked_lt _, ?_⟩⟩
    · rw [exec_laneQuery_heard named far, Port.laneBytes_of_far (x := s.port p) far a]
    · rw [exec_laneQuery_unheard named far, Port.laneBytes_masked]
  · rintro port target rfl
    exact exec_planRead_of_some (s.plan.read_background port)
  · rintro port target p n rfl named
    exact exec_planRead_of_some (s.plan.read_entry n named)

/-! ### COUNTER_READ (R164) -/

theorem exec_counterRead_of_none (h : scopeOf scope port lane = none) :
    exec (.counterRead scope port lane) s = .next (s.replied (.counterRead scope port lane) .badArgument []) := by
  show execCounterRead scope port lane s = _
  rw [execCounterRead, h, State.opened_refuse_done]

theorem exec_counterRead_of_some {k : Scope} (h : scopeOf scope port lane = some k) :
    exec (.counterRead scope port lane) s = .next (s.replied (.counterRead scope port lane) .ok (s.scopeBytes k)) := by
  show execCounterRead scope port lane s = _
  rw [execCounterRead, h, State.opened_accept_done]

theorem scopeOf_eq_none (h : 2 < scope.toNat ∨ scope.toNat ≤ 1 ∧ 24 ≤ port.toNat ∨ scope = 0 ∧ 8 ≤ lane.toNat) :
    scopeOf scope port lane = none := by
  refine Option.eq_none_iff_forall_ne_some.2 fun k named => ?_
  cases k with
  | lane p l =>
    obtain ⟨rfl, hp, hl⟩ := scopeOf_eq_lane_iff.1 named
    rcases h with h | h | h
    · exact absurd h (by decide)
    · omega
    · omega
  | port p =>
    obtain ⟨rfl, hp⟩ := scopeOf_eq_port_iff.1 named
    rcases h with h | h | h
    · exact absurd h (by decide)
    · omega
    · exact absurd h.1 (by decide)
  | management =>
    obtain rfl := scopeOf_eq_management_iff.1 named
    rcases h with h | h | h
    · exact absurd h (by decide)
    · exact absurd h.1 (by decide)
    · exact absurd h.1 (by decide)

theorem Counter.bytes_short (c : Counter) (m : Sampling) : c.bytes m false = be16 (c.shown m) ++ [if c.mark then 1 else 0] := rfl

/-- The three lane counters of 16 bits are BEACON_BAD, ERR_PERIODS and LOCK_LOSS (R161). -/
theorem wide_iff (i : Fin 7) : decide (laneCounterMax i ≠ 65535) = !decide (i = 1 ∨ i = 5 ∨ i = 6) := by
  revert i; decide

theorem Counter.bytes_lane (c : Counter) (m : Sampling) (i : Fin 7) :
    c.bytes m (decide (laneCounterMax i ≠ 65535)) =
      (if i = 1 ∨ i = 5 ∨ i = 6 then be16 (c.shown m) else be32 (c.shown m)) ++ [if c.mark then 1 else 0] := by
  rw [wide_iff]
  by_cases short : i = 1 ∨ i = 5 ∨ i = 6
  · rw [decide_eq_true short, if_pos short]; rfl
  · rw [decide_eq_false short, if_neg short]; rfl

/-- Settles O13: the scope is judged, and a scope that is named answers with its bytes. -/
theorem counterReadShowsLiveOrSampled : Obligations.CounterReadShowsLiveOrSampled := by
  intro scope port lane s head value
  have shown : ∀ c : Counter, value c = c.shown s.settings.sampling := fun c => by
    cases mode : s.settings.sampling <;> simp only [value, mode, Counter.shown]
  refine ⟨fun bad => exec_counterRead_of_none (scopeOf_eq_none bad), fun p l zero hp hl => ?_, fun p one hp => ?_, fun two => ?_⟩
  · rw [exec_counterRead_of_some (scopeOf_eq_lane_iff.2 ⟨zero, hp, hl⟩)]
    simp only [State.scopeBytes, State.laneCounterBytes, Counter.bytes_lane, shown]
    rfl
  · rw [exec_counterRead_of_some (scopeOf_eq_port_iff.2 ⟨one, hp⟩)]
    simp only [State.scopeBytes, State.portCounterBytes, Counter.bytes_short, shown]
    rfl
  · rw [exec_counterRead_of_some (scopeOf_eq_management_iff.2 two)]
    simp only [State.scopeBytes, State.mptCounters, Counter.bytes_short, shown]
    rfl

/-! ### SET_IDENTITY (R175) -/

theorem PortState.allowsIdentity_iff (x : PortState) : x.allowsIdentity = true ↔ x = .idle ∨ x = .dark ∨ x = .faulted := by
  cases x <;> decide

theorem State.identityOpen_iff (s : State) :
    s.identityOpen = true ↔ ∀ p, (s.port p).state = .idle ∨ (s.port p).state = .dark ∨ (s.port p).state = .faulted := by
  simp only [State.identityOpen, List.all_eq_true, mem_allPorts, forall_const, PortState.allowsIdentity_iff]

/-- Settles O14: the branches of `execSetIdentity`. -/
theorem setIdentityJudgesThenReplaces : Obligations.SetIdentityJudgesThenReplaces := by
  intro chassis base s
  have runs : exec (.setIdentity chassis base) s = execSetIdentity chassis base s := rfl
  refine ⟨fun bad => ?_, fun nonzero low ⟨p, idle, dark, faulted⟩ => ?_, fun nonzero low open_ => ?_⟩
  · rw [runs, execSetIdentity, if_pos bad, State.opened_refuse_done]
  · have shut : s.identityOpen = false :=
      Bool.eq_false_iff.2 fun k => by simpa [idle, dark, faulted] using s.identityOpen_iff.1 k p
    rw [runs, execSetIdentity, if_neg (not_or.2 ⟨nonzero, Nat.not_lt.2 low⟩), if_pos shut, State.opened_refuse_done]
  · have free : ¬s.identityOpen = false := by simp [s.identityOpen_iff.2 open_]
    rw [runs, execSetIdentity, if_neg (not_or.2 ⟨nonzero, Nat.not_lt.2 low⟩), if_neg free, State.accept]
    exact State.answer_done (t := s.opened.setIdentity _) rfl _ .ok _

end Sys2Proof.Machine
end

section
/-! SUPPORT. SETTINGS_WRITE (R176, R177, R168, R118). -/

namespace Sys2Proof.Machine

variable {s : State} {r : RawSettings} {g : Settings}

theorem clamp_eq_ite {lo hi : Nat} (h : lo ≤ hi) (n : Nat) : clamp lo hi n = if n < lo then lo else if hi < n then hi else n := by
  unfold clamp
  split_ifs <;> omega

/-- No number above the range can be written in the field's own width. -/
theorem clamp_of_le {lo hi n : Nat} (h : lo ≤ hi) (fits : n ≤ hi) : clamp lo hi n = if n < lo then lo else n := by
  rw [clamp_eq_ite h]
  split_ifs <;> omega

theorem clamp_zero (hi n : Nat) : clamp 0 hi n = if hi < n then hi else n := by
  rw [clamp_eq_ite (Nat.zero_le hi), if_neg (Nat.not_lt_zero n)]

theorem samplingOf_eq_some {b : Byte} (h : b.toNat ≤ 1) :
    named [Sampling.live, .sampled] b = some (if b = 0 then .live else .sampled) := by
  obtain rfl | rfl : b = 0 ∨ b = 1 := by bv_omega
  · rfl
  · rfl

theorem boolOf_eq_some {b : Byte} (h : b.toNat ≤ 1) : boolOf b = some (decide (b = 1)) := by
  obtain rfl | rfl : b = 0 ∨ b = 1 := by bv_omega
  · rfl
  · rfl

theorem judgeSettings_eq_none (h : 1 < r.sampling.toNat ∨ 1 < r.attention.toNat) : judgeSettings r = none := by
  rcases h with h | h
  · have none : named [Sampling.live, .sampled] r.sampling = none := named_eq_none h
    rw [judgeSettings, none]; rfl
  · rw [judgeSettings, boolOf_eq_none h]
    cases named [Sampling.live, .sampled] r.sampling <;> rfl

theorem judgeSettings_eq_some (hs : r.sampling.toNat ≤ 1) (ha : r.attention.toNat ≤ 1) : judgeSettings r = some
    { discovery := clamp 1 600 r.discovery.toNat
      consult := clamp 1 255 r.consult.toNat
      farEndWait := clamp 1 60 r.farEndWait.toNat
      errThreshold := clamp 1 65535 r.errThreshold.toNat
      retrain := retrainOf r.retrain.toNat
      sweepLimit := clamp 1 4 r.sweepLimit.toNat
      sampling := if r.sampling = 0 then .live else .sampled
      decimation := clamp 0 15 r.decimation.toNat
      attention := decide (r.attention = 1) } := by
  rw [judgeSettings, samplingOf_eq_some hs, boolOf_eq_some ha]; rfl

theorem Settings.loads_iff (old new : Settings) :
    old.loads new = true ↔ old.decimation ≠ new.decimation ∨ old.sampling = .live ∧ new.sampling = .sampled := by
  simp [Settings.loads]

/-- The summary countdown after settings have been written over others (R168). -/
def Settings.countdownOver (g old : Settings) (countdown : Nat) : Nat :=
  if old.decimation ≠ g.decimation ∨ old.sampling = .live ∧ g.sampling = .sampled then g.decimation else countdown

/-- The settings replaced and the countdown loaded, before the grant test. -/
theorem State.putSettings_eq_ite (s : State) (g : Settings) :
    let t := (s.setSettings g).setCountdown (g.countdownOver s.settings s.countdown)
    s.putSettings g = if s.settings.sweepLimit < g.sweepLimit then t.grantTest else t := by
  intro t
  have loaded : (if s.settings.loads g then (s.setSettings g).setCountdown g.decimation else s.setSettings g) = t := by
    simp only [t, Settings.countdownOver, ← Settings.loads_iff]
    split_ifs <;> rfl
  rw [← loaded]; rfl

theorem exec_settingsWrite_of_none (h : judgeSettings r = none) :
    exec (.settingsWrite r) s = .next (s.replied (.settingsWrite r) .badArgument []) := by
  show execSettingsWrite r s = _
  rw [execSettingsWrite, h, State.opened_refuse_done]

theorem exec_settingsWrite_of_some (h : judgeSettings r = some g) :
    exec (.settingsWrite r) s = ((s.opened.putSettings g).accept (.settingsWrite r) g.bytes).done := by
  show execSettingsWrite r s = _
  rw [execSettingsWrite, h]

/-- The state that settings leave behind before the grant test. -/
def State.withSettings (s : State) (g : Settings) : State :=
  { s with settings := g, countdown := g.countdownOver s.settings s.countdown, deferred := [] }

theorem State.opened_putSettings_of_low (h : g.sweepLimit ≤ s.settings.sweepLimit) : s.opened.putSettings g = s.withSettings g :=
  (s.opened.putSettings_eq_ite g).trans (if_neg (Nat.not_lt.2 h))

theorem State.opened_putSettings_of_raised (h : s.settings.sweepLimit < g.sweepLimit) :
    s.opened.putSettings g = (s.withSettings g).grantTest :=
  (s.opened.putSettings_eq_ite g).trans (if_pos h)

theorem exec_settingsWrite_low (judged : judgeSettings r = some g) (low : g.sweepLimit ≤ s.settings.sweepLimit) :
    exec (.settingsWrite r) s = .next ((s.withSettings g).replied (.settingsWrite r) .ok g.bytes) := by
  rw [exec_settingsWrite_of_some judged, State.opened_putSettings_of_low low]
  exact State.answer_done rfl _ .ok _

/-- A state once an OK answer to a request has ended its command. -/
structure Accepted (t : State) (i : Instr) (body : List Byte) (u : State) : Prop where
  ports : u.ports = t.ports
  esu : u.esu = t.esu
  mpt : u.mpt = t.mpt.answer i .ok body
  plan : u.plan = t.plan
  time : u.time = t.time
  settings : u.settings = t.settings
  identity : u.identity = t.identity
  countdown : u.countdown = t.countdown
  reports : u.reports = t.reports.enterAll t.time.clock t.deferred

theorem State.accept_done (t : State) (i : Instr) (body : List Byte) :
    ∃ u, (t.accept i body).done = .next u ∧ Accepted t i body u := by
  refine ⟨(t.accept i body).closed, rfl, ?_⟩
  constructor
  case reports => exact State.closed_reports
  all_goals simp [State.accept, State.answer, State.setMpt]

theorem exec_settingsWrite_raised (judged : judgeSettings r = some g) (raised : s.settings.sweepLimit < g.sweepLimit) :
    let t := s.withSettings g
    ∃ u, exec (.settingsWrite r) s = .next u ∧ u.settings = g ∧ u.countdown = t.countdown ∧ u.plan = s.plan ∧
      u.identity = s.identity ∧ u.mpt = s.mpt.answer (.settingsWrite r) .ok g.bytes ∧ u.esu = t.grantTest.esu ∧
      u.ports = t.grantTest.ports := by
  intro t
  have moved : Moves false t t.grantTest := t.grantTest_moves
  obtain ⟨u, ends, h⟩ := t.grantTest.accept_done (.settingsWrite r) g.bytes
  rw [exec_settingsWrite_of_some judged, State.opened_putSettings_of_raised raised]
  exact ⟨u, ends, h.settings.trans moved.settings, h.countdown.trans moved.countdown, h.plan.trans moved.plan,
    h.identity.trans moved.identity, h.mpt.trans (congrArg (fun m : Mpt => m.answer _ _ _) moved.mpt), h.esu, h.ports⟩

/-- Settles O15: the request is judged field by field, and `State.putSettings` acts on countdown and grants. -/
theorem settingsWriteClampsAndActs : Obligations.SettingsWriteClampsAndActs := by
  intro r s
  refine ⟨fun bad => exec_settingsWrite_of_none (judgeSettings_eq_none bad), fun hs ha => ?_⟩
  intro g t
  have judged : judgeSettings r = some g := by
    have consult := r.consult.isLt
    have errors := r.errThreshold.isLt
    rw [judgeSettings_eq_some hs ha, clamp_eq_ite (by decide : 1 ≤ 600), clamp_of_le (by decide) (by omega : r.consult.toNat ≤ 255),
      clamp_eq_ite (by decide : 1 ≤ 60), clamp_of_le (by decide) (by omega : r.errThreshold.toNat ≤ 65535),
      clamp_eq_ite (by decide : 1 ≤ 4), clamp_zero]
    rfl
  exact ⟨exec_settingsWrite_low judged, exec_settingsWrite_raised judged⟩

end Sys2Proof.Machine
end

section
/-! SUPPORT. A plan entry on the wire (R37, R39, R40, R189, R193). -/

namespace Sys2Proof.Machine

theorem be16_eq (n : Nat) : be16 n = [byte (n / 256), byte n] := rfl

theorem be32_eq (n : Nat) : be32 n = [byte (n / 65536 / 256), byte (n / 65536), byte (n / 256), byte n] := rfl

/-- A two-byte number is read back. -/
theorem half_of_bytes {n : Nat} (h : n < 65536) : half (byte (n / 256)) (byte n) = BitVec.ofNat 16 n := by
  refine congrArg (BitVec.ofNat 16) ?_
  simp only [ofBytes, List.foldl_cons, List.foldl_nil, byte, BitVec.toNat_ofNat]
  omega

/-- A four-byte number is read back. -/
theorem word_of_bytes {n : Nat} (h : n < 4294967296) :
    word (byte (n / 65536 / 256)) (byte (n / 65536)) (byte (n / 256)) (byte n) = BitVec.ofNat 32 n := by
  refine congrArg (BitVec.ofNat 32) ?_
  simp only [ofBytes, List.foldl_cons, List.foldl_nil, byte, BitVec.toNat_ofNat]
  omega

/-- A label of at most 16 characters is read back (R189 item 6). -/
theorem readLabel_labelBytes {t : Option (List Byte)} (h : ∀ cs ∈ t, cs.length ≤ 16) : readLabel (labelBytes t) = some t := by
  cases t with
  | none => rfl
  | some cs =>
    have short : cs.length ≤ 16 := h cs rfl
    have exact : (byte cs.length).toNat = cs.length := toNat_byte (by omega)
    have present : byte cs.length ≠ 0xFF := fun same => by
      rw [same] at exact
      exact absurd exact.symm (by simp only [BitVec.reduceToNat]; omega)
    rw [labelBytes, readLabel, if_neg present, if_pos exact.symm]

/-- The fields of a request body that carries a plan entry. -/
def PlanEntry.raw (x : PlanEntry) : RawEntry :=
  { kind := x.kind.code
    chassis := x.chassis.getD 0
    portNum := (x.portNum.map fun k => BitVec.ofNat 16 k.toNat).getD 0xFFFF
    count := byte x.count.toNat
    width := x.width.code
    map := x.map.code
    polarity := x.polarity.code
    ask := boolByte x.ask
    loop := boolByte x.loop
    grade := byte x.grade
    window := BitVec.ofNat 16 x.window
    label := x.label }

/-- The expected chassis on the wire, 0 for ANY (R189 item 3). -/
theorem chassis_toNat (c : Option Word) : (c.map BitVec.toNat).getD 0 = (c.getD 0).toNat := by cases c <;> rfl

/-- The expected port number on the wire, 0xFFFF for ANY (R189 item 3). -/
theorem portNum_ofNat (k : Option Byte) :
    BitVec.ofNat 16 ((k.map BitVec.toNat).getD 0xFFFF) = (k.map fun b => BitVec.ofNat 16 b.toNat).getD 0xFFFF := by cases k <;> rfl

theorem portNum_lt (k : Option Byte) : (k.map BitVec.toNat).getD 0xFFFF < 65536 := by
  cases k with
  | none => decide
  | some b => have := b.isLt; simp only [Option.map_some, Option.getD_some]; omega

theorem readEntry_bytes {x : PlanEntry} (h : x.legal) : readEntry x.bytes = some x.raw := by
  have chassis := (x.chassis.getD 0).isLt
  have window : x.window < 65536 := by have := h.window.2; omega
  have label : ∀ cs ∈ x.label, cs.length ≤ 16 := fun cs held => (h.label cs held).1
  simp only [PlanEntry.bytes, be32_eq, be16_eq, List.cons_append, List.nil_append, readEntry, readLabel_labelBytes label,
    Option.map_some, half_of_bytes (portNum_lt _), half_of_bytes window, chassis_toNat, word_of_bytes chassis, portNum_ofNat,
    BitVec.ofNat_toNat, BitVec.setWidth_eq, PlanEntry.raw]

/-! ### Each field judged as it was written -/

theorem named_kind (k : EntryKind) : named [EntryKind.empty, .normal, .unused, .ask] k.code = some k := by cases k <;> rfl

theorem named_width (w : WidthPolicy) : named [WidthPolicy.fullOnly, .halfOk] w.code = some w := by cases w <;> rfl

theorem named_map (m : MapPolicy) : named [MapPolicy.straightOnly, .reversalOk, .anyOrder] m.code = some m := by cases m <;> rfl

theorem named_polarity (q : PolarityPolicy) : named [PolarityPolicy.correct, .refuse] q.code = some q := by cases q <;> rfl

theorem countOf_toNat (n : LaneCount) : countOf (byte n.toNat) = some n := by cases n <;> rfl

theorem chassisOf_getD {c : Option Word} (h : c ≠ some 0) : chassisOf (c.getD 0) = c := by
  cases c with
  | none => rfl
  | some v => exact if_neg fun zero => h (congrArg some zero)

theorem portNumOf_getD (k : Option Byte) : portNumOf ((k.map fun b => BitVec.ofNat 16 b.toNat).getD 0xFFFF) = some k := by
  cases k with
  | none => rfl
  | some b =>
    have low : (BitVec.ofNat 16 b.toNat).toNat = b.toNat := BitVec.toNat_ofNat _ _ |>.trans (Nat.mod_eq_of_lt (by have := b.isLt; omega))
    have known : BitVec.ofNat 16 b.toNat ≠ 0xFFFF := fun any => by
      rw [any] at low
      exact absurd low.symm (by have := b.isLt; simp only [BitVec.reduceToNat]; omega)
    have small : (BitVec.ofNat 16 b.toNat).toNat < 256 := low.trans_lt b.isLt
    rw [Option.map_some, Option.getD_some, portNumOf, if_neg known, if_pos small, low, byte, BitVec.ofNat_toNat, BitVec.setWidth_eq]

theorem gradeOf_byte {g : Nat} (h : 1 ≤ g ∧ g ≤ 71) : gradeOf (byte g) = some g := by
  have exact : (byte g).toNat = g := toNat_byte (by omega)
  rw [gradeOf, exact, if_pos h]

theorem windowOf_ofNat {q : Nat} (h : 1 ≤ q ∧ q ≤ 65535) : windowOf (BitVec.ofNat 16 q) = some q := by
  have exact : (BitVec.ofNat 16 q).toNat = q := (BitVec.toNat_ofNat _ _).trans (Nat.mod_eq_of_lt (by omega))
  have known : BitVec.ofNat 16 q ≠ 0 := fun zero => by
    rw [zero] at exact
    exact absurd exact.symm (by simp only [BitVec.reduceToNat]; omega)
  rw [windowOf, if_neg known, exact]

theorem labelOf_self {t : Option (List Byte)} (h : ∀ cs, t = some cs → cs.length ≤ 16 ∧ ∀ c ∈ cs, printable c) :
    labelOf t = some t := by
  cases t with
  | none => rfl
  | some cs =>
    obtain ⟨short, chars⟩ := h cs rfl
    exact if_pos ⟨short, List.all_eq_true.2 fun c hc => decide_eq_true (chars c hc)⟩

theorem judgeEntry_raw {x : PlanEntry} (h : x.legal) : judgeEntry x.raw = some x := by
  simp only [judgeEntry, PlanEntry.raw, named_kind, named_width, named_map, named_polarity, countOf_toNat, portNumOf_getD,
    boolOf_eq_some_iff.2 rfl, gradeOf_byte h.grade, windowOf_ofNat h.window, labelOf_self h.label, chassisOf_getD h.chassis,
    Option.bind_eq_bind, Option.bind_some, Option.pure_def]

theorem PlanEntry.legal.windowShort {x : PlanEntry} (h : x.legal) : x.windowShort = false :=
  decide_eq_false fun ⟨kind, short⟩ => absurd (h.reach kind) (Nat.not_le.2 short)

/-- Settles O16: every field is read back from its bytes and judged to be itself. -/
theorem planEntrySurvivesTheWire : Obligations.PlanEntrySurvivesTheWire := fun x h =>
  ⟨x.raw, readEntry_bytes h, checkEntry_of_fits (judgeEntry_raw h) h.windowShort⟩

end Sys2Proof.Machine
end

section
/-! SUPPORT. Counters over the whole part: cleared (R169), counted (R163) and sampled (R166 to R168), with the block resets that touch
no port state (R55, R188). -/

namespace Sys2Proof.Machine

variable {s : State} {p : PortIx} {l : LanePos}

/-! ### The block resets of plan, report list and counters -/

theorem exec_planBlockReset (s : State) :
    exec .planBlockReset s = .next (({ s with plan := Plan.reset }.driftCheck).replied .planBlockReset .ok []) :=
  State.opened_driftCheck_accept_done s .reset _ _

/-- In the reset plan no layer is enabled, so that the background answers for every port (R49, R55). -/
theorem Plan.reset_resolve (p : PortIx) : Plan.reset.resolve p = { entry := .resetBackground, source := .background } :=
  Plan.resolve_of_find_none (List.find?_eq_none.2 fun n _ => by
    have silent : Plan.reset.speaks p n = false := Plan.speaks_eq_false_iff.2 (.inl (by cases n <;> rfl))
    simp [silent])

theorem exec_reportsBlockReset (s : State) : exec .reportsBlockReset s =
    .next ({ s with reports := { records := [], mask := Vector.replicate 21 false } }.replied .reportsBlockReset .ok []) := by
  show execReportsBlockReset s = _
  exact State.answer_done (t := s.opened.setReports .reset) rfl _ .ok _

/-- A port with its own and its lanes' counters cleared (R169). -/
def Port.cleared (x : Port) : Port :=
  Port.mapLanes { x with counters := Vector.replicate 3 .zero } fun _ y => { y with counters := Vector.replicate 7 .zero }

theorem State.clearCounters_port (s : State) (p : PortIx) : s.clearCounters.port p = (s.port p).cleared := by
  simp only [State.clearCounters, State.setMpt_port, State.mapPorts_port, Port.cleared]

theorem Port.cleared_lane (x : Port) (l : LanePos) : x.cleared.lane l = { x.lane l with counters := Vector.replicate 7 .zero } := by
  simp only [Port.cleared, Port.mapLanes_lane]; rfl

/-- What a block reset of the counters leaves alone. -/
theorem State.clearCounters_fields (s : State) : s.clearCounters.time = s.time ∧ s.clearCounters.countdown = s.countdown ∧
    s.clearCounters.plan = s.plan ∧ s.clearCounters.esu = s.esu ∧ s.clearCounters.reports = s.reports ∧
    s.clearCounters.settings = s.settings ∧ s.clearCounters.identity = s.identity ∧ s.clearCounters.deferred = s.deferred := by
  simp [State.clearCounters]

theorem State.clearCounters_mpt (s : State) : s.clearCounters.mpt = { s.mpt with counters := Vector.replicate 2 .zero } := by
  simp only [State.clearCounters, State.setMpt_mpt, State.mapPorts_mpt]

/-- Settles O24: two of the resets replace one block, and the third clears every counter in its place. -/
theorem plainBlockResets : Obligations.PlainBlockResets := by
  refine fun s => ⟨exec_planBlockReset s, fun p => ?_, exec_reportsBlockReset s, ?_⟩
  · rw [Plan.reset_resolve]
    exact ⟨rfl, rfl, rfl, rfl, rfl⟩
  · obtain ⟨u, ends, h⟩ := s.opened.clearCounters.accept_done .countersBlockReset []
    obtain ⟨time, countdown, plan, esu, reports, settings, identity, deferred⟩ := s.opened.clearCounters_fields
    have port : ∀ p, u.port p = (s.port p).cleared := fun p => by
      rw [State.port, h.ports]
      exact s.opened.clearCounters_port p
    have lane : ∀ p l, u.lane p l = { s.lane p l with counters := Vector.replicate 7 .zero } := fun p l => by
      rw [State.lane, port, Port.cleared_lane, State.lane]
    have mpt : u.mpt = Mpt.answer { s.mpt with counters := Vector.replicate 2 .zero } .countersBlockReset .ok [] :=
      h.mpt.trans (congrArg (fun m : Mpt => m.answer _ _ _) s.opened.clearCounters_mpt)
    have quiet : u.reports = s.reports := by
      rw [h.reports, deferred, reports]
      rfl
    refine ⟨u, ends, fun p i => ?_, fun p l i => ?_, fun i => ?_, fun p => ?_, fun p l => ?_, mpt, h.time.trans time,
      h.countdown.trans countdown, h.plan.trans plan, h.esu.trans esu, quiet, h.settings.trans settings, h.identity.trans identity⟩
    · rw [port, Port.cleared]
      exact Vector.getElem_replicate i.isLt
    · rw [lane]
      exact Vector.getElem_replicate i.isLt
    · rw [mpt, Mpt.answer_counters]
      exact Vector.getElem_replicate i.isLt
    · rw [port]; rfl
    · rw [lane]

/-! ### A counting event (R163) -/

theorem Counter.saturates_iff {c : Counter} {m a : Nat} : c.saturates m a = true ↔ c.mark = false ∧ m ≤ c.live + a := by
  simp [Counter.saturates, and_comm]

theorem Counter.bump_mark_iff {c : Counter} {m a : Nat} : (c.bump m a).mark = true ↔ c.mark = true ∨ m ≤ c.live + a := by
  simp only [Counter.bump, Bool.or_eq_true, Counter.saturates_iff]
  cases c.mark <;> simp

/-- A lane with a counting event on one of its counters (R163). -/
def Lane.bumped (y : Lane) (i : Fin 7) (a : Nat) : Lane :=
  { y with counters := y.counters.set i (y.counters[i].bump (laneCounterMax i) a) }

/-- The report a counting event on a lane counter keeps back, with the marks as the event leaves them (R163). -/
def Lane.saturation (y : Lane) (p : PortIx) (l : LanePos) (i : Fin 7) (a : Nat) : List Report :=
  if y.counters[i].saturates (laneCounterMax i) a then
    [{ port := some p, lane := some l, detail := .counterSaturated i.val ((y.bumped i a).counters.toList.map Counter.mark) }]
  else []

/-- A counting event on a lane counter: the lane's counter, and the report kept back. -/
theorem State.countLane_eq (s : State) (p : PortIx) (l : LanePos) (i : Fin 7) (a : Nat) : s.countLane p l i a =
    { s.modLane p l (·.bumped i a) with deferred := s.deferred ++ (s.lane p l).saturation p l i a } := by
  have marks : ((s.modLane p l (·.bumped i a)).lane p l) = (s.lane p l).bumped i a := by
    rw [State.modLane_lane, if_pos ⟨rfl, rfl⟩]
  have counted : s.countLane p l i a = if (s.lane p l).counters[i].saturates (laneCounterMax i) a then
      (s.modLane p l (·.bumped i a)).deferReport 
        { port := some p, lane := some l
          detail := .counterSaturated i.val (((s.modLane p l (·.bumped i a)).lane p l).counters.toList.map Counter.mark) }
      else s.modLane p l (·.bumped i a) := rfl
  rw [counted, marks, Lane.saturation]
  cases (s.lane p l).counters[i].saturates (laneCounterMax i) a with
  | true => rfl
  | false => simp only [Bool.false_eq_true, if_false, List.append_nil]; rfl

theorem State.countLane_lane (s : State) (p : PortIx) (l : LanePos) (i : Fin 7) (a : Nat) :
    (s.countLane p l i a).lane p l = (s.lane p l).bumped i a := by
  rw [State.countLane_eq]
  exact (State.modLane_lane ..).trans (if_pos ⟨rfl, rfl⟩)

theorem Lane.bumped_counter (y : Lane) (i : Fin 7) (a : Nat) :
    (y.bumped i a).counters[i] = y.counters[i].bump (laneCounterMax i) a := Vector.getElem_set_self i.isLt

/-- Settles O25: `Counter.bump` stops at the maximum, and `State.countLane` keeps its one report back. -/
theorem countingStopsAtMaximum : Obligations.CountingStopsAtMaximum := by
  intro c m a _
  refine ⟨Nat.min_def .. |>.trans ?_, rfl, Counter.bump_mark_iff, Counter.saturates_iff, ?_⟩
  · split_ifs <;> omega
  · rintro s p l i rfl
    refine ⟨?_, by rw [State.countLane_eq]; rfl, ?_⟩
    · rw [State.countLane_lane, Lane.bumped_counter]
    · rw [State.countLane_lane, State.countLane_eq, Lane.saturation]
      split_ifs
      · rfl
      · exact List.append_nil _

/-! ### An interval boundary (R166 to R168) -/

/-- A port with its own and its lanes' counters sampled (R167). -/
def Port.sampled (x : Port) : Port :=
  Port.mapLanes { x with counters := Vector.ofFn fun i : Fin 3 => x.counters[i].sample } fun _ y =>
    { y with counters := Vector.ofFn fun i : Fin 7 => y.counters[i].sample }

theorem State.sampleAll_port (s : State) (p : PortIx) : s.sampleAll.port p = (s.port p).sampled := by
  simp only [State.sampleAll, State.setMpt_port, State.mapPorts_port, Port.sampled]

theorem State.sampleAll_lane (s : State) (p : PortIx) (l : LanePos) :
    s.sampleAll.lane p l = { s.lane p l with counters := Vector.ofFn fun i : Fin 7 => (s.lane p l).counters[i].sample } := by
  rw [State.lane, State.sampleAll_port, Port.sampled, Port.mapLanes_lane]
  rfl

theorem State.sampleAll_mpt (s : State) : s.sampleAll.mpt = s.mpt.sampled := by
  simp only [State.sampleAll, State.setMpt_mpt, State.mapPorts_mpt, Mpt.sampled]

/-- What the sampling of every counter leaves alone. -/
theorem State.sampleAll_fields (s : State) : s.sampleAll.time = s.time ∧ s.sampleAll.countdown = s.countdown ∧
    s.sampleAll.plan = s.plan ∧ s.sampleAll.esu = s.esu ∧ s.sampleAll.reports = s.reports ∧
    s.sampleAll.settings = s.settings ∧ s.sampleAll.identity = s.identity ∧ s.sampleAll.deferred = s.deferred := by
  simp [State.sampleAll]

theorem State.portsIn_eq_countP (s : State) (z : PortState) :
    s.portsIn z = allPorts.countP fun p => decide ((s.port p).state = z) := List.countP_eq_length_filter.symm

theorem State.errorLanes_eq_countP (s : State) : s.errorLanes = everyLane.countP fun k =>
    decide ((s.lane k.1 k.2).counters[ctrSymbolErr].snap < (s.lane k.1 k.2).counters[ctrSymbolErr].live) :=
  List.countP_eq_length_filter.symm

theorem State.sampleAll_portsIn (s : State) (z : PortState) : s.sampleAll.portsIn z = s.portsIn z := by
  have same : ∀ p, (s.sampleAll.port p).state = (s.port p).state := fun p => by rw [State.sampleAll_port]; rfl
  simp only [State.portsIn, same]

/-- From one state to another, nothing but report list, summary countdown and attention pin has changed. -/
structure SummaryOnly (s t : State) : Prop where
  ports : t.ports = s.ports
  plan : t.plan = s.plan
  esu : t.esu = s.esu
  mpt : t.mpt = s.mpt
  time : t.time = s.time
  settings : t.settings = s.settings
  identity : t.identity = s.identity
  deferred : t.deferred = s.deferred

theorem State.summary_only (s : State) (n : Nat) : SummaryOnly s (s.summary n) := by
  unfold State.summary
  split
  · exact ⟨rfl, rfl, rfl, rfl, rfl, rfl, rfl, rfl⟩
  · split <;> exact ⟨rfl, rfl, rfl, rfl, rfl, rfl, rfl, rfl⟩

theorem State.summary_of_live {n : Nat} (h : s.settings.sampling = .live ∨ s.settings.decimation = 0) : s.summary n = s := if_pos h

theorem State.summary_of_sampled {n : Nat} (sampled : s.settings.sampling = .sampled) (decimated : s.settings.decimation ≠ 0) :
    s.summary n = if s.countdown - 1 = 0 then
      (s.post { port := none, lane := none,
                detail := .intervalSummary s.time.interval (s.portsIn .active) (s.portsIn .faulted) n }).setCountdown
        s.settings.decimation
      else s.setCountdown (s.countdown - 1) :=
  if_neg (by simp [sampled, decimated])

/-- A boundary with every counter sampled, before the summary. -/
def State.sampledBoundary (s : State) : State := (s.setTime { s.time with interval := s.time.interval + 1 }).sampleAll

theorem State.boundary_eq_summary (s : State) : s.boundary = s.sampledBoundary.summary s.errorLanes := rfl

/-- Settles O27: the interval count, every counter's sample and the summary act one after another. -/
theorem intervalBoundarySamplesAndSummarises : Obligations.IntervalBoundarySamplesAndSummarises := by
  intro s
  let v := s.opened.sampledBoundary
  obtain ⟨time, countdown, plan, esu, reports, settings, identity, deferred⟩ :=
    (s.opened.setTime { s.time with interval := s.time.interval + 1 }).sampleAll_fields
  have held : v.countdown = s.countdown := countdown
  have stamped : v.time = { s.time with interval := s.time.interval + 1 } := time
  have kept : SummaryOnly v s.opened.boundary := State.summary_only _ _
  have quiet : s.opened.boundary.deferred = [] := kept.deferred.trans deferred
  have runs : exec .intervalBoundary s = .next s.opened.boundary.settled := State.done_of_none quiet
  have ports : s.opened.boundary.settled.ports = v.ports := kept.ports
  have port : ∀ p, s.opened.boundary.settled.port p = (s.port p).sampled := fun p => by
    rw [State.port, ports]
    exact State.sampleAll_port _ p
  have lane : ∀ p l, s.opened.boundary.settled.lane p l =
      { s.lane p l with counters := Vector.ofFn fun i : Fin 7 => (s.lane p l).counters[i].sample } := fun p l => by
    rw [State.lane, State.port, ports]
    exact State.sampleAll_lane _ p l
  have mpt : s.opened.boundary.settled.mpt = s.mpt.sampled := kept.mpt.trans (State.sampleAll_mpt _)
  refine ⟨_, runs, kept.time.trans time, fun p i => ?_, fun p l i => ?_, fun i => ?_, fun p => ?_, fun p l => ?_, ?_,
    kept.plan.trans plan, kept.esu.trans esu, kept.settings.trans settings, kept.identity.trans identity, fun off => ?_,
    fun on decimated early => ?_, fun on decimated due => ?_⟩
  · rw [port]
    exact Vector.getElem_ofFn i.isLt
  · rw [lane]
    exact Vector.getElem_ofFn i.isLt
  · rw [mpt]
    exact Vector.getElem_ofFn i.isLt
  · rw [port]; rfl
  · rw [lane]
  · rw [mpt]; rfl
  · have same : s.opened.boundary = v := State.summary_of_live (s := v) (settings ▸ off)
    rw [same]
    exact ⟨countdown, reports⟩
  · have more : ¬v.countdown - 1 = 0 := by omega
    have same : s.opened.boundary = v.setCountdown (v.countdown - 1) := by
      rw [State.boundary_eq_summary, State.summary_of_sampled (settings ▸ on) (settings ▸ decimated), if_neg more]
    rw [same]
    exact ⟨congrArg (· - 1) countdown, reports⟩
  · have last : v.countdown - 1 = 0 := by omega
    have same : s.opened.boundary = (v.post
        { port := none, lane := none
          detail := .intervalSummary v.time.interval (v.portsIn .active) (v.portsIn .faulted) s.errorLanes }).setCountdown
        v.settings.decimation := by
      rw [State.boundary_eq_summary, State.summary_of_sampled (settings ▸ on) (settings ▸ decimated), if_pos last]
      rfl
    have inPorts : ∀ z, v.portsIn z = s.portsIn z := fun z => State.sampleAll_portsIn _ z
    have clock : v.time.clock = s.time.clock := by rw [stamped]
    have interval : v.time.interval = s.time.interval + 1 := by rw [stamped]
    have told : v.reports = s.reports := reports
    rw [same]
    refine ⟨congrArg Settings.decimation settings, ?_⟩
    rw [← State.portsIn_eq_countP, ← State.portsIn_eq_countP, ← State.errorLanes_eq_countP, ← inPorts, ← inPorts, ← interval, ← clock,
      ← told]
    rfl

end Sys2Proof.Machine
end

section
/-! SUPPORT. REPORT_FETCH and REPORT_MASK (R185, R186). -/

namespace Sys2Proof.Machine

/-! ### How many records a fetch takes -/

/-- The bytes of the first records of a list. -/
def headBytes (xs : List Record) (k : Nat) : List Byte := (xs.take k).flatMap Record.bytes

theorem headBytes_cons (x : Record) (xs : List Record) (k : Nat) : headBytes (x :: xs) (k + 1) = x.bytes ++ headBytes xs k := rfl

/-- A fetch takes as many records from the head as are asked for, stand there and fit. -/
structure Fetched (n room : Nat) (xs : List Record) (k : Nat) : Prop where
  asked : k ≤ n
  held : k ≤ xs.length
  fits : (headBytes xs k).length ≤ room
  most : k < n → k < xs.length → room < (headBytes xs (k + 1)).length

theorem fetchCount_fetched (n room : Nat) (xs : List Record) : Fetched n room xs (fetchCount n room xs) := by
  induction n generalizing room xs with
  | zero => exact ⟨le_rfl, Nat.zero_le _, Nat.zero_le _, by omega⟩
  | succ n ih =>
    cases xs with
    | nil => exact ⟨Nat.zero_le _, le_rfl, Nat.zero_le _, fun _ h => absurd h (Nat.not_lt_zero _)⟩
    | cons x xs =>
      by_cases fit : x.bytes.length ≤ room
      · obtain ⟨asked, held, fits, most⟩ := ih (room - x.bytes.length) xs
        rw [fetchCount, if_pos fit]
        refine ⟨by omega, Nat.succ_le_succ held, ?_, fun more rest => ?_⟩
        · rw [headBytes_cons, List.length_append]
          omega
        · have longer := most (by omega) (Nat.lt_of_succ_lt_succ rest)
          rw [headBytes_cons, List.length_append]
          omega
      · rw [fetchCount, if_neg fit]
        refine ⟨Nat.zero_le _, Nat.zero_le _, Nat.zero_le _, fun _ _ => ?_⟩
        rw [headBytes_cons, List.length_append]
        omega

theorem fetchCount_pos {n room : Nat} {x : Record} {xs : List Record} (asked : 1 ≤ n) (fit : x.bytes.length ≤ room) :
    1 ≤ fetchCount n room (x :: xs) := by
  obtain ⟨n, rfl⟩ := Nat.exists_eq_add_of_le' asked
  rw [fetchCount, if_pos fit]
  omega

theorem ReportList.fetchBody_eq {l : ReportList} {k : Nat} (h : k ≤ l.records.length) :
    l.fetchBody k = BitVec.ofNat 8 k :: BitVec.ofNat 8 (l.records.length - k) :: headBytes l.records k := by
  rw [ReportList.fetchBody, List.length_take_of_le h, List.length_drop]
  rfl

theorem exec_reportFetch (n : Byte) (s : State) : exec (.reportFetch n) s =
    .next ({ s with reports := { s.reports with records := s.reports.records.drop (s.reports.taken n.toNat) } }.replied (.reportFetch n)
      .ok (s.reports.fetchBody (s.reports.taken n.toNat))) := by
  show execReportFetch n s = _
  rw [execReportFetch]
  exact State.answer_done (t := s.opened.setReports _) rfl _ .ok _

/-- Settles O29: `fetchCount` walks the list from its head. -/
theorem reportFetchRemovesFromHead : Obligations.ReportFetchRemovesFromHead := by
  intro n s
  obtain ⟨asked, held, fits, most⟩ := fetchCount_fetched (clamp 1 8 n.toNat) fetchRoom s.reports.records
  have clamped : clamp 1 8 n.toNat = if n.toNat = 0 then 1 else if 8 < n.toNat then 8 else n.toNat := by
    rw [clamp_eq_ite (by decide)]
    split_ifs <;> omega
  have ran := exec_reportFetch n s
  rw [ReportList.fetchBody_eq (k := s.reports.taken n.toNat) held] at ran
  refine ⟨s.reports.taken n.toNat, held, ran, asked.trans_eq clamped, ?_, fun more rest => ?_, fun x head fit => ?_⟩
  · simp only [List.length_cons]
    exact Nat.add_le_add_right fits 4
  · simp only [List.length_cons]
    exact Nat.add_lt_add_right (most (more.trans_eq clamped.symm) rest) 4
  · obtain ⟨xs, records⟩ := List.head?_eq_some_iff.1 head
    rw [ReportList.taken, records]
    exact fetchCount_pos (clamp_range (by decide) _).1 fit

/-! ### REPORT_MASK -/

theorem judgeMask_eq_none {flags : Vector Byte 21} (h : ∃ i : Fin 21, 1 < flags[i].toNat) : judgeMask flags = none := by
  obtain ⟨i, outside⟩ := h
  refine if_neg fun all => ?_
  have inside := List.all_eq_true.1 all i (List.mem_finRange i)
  rw [boolOf_eq_none outside] at inside
  exact absurd inside (by simp)

theorem judgeMask_eq_some {flags : Vector Byte 21} (h : ∀ i : Fin 21, flags[i].toNat ≤ 1) :
    judgeMask flags = some (Vector.ofFn fun i : Fin 21 => decide (flags[i] = 1)) :=
  if_pos (List.all_eq_true.2 fun i _ => by rw [boolOf_eq_some (h i)]; rfl)

/-- A mask of flags that are 0 or 1 is returned as it was sent. -/
theorem maskBytes_ofFn {flags : Vector Byte 21} (h : ∀ i : Fin 21, flags[i].toNat ≤ 1) :
    maskBytes (Vector.ofFn fun i : Fin 21 => decide (flags[i] = 1)) = flags.toList := by
  have same : (Vector.ofFn fun i : Fin 21 => decide (flags[i] = 1)).map boolByte = flags := by
    ext i hi
    have flag : flags[i].toNat ≤ 1 := h ⟨i, hi⟩
    obtain zero | one : flags[i] = 0 ∨ flags[i] = 1 := by bv_omega
    · simp [zero, boolByte]
    · simp [one, boolByte]
  rw [maskBytes, ← Vector.toList_map, same]

theorem exec_reportMask_of_none {flags : Vector Byte 21} (h : judgeMask flags = none) (s : State) :
    exec (.reportMask flags) s = .next (s.replied (.reportMask flags) .badArgument []) := by
  show execReportMask flags s = _
  rw [execReportMask, h]
  exact s.opened_refuse_done _ _

theorem exec_reportMask_of_some {flags : Vector Byte 21} {m : Vector Bool 21} (h : judgeMask flags = some m) (s : State) :
    exec (.reportMask flags) s =
      .next ({ s with reports := { s.reports with mask := m } }.replied (.reportMask flags) .ok (maskBytes m)) := by
  show execReportMask flags s = _
  rw [execReportMask, h]
  exact State.answer_done (t := s.opened.setReports _) rfl _ .ok _

/-- Settles O30: the mask is judged flag by flag and replaced whole. -/
theorem reportMaskReplacesWhole : Obligations.ReportMaskReplacesWhole := by
  intro flags s
  refine ⟨fun bad => exec_reportMask_of_none (judgeMask_eq_none bad) s, fun legal =>
    ⟨Vector.ofFn fun i : Fin 21 => decide (flags[i] = 1), fun i => ?_, ?_⟩⟩
  · simp
  · rw [exec_reportMask_of_some (judgeMask_eq_some legal), maskBytes_ofFn legal]

end Sys2Proof.Machine
end

section
/-! SUPPORT. A beacon on the lane (R2, R3, R13, R32, R191). -/

namespace Sys2Proof.Machine

/-! ### Bytes and their complement -/

theorem map_not_not (xs : List Byte) : (xs.map (~~~ ·)).map (~~~ ·) = xs := by
  rw [List.map_map]
  exact (List.map_congr_left fun x _ => BitVec.not_not).trans (List.map_id _)

theorem not_ne_self (x : Byte) : ~~~x ≠ x := by
  intro same
  have low : (~~~x).toNat = x.toNat := congrArg _ same
  have := x.isLt
  rw [BitVec.toNat_not] at low
  omega

theorem checkBytes_length (bs : List Byte) : (checkBytes bs).length = 2 := rfl

theorem checkBytes_complement_ne (bs : List Byte) : (checkBytes bs).map (~~~ ·) ≠ checkBytes bs := fun same =>
  not_ne_self _ (List.cons.inj same).1

theorem be32_syncNormal_complement : (be32 syncNormal).map (~~~ ·) = be32 syncInverted := by decide

theorem ofBytes_syncNormal : ofBytes (be32 syncNormal) = syncNormal := by decide

theorem ofBytes_syncInverted : ofBytes (be32 syncInverted) = syncInverted := by decide

/-! ### How bytes after a sync word are classed -/

theorem classify_of_normal (bs : List Byte) : classify (be32 syncNormal ++ bs) = classifyRest .normal bs := by
  have head : (be32 syncNormal ++ bs).take 4 = be32 syncNormal := List.take_left' rfl
  have tail : (be32 syncNormal ++ bs).drop 4 = bs := List.drop_left' rfl
  rw [classify, head, tail, if_pos ofBytes_syncNormal]

theorem classify_of_inverted (bs : List Byte) : classify (be32 syncInverted ++ bs) = classifyRest .inverted (bs.map (~~~ ·)) := by
  have head : (be32 syncInverted ++ bs).take 4 = be32 syncInverted := List.take_left' rfl
  have tail : (be32 syncInverted ++ bs).drop 4 = bs := List.drop_left' rfl
  have other : ¬syncInverted = syncNormal := by decide
  rw [classify, head, tail, ofBytes_syncInverted, if_neg other, if_pos rfl]

/-- A beacon heard under either polarity comes to the same bytes after its sync word. -/
theorem classify_complement (bs : List Byte) :
    classify ((be32 syncNormal ++ bs).map fun x => ~~~x) = classifyRest .inverted bs := by
  rw [List.map_append, be32_syncNormal_complement, classify_of_inverted, map_not_not]

/-- Bytes that end in two check bytes where the flags say they do. -/
theorem rest_of_length {middle check : List Byte} (two : check.length = 2)
    (length : middleLength (middle ++ check) = middle.length) :
    let rest := middle ++ check
    let n := middleLength rest
    ¬rest.length < n + 2 ∧ (rest.drop n).take 2 = check ∧ rest.take n = middle := by
  refine ⟨?_, ?_, ?_⟩
  · rw [length, List.length_append]; omega
  · rw [length, List.drop_left]
    exact List.take_of_length_le two.le
  · rw [length]
    exact List.take_left

theorem classifyRest_of_fields {middle : List Byte} {b : Beacon} (pol : Polarity) (fields : fieldsOf middle = some b)
    (length : middleLength (middle ++ checkBytes middle) = middle.length) :
    classifyRest pol (middle ++ checkBytes middle) = .good b pol := by
  obtain ⟨enough, last, first⟩ := rest_of_length (checkBytes_length middle) length
  simp only [classifyRest, enough, last, first, ne_eq, not_true_eq_false, or_self, if_false, fields]

theorem classifyRest_of_badCheck {middle check : List Byte} (pol : Polarity) (two : check.length = 2)
    (length : middleLength (middle ++ check) = middle.length) (other : check ≠ checkBytes middle) :
    classifyRest pol (middle ++ check) = .bad := by
  obtain ⟨-, last, first⟩ := rest_of_length two length
  exact if_pos (.inr (by rw [last, first]; exact other))

/-! ### The fields of a beacon -/

/-- The flags byte of a beacon (R191). -/
def Beacon.flagsByte (b : Beacon) : Byte := byte (flagBits b.flags b.fault.isSome + 32 * b.tap.isSome.toNat)

/-- The parts of a beacon that stand there or do not. -/
def Beacon.parts (b : Beacon) : List Byte :=
  (match b.fault with | none => [] | some r => [r.code]) ++
    (match b.tap with | none => [] | some t => [byte t.pre.val, byte t.post.val])

theorem Beacon.middle_eq (b : Beacon) : b.middle =
    byte (b.chassis.toNat / 65536 / 256) :: byte (b.chassis.toNat / 65536) :: byte (b.chassis.toNat / 256) :: byte b.chassis.toNat ::
      b.portNum :: byte b.lane.val :: byte b.count.toNat :: b.stage.code :: b.flagsByte :: b.parts := rfl

theorem flagBits_bit (f : BeaconFlags) (fault tap : Bool) :
    let x := byte (flagBits f fault + 32 * tap.toNat)
    x.getLsbD 0 = f.hold ∧ x.getLsbD 1 = f.retrain ∧ x.getLsbD 2 = fault ∧ x.getLsbD 3 = f.remoteFault ∧ x.getLsbD 4 = f.loopReq ∧
      x.getLsbD 5 = tap := by
  obtain ⟨hold, retrain, remoteFault, loopReq⟩ := f
  revert hold retrain remoteFault loopReq fault tap
  decide

theorem stageOf_code (g : Stage) : stageOf g.code = some g := by cases g <;> rfl

theorem faultOf_code (r : FaultReason) : faultOf r.code = some r := by cases r <;> rfl

theorem laneOf_byte (l : LanePos) : laneOf (byte l.val) = some l :=
  laneOf_eq_some_iff.2 (toNat_byte (l.isLt.trans (by decide)))

theorem takeTap_bytes (t : Taps) : takeTap true [byte t.pre.val, byte t.post.val] = some (some t, []) := by
  have pre : (byte t.pre.val).toNat = t.pre.val := toNat_byte (t.pre.isLt.trans (by decide))
  have post : (byte t.post.val).toNat = t.post.val := toNat_byte (t.post.isLt.trans (by decide))
  simp only [takeTap, if_true, pre, post, t.pre.isLt, t.post.isLt, and_self, dite_true, Fin.eta]

/-- The parts are taken off one after the other. -/
theorem Beacon.take_parts (b : Beacon) : ∃ rest, takeFault b.fault.isSome b.parts = some (b.fault, rest) ∧
    takeTap b.tap.isSome rest = some (b.tap, []) := by
  unfold Beacon.parts
  cases b.fault with
  | none =>
    cases b.tap with
    | none => exact ⟨[], rfl, rfl⟩
    | some t => exact ⟨_, rfl, takeTap_bytes t⟩
  | some r =>
    cases b.tap with
    | none => exact ⟨[], by simp [takeFault, faultOf_code], rfl⟩
    | some t => exact ⟨_, by simp [takeFault, faultOf_code], takeTap_bytes t⟩

theorem Beacon.parts_length (b : Beacon) :
    b.parts.length = (if b.fault.isSome then 1 else 0) + if b.tap.isSome then 2 else 0 := by
  unfold Beacon.parts
  cases b.fault <;> cases b.tap <;> rfl

theorem Beacon.middle_length (b : Beacon) :
    b.middle.length = 9 + ((if b.fault.isSome then 1 else 0) + if b.tap.isSome then 2 else 0) := by
  rw [Beacon.middle_eq, ← Beacon.parts_length]
  simp only [List.length_cons]
  omega

theorem Beacon.middleLength_eq (b : Beacon) (check : List Byte) : middleLength (b.middle ++ check) = b.middle.length := by
  obtain ⟨-, -, fault, -, -, tap⟩ := flagBits_bit b.flags b.fault.isSome b.tap.isSome
  have flags : (b.middle ++ check).getD 8 0 = b.flagsByte := by rw [Beacon.middle_eq]; rfl
  rw [middleLength, flags, Beacon.middle_length, Beacon.flagsByte, fault, tap]
  cases b.fault.isSome <;> cases b.tap.isSome <;> rfl

theorem fieldsOf_middle {b : Beacon} (chassis : b.chassis ≠ 0) : fieldsOf b.middle = some b := by
  obtain ⟨hold, retrain, fault, remoteFault, loopReq, tap⟩ := flagBits_bit b.flags b.fault.isSome b.tap.isSome
  obtain ⟨rest, takesFault, takesTap⟩ := b.take_parts
  have number : BitVec.ofNat 32 (ofBytes [byte (b.chassis.toNat / 65536 / 256), byte (b.chassis.toNat / 65536),
      byte (b.chassis.toNat / 256), byte b.chassis.toNat]) = b.chassis :=
    (word_of_bytes b.chassis.isLt).trans (by rw [BitVec.ofNat_toNat, BitVec.setWidth_eq])
  rw [Beacon.middle_eq]
  simp only [fieldsOf, number, chassis, if_false, laneOf_byte, countOf_toNat, stageOf_code, Beacon.flagsByte, hold, retrain, fault,
    remoteFault, loopReq, tap, takesFault, takesTap, Option.bind_eq_bind, Option.bind_some, Option.pure_def]

/-- Settles O31: after the sync word the bytes are the same under either polarity, and every field is read back from them. -/
theorem beaconSurvivesTheLane : Obligations.BeaconSurvivesTheLane := by
  intro b chassis
  have good : ∀ pol, classifyRest pol (b.middle ++ checkBytes b.middle) = .good b pol := fun pol =>
    classifyRest_of_fields pol (fieldsOf_middle chassis) (b.middleLength_eq _)
  have bad : ∀ pol, classifyRest pol (b.middle ++ (checkBytes b.middle).map (~~~ ·)) = .bad := fun pol =>
    classifyRest_of_badCheck pol rfl (b.middleLength_eq _) (checkBytes_complement_ne _)
  have plain : b.bytes false = be32 syncNormal ++ (b.middle ++ checkBytes b.middle) := List.append_assoc ..
  have hurt : b.bytes true = be32 syncNormal ++ (b.middle ++ (checkBytes b.middle).map (~~~ ·)) := List.append_assoc ..
  rw [plain, hurt]
  refine ⟨(classify_of_normal _).trans (good _), (classify_complement _).trans (good _), (classify_of_normal _).trans (bad _),
    (classify_complement _).trans (bad _), ?_⟩
  rw [List.length_append, List.length_append, Beacon.middle_length, checkBytes_length]
  show 4 + _ = _
  omega

end Sys2Proof.Machine
end

section
/-! SUPPORT. The receive record under good beacons, bad ones and silence (R7 to R11, R15, R16, R58). -/

namespace Sys2Proof.Machine

variable {r : Receiver} {b : Beacon} {pol : Polarity} {i : Identity}

/-! ### A good beacon, state by state -/

theorem Receiver.good_of_first (h : r.state = .silent) (k : r.goodRun = 0) : r.good b pol =
    ({ r.hear b with goodRun := r.goodRun + 1, candidate := some (b.identity pol), stabRun := r.nextRun (b.identity pol) }, []) := by
  simp [Receiver.good, h, k]

theorem Receiver.good_of_second (h : r.state = .silent) (k : 1 ≤ r.goodRun) : r.good b pol =
    ({ r.hear b with goodRun := r.goodRun + 1, candidate := some (b.identity pol), stabRun := r.nextRun (b.identity pol)
                     state := .locked, lockedFromSilent := true }, [.locked]) := by
  simp [Receiver.good, h, k]

theorem Receiver.good_of_unstable (h : r.state = .locked) (k : r.nextRun (b.identity pol) < 4) : r.good b pol =
    ({ r.hear b with candidate := some (b.identity pol), stabRun := r.nextRun (b.identity pol) }, []) := by
  simp [Receiver.good, h, Nat.not_le.2 k]

theorem Receiver.good_of_fourth (h : r.state = .locked) (k : 4 ≤ r.nextRun (b.identity pol)) : r.good b pol =
    ({ r.hear b with candidate := some (b.identity pol), stabRun := r.nextRun (b.identity pol), state := .stable
                     lastStable := some (b.identity pol) }, r.stableEvents (b.identity pol) b.flags.remoteFault) := by
  simp [Receiver.good, h, k]

theorem Receiver.good_of_same (h : r.state = .stable) (k : r.lastStable = some (b.identity pol)) : r.good b pol =
    ({ r.hear b with stabRun := if r.stabRun = 0 then 1 else r.stabRun }, r.wayChange b.flags.remoteFault) := by
  simp [Receiver.good, h, k]

theorem Receiver.good_of_other {old : Identity} (h : r.state = .stable) (k : r.lastStable = some old)
    (other : old ≠ b.identity pol) : r.good b pol =
    ({ r.hear b with candidate := some (b.identity pol), stabRun := 1, state := .locked, lockedFromSilent := false },
      [.identityChanged old (b.identity pol)]) := by
  simp [Receiver.good, h, k, other]

theorem Receiver.good_of_unheld (h : r.state = .stable) (k : r.lastStable = none) : r.good b pol = (r.hear b, []) := by
  simp [Receiver.good, h, k]

/-- The cases of a good beacon on a listening lane. -/
theorem Receiver.good_cases (b : Beacon) (pol : Polarity) (on : r.state ≠ .off) {P : Receiver × List LaneEvent → Prop}
    (first : r.state = .silent → r.goodRun = 0 → P (r.good b pol)) (second : r.state = .silent → 1 ≤ r.goodRun → P (r.good b pol))
    (unstable : r.state = .locked → r.nextRun (b.identity pol) < 4 → P (r.good b pol))
    (fourth : r.state = .locked → 4 ≤ r.nextRun (b.identity pol) → P (r.good b pol))
    (same : r.state = .stable → r.lastStable = some (b.identity pol) → P (r.good b pol))
    (other : ∀ old, r.state = .stable → r.lastStable = some old → old ≠ b.identity pol → P (r.good b pol))
    (unheld : r.state = .stable → r.lastStable = none → P (r.good b pol)) : P (r.good b pol) := by
  cases state : r.state with
  | off => exact absurd state on
  | silent =>
    by_cases run : r.goodRun = 0
    · exact first state run
    · exact second state (Nat.one_le_iff_ne_zero.2 run)
  | locked =>
    by_cases run : r.nextRun (b.identity pol) < 4
    · exact unstable state run
    · exact fourth state (Nat.not_lt.1 run)
  | stable =>
    cases held : r.lastStable with
    | none => exact unheld state held
    | some old =>
      by_cases eq : old = b.identity pol
      · exact same state (eq ▸ held)
      · exact other old state held eq

/-- What every good beacon does, whatever the state (R7, R15, R16). -/
structure Receiver.Heard (r q : Receiver) (b : Beacon) : Prop where
  silence : q.silence = some 20
  badRun : q.badRun = 0
  far : q.far = some b.farEnd
  suspended : q.suspended = r.suspended
  loopRun : q.loopRun = if b.flags.loopReq then r.loopRun + 1 else 0
  noLoopRun : q.noLoopRun = if b.flags.loopReq then 0 else r.noLoopRun + 1
  loopSeen : q.loopSeen = if r.loopSeen then b.flags.loopReq || decide (r.noLoopRun + 1 < 16)
    else b.flags.loopReq && decide (16 ≤ r.loopRun + 1)

theorem Receiver.good_heard (b : Beacon) (pol : Polarity) (on : r.state ≠ .off) : r.Heard (r.good b pol).1 b := by
  refine Receiver.good_cases (P := fun o => r.Heard o.1 b) b pol on (fun h k => ?_) (fun h k => ?_) (fun h k => ?_) (fun h k => ?_)
    (fun h k => ?_) (fun old h k other => ?_) fun h k => ?_
  · rw [Receiver.good_of_first h k]; exact ⟨rfl, rfl, rfl, rfl, rfl, rfl, rfl⟩
  · rw [Receiver.good_of_second h k]; exact ⟨rfl, rfl, rfl, rfl, rfl, rfl, rfl⟩
  · rw [Receiver.good_of_unstable h k]; exact ⟨rfl, rfl, rfl, rfl, rfl, rfl, rfl⟩
  · rw [Receiver.good_of_fourth h k]; exact ⟨rfl, rfl, rfl, rfl, rfl, rfl, rfl⟩
  · rw [Receiver.good_of_same h k]; exact ⟨rfl, rfl, rfl, rfl, rfl, rfl, rfl⟩
  · rw [Receiver.good_of_other h k other]; exact ⟨rfl, rfl, rfl, rfl, rfl, rfl, rfl⟩
  · rw [Receiver.good_of_unheld h k]; exact ⟨rfl, rfl, rfl, rfl, rfl, rfl, rfl⟩

/-! ### The events of a good beacon -/

theorem Receiver.stableEvents_changed {old : Identity} (relocked : r.lockedFromSilent = true) (held : r.lastStable = some old)
    (other : old ≠ i) (fault : Bool) : r.stableEvents i fault = [.identityChanged old i, wayEvent fault] := by
  simp [Receiver.stableEvents, held, relocked, other]

theorem Receiver.stableEvents_stable (h : r.lockedFromSilent = false ∨ r.lastStable = none ∨ r.lastStable = some i) (fault : Bool) :
    r.stableEvents i fault = [.stable, wayEvent fault] := by
  unfold Receiver.stableEvents
  rcases h with h | h | h
  · cases r.lastStable <;> simp [h]
  · rw [h]
  · simp [h]

theorem Receiver.oneWay_iff (h : r.state = .stable) : r.oneWay = true ↔ ∃ g, r.far = some g ∧ g.flags.remoteFault = true := by
  cases far : r.far <;> simp [Receiver.oneWay, h, far]

theorem Receiver.wayChange_of_iff {fault : Bool} (h : r.oneWay = true ↔ fault = true) : r.wayChange fault = [] :=
  if_pos (Bool.eq_iff_iff.2 h)

theorem Receiver.wayChange_of_not {fault : Bool} (h : ¬(r.oneWay = true ↔ fault = true)) : r.wayChange fault = [wayEvent fault] :=
  if_neg fun same => h (Bool.eq_iff_iff.1 same)

/-! ### Four good beacons on a clean lane -/

theorem Receiver.nextRun_of_candidate (h : r.candidate = some i) : r.nextRun i = r.stabRun + 1 := if_pos h

theorem Receiver.nextRun_of_clean (h : r.stabRun = 0) (i : Identity) : r.nextRun i = 1 := by
  simp [Receiver.nextRun, h]

/-- A clean far end is LOCKED with its second beacon and STABLE with its fourth (R7). -/
theorem Receiver.good_four (h : r.state = .silent) (run : r.goodRun = 0) (clean : r.stabRun = 0) (b : Beacon) (pol : Polarity) :
    let r1 := (r.good b pol).1
    let r2 := (r1.good b pol).1
    let r3 := (r2.good b pol).1
    r1.state = .silent ∧ r2.state = .locked ∧ r3.state = .locked ∧ (r3.good b pol).1.state = .stable := by
  intro r1 r2 r3
  have e1 : r1 = _ := congrArg Prod.fst (Receiver.good_of_first (b := b) (pol := pol) h run)
  have s1 : r1.state = .silent := by rw [e1]; exact h
  have c1 : r1.candidate = some (b.identity pol) ∧ r1.stabRun = 1 ∧ r1.goodRun = 1 := by
    rw [e1]; exact ⟨rfl, Receiver.nextRun_of_clean clean _, congrArg (· + 1) run⟩
  have e2 : r2 = _ := congrArg Prod.fst (Receiver.good_of_second (b := b) (pol := pol) s1 c1.2.2.ge)
  have c2 : r2.state = .locked ∧ r2.candidate = some (b.identity pol) ∧ r2.stabRun = 2 := by
    rw [e2]; exact ⟨rfl, rfl, (Receiver.nextRun_of_candidate c1.1).trans (congrArg (· + 1) c1.2.1)⟩
  have n3 : r2.nextRun (b.identity pol) = 3 := (Receiver.nextRun_of_candidate c2.2.1).trans (congrArg (· + 1) c2.2.2)
  have e3 : r3 = _ := congrArg Prod.fst (Receiver.good_of_unstable (b := b) (pol := pol) c2.1 (n3.trans_lt (by decide)))
  have c3 : r3.state = .locked ∧ r3.candidate = some (b.identity pol) ∧ r3.stabRun = 3 := by
    rw [e3]; exact ⟨c2.1, rfl, n3⟩
  have n4 : r3.nextRun (b.identity pol) = 4 := (Receiver.nextRun_of_candidate c3.2.1).trans (congrArg (· + 1) c3.2.2)
  exact ⟨s1, c2.1, c3.1, by rw [Receiver.good_of_fourth c3.1 n4.ge]⟩

/-- Settles O32: one equation for each receive state and run, and what every good beacon does is the same in all of them. -/
theorem goodBeaconMovesReceiver : Obligations.GoodBeaconMovesReceiver := by
  refine ⟨fun r b pol on holds => ?_, fun b pol r h run clean => Receiver.good_four h run clean b pol, fun r b pol on => ?_⟩
  · intro i q es run way
    have heard : r.Heard q b := Receiver.good_heard b pol on
    refine ⟨heard.silence, heard.badRun, heard.far, heard.suspended, fun silent => ?_, fun locked => ?_, fun stable old held => ?_⟩
    · by_cases first : r.goodRun = 0
      · dsimp only [q, es]
        rw [Receiver.good_of_first (b := b) (pol := pol) silent first]
        exact ⟨rfl, rfl, rfl, rfl, fun later => absurd first (Nat.one_le_iff_ne_zero.1 later), fun _ => ⟨silent, rfl⟩⟩
      · dsimp only [q, es]
        rw [Receiver.good_of_second (b := b) (pol := pol) silent (Nat.one_le_iff_ne_zero.2 first)]
        exact ⟨rfl, rfl, rfl, rfl, fun _ => ⟨rfl, rfl, rfl⟩, fun again => absurd again first⟩
    · by_cases fourth : 4 ≤ r.nextRun (b.identity pol)
      · dsimp only [q, es]
        rw [Receiver.good_of_fourth (b := b) (pol := pol) locked fourth]
        exact ⟨rfl, rfl, fun early => absurd fourth (Nat.not_le.2 early), fun _ => ⟨rfl, rfl,
          fun old relocked held other => Receiver.stableEvents_changed relocked held other _,
          fun same => Receiver.stableEvents_stable same _⟩⟩
      · dsimp only [q, es]
        rw [Receiver.good_of_unstable (b := b) (pol := pol) locked (Nat.not_le.1 fourth)]
        exact ⟨rfl, rfl, fun _ => ⟨locked, rfl, rfl⟩, fun late => absurd late fourth⟩
    · by_cases same : old = i
      · dsimp only [q, es]
        rw [Receiver.good_of_same (b := b) (pol := pol) stable (held.trans (congrArg some same))]
        refine ⟨fun _ => ⟨stable, held.trans (congrArg some same), rfl, rfl, fun way => ?_, fun way => ?_⟩, fun other => absurd same other⟩
        · exact Receiver.wayChange_of_iff ((Receiver.oneWay_iff stable).trans way)
        · exact Receiver.wayChange_of_not fun k => way ((Receiver.oneWay_iff stable).symm.trans k)
      · dsimp only [q, es]
        rw [Receiver.good_of_other (b := b) (pol := pol) stable held same]
        exact ⟨fun eq => absurd eq same, fun _ => ⟨rfl, rfl, rfl, held, rfl, rfl⟩⟩
  · intro q
    have heard : r.Heard q b := Receiver.good_heard b pol on
    refine ⟨fun req => ⟨?_, ?_, ?_⟩, fun req => ⟨?_, ?_, ?_⟩⟩
    · rw [heard.loopRun, req, if_pos rfl]
    · rw [heard.noLoopRun, req, if_pos rfl]
    · rw [heard.loopSeen, req]
      cases r.loopSeen <;> simp
    · rw [heard.noLoopRun, req]; rfl
    · rw [heard.loopRun, req]; rfl
    · rw [heard.loopSeen, req]
      cases r.loopSeen <;> simp

/-! ### Bad beacons and silence -/

theorem Receiver.bad_of_quiet (h : ¬((r.state = .locked ∨ r.state = .stable) ∧ 3 ≤ r.badRun + 1)) :
    r.bad = ({ r with goodRun := 0, stabRun := 0, badRun := r.badRun + 1 }, []) := if_neg h

theorem Receiver.bad_of_third (h : r.state = .locked ∨ r.state = .stable) (k : 3 ≤ r.badRun + 1) :
    r.bad = (Receiver.drop { r with goodRun := 0, stabRun := 0, badRun := r.badRun + 1 }, [.silent]) := if_pos ⟨h, k⟩

theorem Receiver.expire_of_silent (h : r.state = .silent) :
    r.expire = ({ r with silence := none, goodRun := 0, stabRun := 0 }, []) := by
  simp [Receiver.expire, h]

theorem Receiver.expire_of_locked (h : r.state = .locked ∨ r.state = .stable) :
    r.expire = (Receiver.drop { r with silence := none, goodRun := 0, stabRun := 0, badRun := 0 }, [.silent]) := by
  rcases h with h | h <;> simp [Receiver.expire, h]

theorem RxState.listening {z : RxState} (h : z ≠ .off) : z = .silent ∨ z = .locked ∨ z = .stable := by
  cases z <;> simp at h ⊢

theorem Receiver.not_locked_of_silent (h : r.state = .silent) : ¬(r.state = .locked ∨ r.state = .stable) := by simp [h]

/-- After a run of 0 the next good beacon starts at 1, whatever the candidate. -/
theorem Receiver.nextRun_of_bad (r : Receiver) (i : Identity) : r.bad.1.nextRun i = 1 := by
  refine Receiver.nextRun_of_clean ?_ i
  unfold Receiver.bad
  dsimp only
  split <;> rfl

/-- Settles O33: a bad beacon and an expiry drop a locked lane, and only that. -/
theorem badBeaconsAndSilenceLoseLock : Obligations.BadBeaconsAndSilenceLoseLock := by
  refine ⟨fun r on => ?_, fun r on => ?_, fun s p l idle => ?_⟩
  · intro q
    have run : ∀ i, q.nextRun i = 1 := r.nextRun_of_bad
    by_cases third : (r.state = .locked ∨ r.state = .stable) ∧ 3 ≤ r.badRun + 1
    · obtain ⟨locked, bad⟩ := third
      dsimp only [q] at run ⊢
      rw [Receiver.bad_of_third locked bad] at run ⊢
      exact ⟨rfl, rfl, rfl, rfl, rfl, rfl, run, fun silent => absurd locked (Receiver.not_locked_of_silent silent),
        fun _ => ⟨fun early => absurd bad (Nat.not_le.2 early), fun _ => ⟨rfl, rfl, rfl, rfl, rfl, rfl⟩⟩⟩
    · dsimp only [q] at run ⊢
      rw [Receiver.bad_of_quiet third] at run ⊢
      exact ⟨rfl, rfl, rfl, rfl, rfl, rfl, run, fun _ => ⟨rfl, rfl⟩,
        fun locked => ⟨fun _ => ⟨rfl, rfl, rfl, rfl⟩, fun bad => absurd ⟨locked, bad⟩ third⟩⟩
  · intro q
    rcases RxState.listening on with silent | locked
    · dsimp only [q]
      rw [Receiver.expire_of_silent silent]
      exact ⟨silent, rfl, rfl, rfl, rfl, fun _ => ⟨rfl, rfl, rfl, rfl⟩,
        fun locked => absurd locked (Receiver.not_locked_of_silent silent)⟩
    · dsimp only [q]
      rw [Receiver.expire_of_locked locked]
      exact ⟨rfl, rfl, rfl, rfl, rfl, fun silent => absurd locked (Receiver.not_locked_of_silent silent),
        fun _ => ⟨rfl, rfl, rfl, rfl, rfl, rfl⟩⟩
  · refine exec_silenceTimerExpiry_of_not _ _ _ (Receiver.timed_eq_false ?_)
    exact idle.imp_right .inl

end Sys2Proof.Machine
end

section
/-! SUPPORT. The derivation of the lane map (R64 to R73), question by question. -/

namespace Sys2Proof.Machine

variable {us : List Usable} {e : PlanEntry} {n : Snapshot} {nb : Neighbour}

/-! ### One far port, and the identity verdict (R65, R66) -/

theorem neighbour_eq_iff {i : Identity} : i.neighbour = nb ↔ i.chassis = nb.chassis ∧ i.portNum = nb.portNum := by
  cases nb
  simp [Identity.neighbour]

theorem sameRemote_of_all (some_ : us ≠ []) (all : ∀ u ∈ us, u.2.neighbour = nb) : sameRemote us = some nb := by
  cases us with
  | nil => exact absurd rfl some_
  | cons u us =>
    have first : u.2.neighbour = nb := all u List.mem_cons_self
    have rest : us.all (fun v => decide (v.2.neighbour = u.2.neighbour)) = true :=
      List.all_eq_true.2 fun v hv => decide_eq_true ((all v (List.mem_cons_of_mem _ hv)).trans first.symm)
    rw [sameRemote, if_pos rest, first]

theorem sameRemote_eq_some (h : sameRemote us = some nb) : ∀ u ∈ us, u.2.neighbour = nb := by
  cases us with
  | nil => exact fun u hu => absurd hu List.not_mem_nil
  | cons v vs =>
    obtain ⟨rest, first⟩ := Option.ite_none_right_eq_some.1 h
    obtain rfl := Option.some.inj first
    intro u hu
    rcases List.mem_cons.1 hu with rfl | hu
    · rfl
    · exact of_decide_eq_true (List.all_eq_true.1 rest u hu)

theorem sameRemote_of_split (h : ∃ u ∈ us, ∃ v ∈ us, u.2.chassis ≠ v.2.chassis ∨ u.2.portNum ≠ v.2.portNum) :
    sameRemote us = none := by
  obtain ⟨u, hu, v, hv, differ⟩ := h
  refine Option.eq_none_iff_forall_ne_some.2 fun nb one => ?_
  have same : u.2.neighbour = v.2.neighbour := (sameRemote_eq_some one u hu).trans (sameRemote_eq_some one v hv).symm
  obtain ⟨chassis, portNum⟩ := neighbour_eq_iff.1 same
  exact differ.elim (fun k => k chassis) fun k => k portNum

theorem derive_of_split (h : sameRemote us = none) :
    derive n us = { neighbour := none, verdict := none, outcome := .error .splitCable } := by
  rw [derive, h]

theorem derive_of_same (h : sameRemote us = some nb) : derive n us =
    { neighbour := some nb, verdict := some (n.verdict nb)
      outcome := if n.verdict nb = .mismatch ∧ n.entry.ask = false then .error .miswired else mapChecks n.entry us } := by
  rw [derive, h]

theorem PlanEntry.expects_iff : e.expects nb = true ↔
    (e.chassis = none ∨ e.chassis = some nb.chassis) ∧ (e.portNum = none ∨ e.portNum = some nb.portNum) := by
  rw [PlanEntry.expects, Bool.and_eq_true]
  cases e.chassis <;> cases e.portNum <;> simp

theorem Snapshot.verdict_of_background (h : n.source = .background) : n.verdict nb = .unplanned := if_pos h

theorem Snapshot.verdict_of_expects (h : n.source ≠ .background) (k : n.entry.expects nb = true) : n.verdict nb = .matching :=
  (if_neg h).trans (if_pos k)

theorem Snapshot.verdict_of_not_expects (h : n.source ≠ .background) (k : ¬n.entry.expects nb = true) : n.verdict nb = .mismatch :=
  (if_neg h).trans (if_neg k)

/-! ### The map checks (R67 to R71) -/

/-- L, the lane count of an entry as a number. -/
theorem LaneCount.toNat_eq_ite (c : LaneCount) : c.toNat = if c = .four then 4 else 8 := by cases c <;> rfl

theorem mapChecks_of_widthMismatch (h : ∃ u ∈ us, u.2.count ≠ e.count) : mapChecks e us = .error .widthMismatch :=
  if_pos (List.any_eq_true.2 (h.imp fun _ k => k.imp_right decide_eq_true))

theorem counts_agree (h : ∀ u ∈ us, u.2.count = e.count) : ¬us.any (fun u => decide (u.2.count ≠ e.count)) = true := by
  simpa using h

/-- The lanes pass steps 3 and 4: they carry the entry's lane count, and remote lanes below it, each once (R67, R68). -/
structure PlanEntry.Distinct (e : PlanEntry) (us : List Usable) : Prop where
  counts : ∀ u ∈ us, u.2.count = e.count
  inside : ∀ u ∈ us, u.2.lane.val < e.count.toNat
  once : (us.map fun u => u.2.lane).Nodup

theorem mapChecks_of_dupLane (counts : ∀ u ∈ us, u.2.count = e.count)
    (h : (∃ u ∈ us, e.count.toNat ≤ u.2.lane.val) ∨ ¬(us.map fun u => u.2.lane).Nodup) : mapChecks e us = .error .dupLane := by
  rw [mapChecks, if_neg (counts_agree counts), if_pos]
  simpa using h

variable (d : e.Distinct us)
include d

theorem PlanEntry.Distinct.passes :
    ¬(us.any (fun u => decide (e.count.toNat ≤ u.2.lane.val)) = true ∨ ¬(us.map fun u => u.2.lane).Nodup) := by
  rintro (outside | twice)
  · obtain ⟨u, hu, above⟩ := List.any_eq_true.1 outside
    exact absurd (d.inside u hu) (Nat.not_lt.2 (of_decide_eq_true above))
  · exact twice d.once

theorem mapChecks_of_incomplete (h : coverage e us = none) : mapChecks e us = .error .incomplete := by
  rw [mapChecks, if_neg (counts_agree d.counts), if_neg d.passes, h]

theorem mapChecks_of_disallowed {w : Width} (h : coverage e us = some w) (k : e.map.accepts (classOf e.count.toNat us) = false) :
    mapChecks e us = .error .mapDisallowed := by
  rw [mapChecks, if_neg (counts_agree d.counts), if_neg d.passes, h]
  exact if_pos k

theorem mapChecks_of_polarity {w : Width} (h : coverage e us = some w) (k : e.map.accepts (classOf e.count.toNat us) = true)
    (refused : e.polarity = .refuse) (inverted : ∃ u ∈ us, u.2.polarity = .inverted) : mapChecks e us = .error .polarity := by
  rw [mapChecks, if_neg (counts_agree d.counts), if_neg d.passes, h]
  have found : us.any (fun u => decide (u.2.polarity = .inverted)) = true :=
    List.any_eq_true.2 (inverted.imp fun _ k => k.imp_right decide_eq_true)
  simp only [k, refused, found, Bool.true_eq_false, if_false, and_self, if_true]

theorem mapChecks_of_legal {w : Width} (h : coverage e us = some w) (k : e.map.accepts (classOf e.count.toNat us) = true)
    (plain : e.polarity = .correct ∨ ∀ u ∈ us, u.2.polarity = .normal) :
    mapChecks e us = .ok (buildMap us (w.count e.count.toNat), classOf e.count.toNat us, w) := by
  rw [mapChecks, if_neg (counts_agree d.counts), if_neg d.passes, h]
  have passes : ¬(e.polarity = .refuse ∧ us.any (fun u => decide (u.2.polarity = .inverted)) = true) := by
    rintro ⟨refused, found⟩
    rcases plain with correct | normal
    · simp [correct] at refused
    · obtain ⟨u, hu, inverted⟩ := List.any_eq_true.1 found
      simp [normal u hu] at inverted
  simp only [k, passes, Bool.true_eq_false, if_false]

omit d

/-- What a derivation that succeeds has found (R67 to R71, R73). -/
theorem mapChecks_eq_ok {m : Vector MapEntry 8} {c : MapClass} {w : Width} (h : mapChecks e us = .ok (m, c, w)) :
    e.Distinct us ∧ coverage e us = some w ∧ m = buildMap us (w.count e.count.toNat) := by
  by_cases counts : ∀ u ∈ us, u.2.count = e.count
  · by_cases distinct : (∃ u ∈ us, e.count.toNat ≤ u.2.lane.val) ∨ ¬(us.map fun u => u.2.lane).Nodup
    · rw [mapChecks_of_dupLane counts distinct] at h
      exact nomatch h
    · obtain ⟨inside, once⟩ := not_or.1 distinct
      have d : e.Distinct us := ⟨counts, fun u hu => Nat.not_le.1 fun above => inside ⟨u, hu, above⟩, not_not.1 once⟩
      cases covers : coverage e us with
      | none =>
        rw [mapChecks_of_incomplete d covers] at h
        exact nomatch h
      | some v =>
        rw [mapChecks, if_neg (counts_agree d.counts), if_neg d.passes, covers] at h
        dsimp only at h
        split_ifs at h
        obtain ⟨rfl, -, rfl⟩ := Prod.mk.inj (Except.ok.inj h) |>.imp_right Prod.mk.inj
        exact ⟨d, rfl, rfl⟩
  · have differ : ∃ u ∈ us, u.2.count ≠ e.count := by
      simpa using counts
    rw [mapChecks_of_widthMismatch differ] at h
    exact nomatch h

/-! ### Coverage, class and policy (R69, R70) -/

/-- The lower half of the lanes is usable at the far end. -/
def LowHalf (L : Nat) (us : List Usable) : Prop := ∀ k, k < L / 2 → ∃ u ∈ us, u.2.lane.val = k

theorem lowHalf_iff (L : Nat) (us : List Usable) :
    (List.range (L / 2)).all (fun k => us.any fun u => decide (u.2.lane.val = k)) = true ↔ LowHalf L us := by
  simp [LowHalf]

theorem coverage_of_full (h : us.length = e.count.toNat) : coverage e us = some .full := if_pos h

theorem coverage_of_half (h : us.length ≠ e.count.toNat) (k : e.width = .halfOk) (low : LowHalf e.count.toNat us) :
    coverage e us = some .half :=
  (if_neg h).trans (if_pos ⟨k, (lowHalf_iff _ _).2 low⟩)

theorem coverage_of_neither (h : us.length ≠ e.count.toNat) (k : e.width = .fullOnly ∨ ¬LowHalf e.count.toNat us) :
    coverage e us = none := by
  refine (if_neg h).trans (if_neg ?_)
  rintro ⟨half, low⟩
  rcases k with full | missing
  · simp [full] at half
  · exact missing ((lowHalf_iff _ _).1 low)

/-- A full width stands on all lanes, a half one on the lower half of them. -/
theorem coverage_eq_some {w : Width} (h : coverage e us = some w) :
    (w = .full ∧ us.length = e.count.toNat) ∨ (w = .half ∧ LowHalf e.count.toNat us) := by
  by_cases full : us.length = e.count.toNat
  · rw [coverage_of_full full] at h
    exact .inl ⟨(Option.some.inj h).symm, full⟩
  · rw [coverage, if_neg full] at h
    obtain ⟨⟨-, low⟩, half⟩ := Option.ite_none_right_eq_some.1 h
    exact .inr ⟨(Option.some.inj half).symm, (lowHalf_iff _ _).1 low⟩

/-- Every usable lane meets the lane of its own number. -/
def Straight (us : List Usable) : Prop := ∀ u ∈ us, u.2.lane.val = u.1.val

/-- Every usable lane meets the lane of the mirrored number. -/
def Mirrored (L : Nat) (us : List Usable) : Prop := ∀ u ∈ us, u.2.lane.val + u.1.val + 1 = L

theorem straight_iff (us : List Usable) : us.all (fun u => decide (u.2.lane.val = u.1.val)) = true ↔ Straight us := by
  simp [Straight]

theorem mirrored_iff (L : Nat) (us : List Usable) :
    us.all (fun u => decide (u.2.lane.val + u.1.val + 1 = L)) = true ↔ Mirrored L us := by
  simp [Mirrored]

theorem classOf_straight {L : Nat} (h : Straight us) : classOf L us = .straight := if_pos ((straight_iff us).2 h)

theorem classOf_reversed {L : Nat} (h : ¬Straight us) (k : Mirrored L us) : classOf L us = .reversed :=
  (if_neg (mt (straight_iff us).1 h)).trans (if_pos ((mirrored_iff L us).2 k))

theorem classOf_permuted {L : Nat} (h : ¬Straight us) (k : ¬Mirrored L us) : classOf L us = .permuted :=
  (if_neg (mt (straight_iff us).1 h)).trans (if_neg (mt (mirrored_iff L us).1 k))

theorem classOf_eq_straight_iff {L : Nat} : classOf L us = .straight ↔ Straight us := by
  by_cases h : Straight us
  · simp [classOf_straight h, h]
  · by_cases k : Mirrored L us
    · simp [classOf_reversed h k, h]
    · simp [classOf_permuted h k, h]

theorem classOf_eq_reversed_iff {L : Nat} : classOf L us = .reversed ↔ ¬Straight us ∧ Mirrored L us := by
  by_cases h : Straight us
  · simp [classOf_straight h, h]
  · by_cases k : Mirrored L us
    · simp [classOf_reversed h k, h, k]
    · simp [classOf_permuted h k, k]

theorem accepts_of_allowed {L : Nat} {q : MapPolicy} (h : q = .anyOrder ∨ Straight us ∨ q = .reversalOk ∧ Mirrored L us) :
    q.accepts (classOf L us) = true := by
  rcases h with rfl | straight | ⟨rfl, mirrored⟩
  · rfl
  · rw [classOf_straight straight]; cases q <;> rfl
  · by_cases straight : Straight us
    · rw [classOf_straight straight]; rfl
    · rw [classOf_reversed straight mirrored]; rfl

theorem accepts_of_disallowed {L : Nat} {q : MapPolicy}
    (h : q = .straightOnly ∧ ¬Straight us ∨ q = .reversalOk ∧ ¬Straight us ∧ ¬Mirrored L us) : q.accepts (classOf L us) = false := by
  rcases h with ⟨rfl, bent⟩ | ⟨rfl, bent, unmirrored⟩
  · by_cases mirrored : Mirrored L us
    · rw [classOf_reversed bent mirrored]; rfl
    · rw [classOf_permuted bent mirrored]; rfl
  · rw [classOf_permuted bent unmirrored]; rfl

/-- Settles O34: each question has an equation for its failure, which the questions before it have passed. -/
theorem derivationAsksInOrder : Obligations.DerivationAsksInOrder := by
  intro n us
  dsimp only
  rw [← LaneCount.toNat_eq_ite]
  refine ⟨fun split => by rw [derive_of_split (sameRemote_of_split split)]; exact ⟨rfl, rfl, rfl⟩, fun nb some_ all => ?_⟩
  rw [derive_of_same (sameRemote_of_all some_ fun u hu => neighbour_eq_iff.2 (all u hu))]
  dsimp only
  rw [← PlanEntry.expects_iff]
  refine ⟨rfl, fun k => congrArg some (Snapshot.verdict_of_background k), fun k a => congrArg some (Snapshot.verdict_of_expects k a),
    fun k a => congrArg some (Snapshot.verdict_of_not_expects k a),
    fun k a ask => if_pos ⟨Snapshot.verdict_of_not_expects k a, ask⟩, fun passes => ?_⟩
  have goesOn : ¬(n.verdict nb = .mismatch ∧ n.entry.ask = false) := by
    rintro ⟨mismatch, ask⟩
    rcases passes with background | agrees | asks
    · simp [Snapshot.verdict_of_background background] at mismatch
    · by_cases background : n.source = .background
      · simp [Snapshot.verdict_of_background background] at mismatch
      · simp [Snapshot.verdict_of_expects background agrees] at mismatch
    · simp [ask] at asks
  rw [if_neg goesOn]
  refine ⟨mapChecks_of_widthMismatch, fun counts => ⟨mapChecks_of_dupLane counts, fun inside once => ?_⟩⟩
  have d : n.entry.Distinct us := ⟨counts, inside, once⟩
  refine ⟨fun part k => mapChecks_of_incomplete d (coverage_of_neither part k), fun covers => ?_⟩
  obtain ⟨w, width, full⟩ : ∃ w, coverage n.entry us = some w ∧ (w = .full ↔ us.length = n.entry.count.toNat) := by
    by_cases all : us.length = n.entry.count.toNat
    · exact ⟨.full, coverage_of_full all, by simp [all]⟩
    · obtain ⟨half, low⟩ := covers.resolve_left all
      exact ⟨.half, coverage_of_half all half low, by simp [all]⟩
  refine ⟨fun k => mapChecks_of_disallowed d width (accepts_of_disallowed k), fun allowed => ?_⟩
  have accepts := accepts_of_allowed allowed
  exact ⟨mapChecks_of_polarity d width accepts, fun plain => ⟨_, _, w, mapChecks_of_legal d width accepts plain, full,
    classOf_eq_straight_iff, classOf_eq_reversed_iff⟩⟩

/-! ### The lane map (R73) -/

theorem buildMap_get (us : List Usable) (w : Nat) (l : LanePos) : (buildMap us w)[l] =
    ((us.find? fun u => decide (u.1 = l)).elim .empty fun u =>
      { remote := some u.2.lane, polarity := u.2.polarity, logical := if u.2.lane.val < w then some u.2.lane else none }) := by
  refine (Vector.getElem_ofFn l.isLt).trans ?_
  show (match us.find? fun u => decide (u.1 = l) with | none => _ | some u => _) = _
  cases us.find? fun u => decide (u.1 = l) <;> rfl

theorem buildMap_of_mem {w : Nat} (nodup : (us.map Prod.fst).Nodup) {u : Usable} (h : u ∈ us) : (buildMap us w)[u.1] =
    { remote := some u.2.lane, polarity := u.2.polarity, logical := if u.2.lane.val < w then some u.2.lane else none } := by
  have first : us.find? (fun v => decide (v.1 = u.1)) = some u := by
    obtain ⟨before, after, rfl⟩ := List.append_of_mem h
    rw [List.map_append, List.map_cons, List.nodup_append] at nodup
    obtain ⟨-, -, apart⟩ := nodup
    refine List.find?_eq_some_iff_append.2 ⟨decide_eq_true rfl, before, after, rfl, fun v hv => ?_⟩
    have other := apart v.1 (List.mem_map_of_mem hv) u.1 List.mem_cons_self
    simpa using other
  rw [buildMap_get, first]
  rfl

theorem buildMap_of_not_mem {w : Nat} {l : LanePos} (h : ∀ u ∈ us, u.1 ≠ l) : (buildMap us w)[l] = .empty := by
  have none : us.find? (fun v => decide (v.1 = l)) = none := List.find?_eq_none.2 fun u hu => by simpa using h u hu
  rw [buildMap_get, none]
  rfl

/-- As many distinct remote lanes below L as L are all of them. -/
theorem PlanEntry.Distinct.covers (d : e.Distinct us) (full : us.length = e.count.toNat) {k : Nat} (h : k < e.count.toNat) :
    ∃ u ∈ us, u.2.lane.val = k := by
  have once : (us.map fun u => u.2.lane.val).Nodup := by
    have := d.once.map Fin.val_injective
    rwa [List.map_map] at this
  have inside : (us.map fun u => u.2.lane.val).toFinset ⊆ Finset.range e.count.toNat := fun v hv => by
    obtain ⟨u, hu, rfl⟩ := List.mem_map.1 (List.mem_toFinset.1 hv)
    exact Finset.mem_range.2 (d.inside u hu)
  have size : (Finset.range e.count.toNat).card ≤ (us.map fun u => u.2.lane.val).toFinset.card := by
    rw [List.toFinset_card_of_nodup once, List.length_map, full, Finset.card_range]
  have all := Finset.eq_of_subset_of_card_le inside size
  have held : k ∈ (us.map fun u => u.2.lane.val).toFinset := all ▸ Finset.mem_range.2 h
  exact List.mem_map.1 (List.mem_toFinset.1 held)

/-- The lane that carries a logical lane. -/
theorem buildMap_logical_iff {w : Nat} (nodup : (us.map Prod.fst).Nodup) {l k : LanePos} :
    (buildMap us w)[l].logical = some k ↔ k.val < w ∧ ∃ u ∈ us, u.1 = l ∧ u.2.lane = k := by
  by_cases mem : ∃ u ∈ us, u.1 = l
  · obtain ⟨u, hu, rfl⟩ := mem
    rw [buildMap_of_mem nodup hu]
    constructor
    · intro carried
      obtain ⟨low, same⟩ := Option.ite_none_right_eq_some.1 carried
      obtain rfl := Option.some.inj same
      exact ⟨low, u, hu, rfl, rfl⟩
    · rintro ⟨low, v, hv, place, rfl⟩
      obtain rfl := List.inj_on_of_nodup_map nodup hv hu place
      exact if_pos low
  · rw [buildMap_of_not_mem fun u hu place => mem ⟨u, hu, place⟩]
    exact ⟨nofun, fun ⟨_, u, hu, place, _⟩ => absurd ⟨u, hu, place⟩ mem⟩

/-- Settles O35: the map holds each usable lane at its position, and the lanes below the width are all there. -/
theorem logicalLanesAreExactlyTheWidth : Obligations.LogicalLanesAreExactlyTheWidth := by
  intro e us m c w nodup derived
  obtain ⟨d, covered, rfl⟩ := mapChecks_eq_ok derived
  dsimp only
  rw [← LaneCount.toNat_eq_ite]
  have width : w.count e.count.toNat = if w = .full then e.count.toNat else e.count.toNat / 2 := by cases w <;> rfl
  rw [← width]
  refine ⟨fun u hu => buildMap_of_mem nodup hu, fun l free => buildMap_of_not_mem free, fun k => ⟨?_, fun low => ?_⟩, ?_⟩
  · rintro ⟨l, carried⟩
    exact ((buildMap_logical_iff nodup).1 carried).1
  · have held : ∃ u ∈ us, u.2.lane.val = k.val := by
      rcases coverage_eq_some covered with ⟨rfl, full⟩ | ⟨rfl, half⟩
      · exact d.covers full low
      · exact half k low
    obtain ⟨u, hu, lane⟩ := held
    exact ⟨u.1, (buildMap_logical_iff nodup).2 ⟨low, u, hu, rfl, Fin.ext lane⟩⟩
  · intro a b k ha hb
    obtain ⟨-, u, hu, rfl, lane⟩ := (buildMap_logical_iff nodup).1 ha
    obtain ⟨-, v, hv, rfl, same⟩ := (buildMap_logical_iff nodup).1 hb
    exact congrArg Prod.fst (List.inj_on_of_nodup_map d.once hu hv (lane.trans same.symm))

end Sys2Proof.Machine
end

section
/-! SUPPORT. The arithmetic of qualification (R137 to R140). -/

namespace Sys2Proof.Machine

variable {a b n : Nat}

/-! ### The Q2 grade (R138) -/

theorem largestPower_le (a b n : Nat) : largestPower a b n ≤ n := by
  induction n with
  | zero => exact le_rfl
  | succ n ih =>
    rw [largestPower]
    split
    · exact le_rfl
    · exact ih.trans n.le_succ

theorem largestPower_fits (h : a ≤ b) (n : Nat) : a * 2 ^ largestPower a b n ≤ b := by
  induction n with
  | zero => simpa [largestPower] using h
  | succ n ih =>
    rw [largestPower]
    split
    · assumption
    · exact ih

theorem le_largestPower {h : Nat} (fits : a * 2 ^ h ≤ b) (low : h ≤ n) : h ≤ largestPower a b n := by
  induction n with
  | zero => exact low
  | succ n ih =>
    rw [largestPower]
    split
    · exact low
    · rename_i beyond
      refine ih (Nat.le_of_lt_succ (lt_of_le_of_ne low ?_))
      rintro rfl
      exact beyond fits

theorem largestPower_of_lt (h : b < a) (n : Nat) : largestPower a b n = 0 := by
  induction n with
  | zero => rfl
  | succ n ih =>
    have beyond : ¬a * 2 ^ (n + 1) ≤ b := Nat.not_le.2 (h.trans_le (Nat.le_mul_of_pos_right a (by positivity)))
    rw [largestPower, if_neg beyond, ih]

theorem le_largestPower_iff {h : Nat} (pos : 1 ≤ h) (low : h ≤ n) : h ≤ largestPower a b n ↔ a * 2 ^ h ≤ b := by
  refine ⟨fun le => ?_, fun fits => le_largestPower fits low⟩
  have within : a ≤ b := Nat.not_lt.1 fun beyond => by
    rw [largestPower_of_lt beyond] at le
    omega
  exact (Nat.mul_le_mul_left a (Nat.pow_le_pow_right (by decide) le)).trans (largestPower_fits within n)

/-- The bits of a window stay below 2^36. -/
theorem windowSquare_lt {q : Nat} (h : q ≤ 65535) : windowSquare q < 2 ^ 72 := by
  have bits : q * 2 ^ 20 < 2 ^ 36 := by omega
  calc (q * 2 ^ 20) ^ 2 < (2 ^ 36) ^ 2 := Nat.pow_lt_pow_left bits (by decide)
    _ = 2 ^ 72 := by norm_num

theorem max_one_eq (e : Nat) : max e 1 = if e = 0 then 1 else e := by
  split <;> omega

/-- The largest power of all, not of the first 71 alone. -/
theorem le_q2Grade {blocks errors h : Nat} (window : blocks ≤ 65535) (fits : max errors 1 ^ 2 * 2 ^ h ≤ windowSquare blocks) :
    h ≤ q2Grade blocks errors := by
  refine le_largestPower fits (Nat.not_lt.1 fun above => ?_)
  have small : 2 ^ h < 2 ^ 72 := calc
    2 ^ h ≤ max errors 1 ^ 2 * 2 ^ h := Nat.le_mul_of_pos_left _ (by positivity)
    _ ≤ windowSquare blocks := fits
    _ < 2 ^ 72 := windowSquare_lt window
  exact absurd ((Nat.pow_lt_pow_iff_right (by decide)).1 small) (Nat.not_lt.2 above)

theorem le_q2Grade_iff {blocks errors g : Nat} (pos : 1 ≤ g) (low : g ≤ 71) :
    g ≤ q2Grade blocks errors ↔ max errors 1 ^ 2 * 2 ^ g ≤ windowSquare blocks := le_largestPower_iff pos low

/-- Settles O38: `q2Grade` is the largest power there is, and a block added is graded by it. -/
theorem gradeIsLargestPower : Obligations.GradeIsLargestPower := by
  refine ⟨fun blocks errors _ window _ => ?_, by decide, fun m => ⟨rfl, rfl⟩, fun q errors => ?_⟩
  · intro g e
    have eq : max errors 1 = e := max_one_eq errors
    refine ⟨largestPower_le _ _ _, fun h fits => le_q2Grade window (eq ▸ fits), fun within => ?_, fun beyond => ?_⟩
    · have square : max errors 1 ^ 2 ≤ windowSquare blocks := eq ▸ Nat.pow_le_pow_left within 2
      exact eq ▸ largestPower_fits square 71
    · exact largestPower_of_lt (eq ▸ Nat.pow_lt_pow_left beyond (by decide)) 71
  · exact ⟨rfl, rfl, rfl, decide_eq_true_iff, rfl⟩

/-! ### The early-fail ceiling (R140) -/

/-- The root found from a start that fits is the largest that fits, among those the remaining bits reach. -/
theorem largestRoot_spec (scale bound n e : Nat) (fits : e ^ 2 * scale ≤ bound) :
    largestRoot scale bound n e ^ 2 * scale ≤ bound ∧
      ∀ f, f < e + 2 ^ n → f ^ 2 * scale ≤ bound → f ≤ largestRoot scale bound n e := by
  induction n generalizing e with
  | zero => exact ⟨fits, fun f below _ => Nat.le_of_lt_succ below⟩
  | succ n ih =>
    rw [largestRoot]
    split
    · rename_i more
      obtain ⟨root, top⟩ := ih _ more
      exact ⟨root, fun f below => top f (by rw [pow_succ] at below; omega)⟩
    · rename_i beyond
      obtain ⟨root, top⟩ := ih _ fits
      refine ⟨root, fun f _ k => top f (Nat.not_le.1 fun above => beyond ?_) k⟩
      exact (Nat.mul_le_mul_right _ (Nat.pow_le_pow_left above 2)).trans k

theorem earlyCeiling_fits (grade window : Nat) : earlyCeiling grade window ^ 2 * 2 ^ grade ≤ windowSquare window :=
  (largestRoot_spec _ _ 36 0 (by simp)).1

theorem le_earlyCeiling {grade window f : Nat} (h : window ≤ 65535) (fits : f ^ 2 * 2 ^ grade ≤ windowSquare window) :
    f ≤ earlyCeiling grade window := by
  refine (largestRoot_spec _ _ 36 0 (by simp)).2 f ?_ fits
  have square : f ^ 2 < (2 ^ 36) ^ 2 := calc
    f ^ 2 ≤ f ^ 2 * 2 ^ grade := Nat.le_mul_of_pos_right _ (by positivity)
    _ ≤ windowSquare window := fits
    _ < 2 ^ 72 := windowSquare_lt h
    _ = (2 ^ 36) ^ 2 := by norm_num
  simpa using lt_of_pow_lt_pow_left₀ 2 (by positivity) square

/-- The ceiling is the pass mark of a full window. -/
theorem le_earlyCeiling_iff {grade window errors : Nat} (pos : 1 ≤ grade) (low : grade ≤ 71) (h : window ≤ 65535)
    (one : 1 ≤ earlyCeiling grade window) : errors ≤ earlyCeiling grade window ↔ grade ≤ q2Grade window errors := by
  rw [le_q2Grade_iff pos low]
  constructor
  · intro le
    have most : max errors 1 ≤ earlyCeiling grade window := max_le le one
    exact (Nat.mul_le_mul_right _ (Nat.pow_le_pow_left most 2)).trans (earlyCeiling_fits grade window)
  · exact fun fits => (le_max_left errors 1).trans (le_earlyCeiling h fits)

/-- Settles O39: the bits of the root are found from the top, and the rule's table is computed. -/
theorem ceilingIsThePassMark : Obligations.CeilingIsThePassMark := by
  refine ⟨fun grade window pos low _ h reach => ?_, fun q t e row => ?_⟩
  · have one : 1 ≤ earlyCeiling grade window := le_earlyCeiling h (by rw [one_pow, one_mul]; exact reach)
    exact ⟨one, earlyCeiling_fits grade window, fun f => le_earlyCeiling h, fun errors _ => le_earlyCeiling_iff pos low h one⟩
  · simp only [List.mem_cons, Prod.mk.injEq, List.not_mem_nil, or_false] at row
    rcases row with ⟨rfl, rfl, rfl⟩ | ⟨rfl, rfl, rfl⟩ | ⟨rfl, rfl, rfl⟩ | ⟨rfl, rfl, rfl⟩ | ⟨rfl, rfl, rfl⟩ | ⟨rfl, rfl, rfl⟩ |
      ⟨rfl, rfl, rfl⟩ | ⟨rfl, rfl, rfl⟩ <;> decide

end Sys2Proof.Machine
end

section
/-! SUPPORT. The walk of a swept lane over the 2048 points (R123 to R126). -/

namespace Sys2Proof.Machine

variable {fig : Point → Byte} {y : SweepLane} {n : Nat}

/-! ### The points in the order of the walk -/

/-- The place of a point in the walk: 128 far settings of 16 gains (R123). -/
def Point.place (q : Point) : Nat := (q.pre.val * 16 + q.post.val) * 16 + q.gain.val

theorem Point.place_lt (q : Point) : q.place < 2048 := by
  have := q.pre.isLt
  have := q.post.isLt
  have := q.gain.isLt
  unfold Point.place
  omega

theorem Point.place_injective {q r : Point} (h : q.place = r.place) : q = r := by
  obtain ⟨g, p, c⟩ := q
  obtain ⟨g', p', c'⟩ := r
  have gains := g.isLt
  have gains' := g'.isLt
  have posts := c.isLt
  have posts' := c'.isLt
  simp only [Point.place] at h
  obtain rfl : g = g' := Fin.ext (by omega)
  obtain rfl : c = c' := Fin.ext (by omega)
  obtain rfl : p = p' := Fin.ext (by omega)
  rfl

/-- A point is no worse than a best one: a higher figure, or the same and before it in the tie order (R124). -/
def Best.beats (b : Best) (fig : Point → Byte) (q : Point) : Prop :=
  fig q < b.figure ∨ fig q = b.figure ∧ (q = b.point ∨ b.point.before q = true)

theorem Point.before_iff {q r : Point} : q.before r = true ↔
    q.gain < r.gain ∨ q.gain = r.gain ∧ (q.pre < r.pre ∨ q.pre = r.pre ∧ q.post < r.post) := decide_eq_true_iff

theorem Point.before_trans {q r t : Point} (h : q.before r = true) (k : r.before t = true) : q.before t = true := by
  rw [Point.before_iff] at *
  omega

theorem Point.before_total (q r : Point) : q = r ∨ q.before r = true ∨ r.before q = true := by
  obtain ⟨g, p, c⟩ := q
  obtain ⟨g', p', c'⟩ := r
  simp only [Point.before_iff, Point.mk.injEq]
  omega

/-! ### The best of the points measured -/

/-- What a lane holds after the first points of the walk: none, or the best of them. -/
def BestOf (fig : Point → Byte) (n : Nat) (best : Option Best) : Prop :=
  n = 0 ∧ best = none ∨
    ∃ b, best = some b ∧ b.figure = fig b.point ∧ b.point.place < n ∧ ∀ q : Point, q.place < n → b.beats fig q

/-- A figure of the next point keeps or replaces the best one. -/
theorem BestOf.next {best : Option Best} (h : BestOf fig n best) {p : Point} (k : p.place = n) :
    BestOf fig (n + 1) (some (bestAfter best p (fig p))) := by
  have split : ∀ q : Point, q.place < n + 1 → q.place < n ∨ q = p := fun q hq => by
    rcases Nat.lt_succ_iff_lt_or_eq.1 hq with low | here
    · exact .inl low
    · exact .inr (Point.place_injective (here.trans k.symm))
  have own : Best.beats { point := p, figure := fig p } fig p := .inr ⟨rfl, .inl rfl⟩
  rcases h with ⟨rfl, rfl⟩ | ⟨b, rfl, figure, place, all⟩
  · refine .inr ⟨_, rfl, rfl, k.trans_lt (Nat.lt_succ_self _), fun q hq => ?_⟩
    rcases split q hq with low | rfl
    · exact absurd low (Nat.not_lt_zero _)
    · exact own
  · by_cases better : b.figure < fig p ∨ fig p = b.figure ∧ p.before b.point = true
    · have kept : bestAfter (some b) p (fig p) = { point := p, figure := fig p } := if_pos better
      rw [kept]
      refine .inr ⟨_, rfl, rfl, k.trans_lt (Nat.lt_succ_self _), fun q hq => ?_⟩
      rcases split q hq with low | rfl
      · rcases better with higher | ⟨same, first⟩
        · rcases all q low with less | ⟨eq, -⟩
          · exact .inl (BitVec.lt_trans less higher)
          · exact .inl (eq ▸ higher)
        · rcases all q low with less | ⟨eq, rfl | after⟩
          · exact .inl (same ▸ less)
          · exact .inr ⟨eq.trans same.symm, .inr first⟩
          · exact .inr ⟨eq.trans same.symm, .inr (Point.before_trans first after)⟩
      · exact own
    · have kept : bestAfter (some b) p (fig p) = b := if_neg better
      rw [kept]
      refine .inr ⟨_, rfl, figure, place.trans (Nat.lt_succ_self _), fun q hq => ?_⟩
      rcases split q hq with low | rfl
      · exact all q low
      · obtain ⟨low, tied⟩ := not_or.1 better
        rcases (by bv_omega : fig q < b.figure ∨ fig q = b.figure) with less | eq
        · exact .inl less
        · rcases Point.before_total q b.point with same | first | after
          · exact .inr ⟨eq, .inl same⟩
          · exact absurd ⟨eq, first⟩ tied
          · exact .inr ⟨eq, .inr after⟩

/-! ### One event of the walk -/

theorem SweepLane.drive_add (fig : Point → Byte) (a b : Nat) (y : SweepLane) :
    SweepLane.drive fig (a + b) y = SweepLane.drive fig b (SweepLane.drive fig a y) := by
  induction a generalizing y with
  | zero => rw [Nat.zero_add]; rfl
  | succ a ih => rw [Nat.succ_add, SweepLane.drive, ih]; rfl

theorem SweepLane.drive_settle (h : y.phase = .settle) : SweepLane.drive fig 1 y = y.beaconSent := by
  rw [SweepLane.drive, SweepLane.drive, h]

theorem SweepLane.drive_closing (h : y.phase = .closing) : SweepLane.drive fig 1 y = y.beaconSent := by
  rw [SweepLane.drive, SweepLane.drive, h]

theorem SweepLane.drive_measure (h : y.phase = .measure) : SweepLane.drive fig 1 y = y.figureArrived (fig y.point) := by
  rw [SweepLane.drive, SweepLane.drive, h]

/-- A lane in its walk: the first points are measured, and it stands in a phase. -/
structure SweepLane.Walked (fig : Point → Byte) (m : LanePos × LanePos) (n : Nat) (y : SweepLane) : Prop where
  pos : y.pos = m.1
  logical : y.logical = m.2
  measured : y.measured = n
  best : BestOf fig n y.best

/-- It waits for the beacon of a far setting: the gain of the last point is still there. -/
structure SweepLane.Settling (fig : Point → Byte) (m : LanePos × LanePos) (n : Nat) (y : SweepLane) : Prop extends
    y.Walked fig m n where
  phase : y.phase = .settle
  far : (y.point.pre.val * 16 + y.point.post.val) * 16 = n

/-- It waits for the figure of its current point. -/
structure SweepLane.Measuring (fig : Point → Byte) (m : LanePos × LanePos) (n : Nat) (y : SweepLane) : Prop extends
    y.Walked fig m n where
  phase : y.phase = .measure
  place : y.point.place = n

variable {m : LanePos × LanePos}

theorem SweepLane.start_settling (fig : Point → Byte) (m : LanePos × LanePos) : (SweepLane.start m).Settling fig m 0 :=
  ⟨⟨rfl, rfl, rfl, .inl ⟨rfl, rfl⟩⟩, rfl, rfl⟩

theorem SweepLane.Settling.beacon (h : y.Settling fig m n) : (SweepLane.drive fig 1 y).Measuring fig m n := by
  have sent : y.beaconSent = { y with phase := .measure, point := { y.point with gain := 0 } } := by
    simp only [SweepLane.beaconSent, h.phase]
  rw [SweepLane.drive_settle h.phase, sent]
  exact ⟨⟨h.pos, h.logical, h.measured, h.best⟩, rfl, h.far⟩

/-- A lane that has taken the figure of its point. -/
def SweepLane.noted (y : SweepLane) (f : Byte) : SweepLane :=
  { y with measured := y.measured + 1, best := some (bestAfter y.best y.point f) }

theorem SweepLane.figureArrived_of_measure (h : y.phase = .measure) (f : Byte) :
    y.figureArrived f = (y.noted f).advance (bestAfter y.best y.point f) := if_pos h

theorem SweepLane.Measuring.noted (h : y.Measuring fig m n) : (y.noted (fig y.point)).Walked fig m (n + 1) :=
  ⟨h.pos, h.logical, congrArg (· + 1) h.measured, h.best.next h.place⟩

theorem SweepLane.advance_gain (b : Best) (h : y.point.gain.val + 1 < 16) :
    y.advance b = { y with point := { y.point with gain := ⟨y.point.gain.val + 1, h⟩ } } := dif_pos h

theorem SweepLane.advance_far (b : Best) {q : Point} (h : ¬y.point.gain.val + 1 < 16) (k : y.point.nextFar = some q) :
    y.advance b = { y with point := q, phase := .settle } := by
  rw [SweepLane.advance, dif_neg h, k]

theorem SweepLane.advance_last (b : Best) (h : ¬y.point.gain.val + 1 < 16) (k : y.point.nextFar = none) :
    y.advance b = { y with point := b.point, phase := .closing } := by
  rw [SweepLane.advance, dif_neg h, k]

/-- The far setting after one, in numbers. -/
theorem Point.nextFar_place {q r : Point} (h : q.nextFar = some r) : r.pre.val * 16 + r.post.val = q.pre.val * 16 + q.post.val + 1 := by
  unfold Point.nextFar at h
  have posts := q.post.isLt
  split at h
  · obtain rfl := Option.some.inj h
    rfl
  · split at h
    · obtain rfl := Option.some.inj h
      simp only [Fin.val_zero]
      omega
    · exact nomatch h

theorem Point.nextFar_eq_none_iff {q : Point} : q.nextFar = none ↔ q.pre.val * 16 + q.post.val = 127 := by
  have posts := q.post.isLt
  have pres := q.pre.isLt
  unfold Point.nextFar
  split
  · simp; omega
  · split
    · simp; omega
    · simp; omega

/-- The figure of any gain but the last takes the lane to the next gain. -/
theorem SweepLane.Measuring.gain (h : y.Measuring fig m n) (k : n % 16 < 15) : (SweepLane.drive fig 1 y).Measuring fig m (n + 1) := by
  have gains := y.point.gain.isLt
  have place : (y.point.pre.val * 16 + y.point.post.val) * 16 + y.point.gain.val = n := h.place
  have more : (y.noted (fig y.point)).point.gain.val + 1 < 16 := by show y.point.gain.val + 1 < 16; omega
  rw [SweepLane.drive_measure h.phase, SweepLane.figureArrived_of_measure h.phase, SweepLane.advance_gain _ more]
  obtain ⟨pos, logical, measured, best⟩ := h.noted
  exact ⟨⟨pos, logical, measured, best⟩, h.phase, by rw [← place]; rfl⟩

/-- The figure of the last gain takes the lane to the next far setting. -/
theorem SweepLane.Measuring.far (h : y.Measuring fig m n) (k : n % 16 = 15) (l : n < 2047) :
    (SweepLane.drive fig 1 y).Settling fig m (n + 1) := by
  have gains := y.point.gain.isLt
  have place : (y.point.pre.val * 16 + y.point.post.val) * 16 + y.point.gain.val = n := h.place
  have last : ¬(y.noted (fig y.point)).point.gain.val + 1 < 16 := by show ¬y.point.gain.val + 1 < 16; omega
  obtain ⟨q, next⟩ : ∃ q, y.point.nextFar = some q := by
    refine Option.ne_none_iff_exists'.1 fun none => ?_
    have := Point.nextFar_eq_none_iff.1 none
    omega
  rw [SweepLane.drive_measure h.phase, SweepLane.figureArrived_of_measure h.phase, SweepLane.advance_far _ last next]
  obtain ⟨pos, logical, measured, best⟩ := h.noted
  refine ⟨⟨pos, logical, measured, best⟩, rfl, ?_⟩
  have step := Point.nextFar_place next
  show (q.pre.val * 16 + q.post.val) * 16 = n + 1
  omega

/-- The figures of the gains of a far setting, up to the last. -/
theorem SweepLane.Measuring.gains (h : y.Measuring fig m n) (k : n % 16 = 0) (j : Nat) (l : j < 16) :
    (SweepLane.drive fig j y).Measuring fig m (n + j) := by
  induction j with
  | zero => exact h
  | succ j ih =>
    rw [SweepLane.drive_add]
    exact (ih (by omega)).gain (by omega)

/-- The beacon and the figures of a far setting, but for the last figure. -/
theorem SweepLane.Settling.walked (h : y.Settling fig m n) (k : n % 16 = 0) : (SweepLane.drive fig 16 y).Measuring fig m (n + 15) := by
  rw [show 16 = 1 + 15 from rfl, SweepLane.drive_add]
  exact h.beacon.gains k 15 (by decide)

theorem SweepLane.Settling.next (h : y.Settling fig m n) (k : n % 16 = 0) (l : n + 16 < 2048) :
    (SweepLane.drive fig 17 y).Settling fig m (n + 16) := by
  rw [show 17 = 16 + 1 from rfl, SweepLane.drive_add]
  exact (h.walked k).far (by omega) (by omega)

theorem SweepLane.walk (fig : Point → Byte) (m : LanePos × LanePos) (k : Nat) (h : k < 128) :
    (SweepLane.drive fig (k * 17) (SweepLane.start m)).Settling fig m (k * 16) := by
  induction k with
  | zero => exact SweepLane.start_settling fig m
  | succ k ih =>
    rw [show (k + 1) * 17 = k * 17 + 17 by ring, show (k + 1) * 16 = k * 16 + 16 by ring, SweepLane.drive_add]
    exact (ih (by omega)).next (by omega) (by omega)

/-- The walk before its last figure. -/
theorem SweepLane.walk_last (fig : Point → Byte) (m : LanePos × LanePos) :
    (SweepLane.drive fig (127 * 17 + 16) (SweepLane.start m)).Measuring fig m 2047 := by
  rw [SweepLane.drive_add]
  exact (SweepLane.walk fig m 127 (by decide)).walked (by decide)

/-- A lane whose figures are all there: it waits for the closing beacon at its best point. -/
structure SweepLane.Closing (fig : Point → Byte) (m : LanePos × LanePos) (y : SweepLane) : Prop extends
    y.Walked fig m 2048 where
  phase : y.phase = .closing
  point : y.best.map Best.point = some y.point

/-- The last figure of all takes the lane to its best point. -/
theorem SweepLane.Measuring.closing (h : y.Measuring fig m 2047) : (SweepLane.drive fig 1 y).Closing fig m := by
  have gains := y.point.gain.isLt
  have place : (y.point.pre.val * 16 + y.point.post.val) * 16 + y.point.gain.val = 2047 := h.place
  have last : ¬(y.noted (fig y.point)).point.gain.val + 1 < 16 := by show ¬y.point.gain.val + 1 < 16; omega
  have none : y.point.nextFar = none := Point.nextFar_eq_none_iff.2 (by omega)
  rw [SweepLane.drive_measure h.phase, SweepLane.figureArrived_of_measure h.phase, SweepLane.advance_last _ last none]
  obtain ⟨pos, logical, measured, best⟩ := h.noted
  exact ⟨⟨pos, logical, measured, best⟩, rfl, rfl⟩

theorem SweepLane.walk_closing (fig : Point → Byte) (m : LanePos × LanePos) :
    (SweepLane.drive fig (128 * 17) (SweepLane.start m)).Closing fig m := by
  rw [show 128 * 17 = 127 * 17 + 16 + 1 by norm_num, SweepLane.drive_add]
  exact (SweepLane.walk_last fig m).closing

theorem SweepLane.beaconSent_of_closing (h : y.phase = .closing) :
    y.beaconSent = { y with phase := .finished, result := some (resultOf y.best) } := by
  simp only [SweepLane.beaconSent, h]

/-- What a lane holds once its closing beacon is sent: the best of all points, and the result of R126. -/
structure SweepLane.Finished (fig : Point → Byte) (m : LanePos × LanePos) (y : SweepLane) : Prop where
  phase : y.phase = .finished
  measured : y.measured = 2048
  pos : y.pos = m.1
  logical : y.logical = m.2
  best : ∃ b, y.best = some b ∧ b.figure = fig b.point ∧ y.point = b.point ∧ (∀ q, b.beats fig q) ∧
    y.result = some (resultOf (some b))

theorem SweepLane.Closing.beacon (h : y.Closing fig m) : (SweepLane.drive fig 1 y).Finished fig m := by
  rw [SweepLane.drive_closing h.phase, SweepLane.beaconSent_of_closing h.phase]
  obtain ⟨empty, -⟩ | ⟨b, held, figure, -, all⟩ := h.best
  · exact absurd empty (by decide)
  · have point : b.point = y.point := by simpa [held] using h.point
    exact ⟨rfl, h.measured, h.pos, h.logical, b, held, figure, point.symm, fun q => all q q.place_lt, by rw [held]⟩

/-- Settles O36: the invariant of the walk carries it through the 128 far settings, and the closing beacon finishes the lane. -/
theorem sweepWalkFindsBestPoint : Obligations.SweepWalkFindsBestPoint := by
  intro fig m y
  have closing := SweepLane.walk_closing fig m
  have finished : y.Finished fig m := by
    have last := closing.beacon
    rwa [← SweepLane.drive_add] at last
  obtain ⟨b, held, figure, point, all, result⟩ := finished.best
  refine ⟨closing.phase, finished.phase, finished.measured, finished.pos, finished.logical, b, held, figure, point, fun q => ?_, result⟩
  have beaten := all q
  unfold Best.beats at beaten
  rwa [Point.before_iff] at beaten

end Sys2Proof.Machine
end

section
/-! SUPPORT. What the operations of one port change, as a value of its own: its record, the ESU, the reports posted and those kept back.
An operation on a state that differs from another in these alone is an operation on this value. -/

namespace Sys2Proof.Machine

/-- What the operations of one port change. -/
structure Local where
  port : Port
  esu : Esu
  told : List Report
  kept : List Report

/-- A state in which the operations of one port have changed these. -/
def State.put (s : State) (p : PortIx) (k : Local) : State :=
  { s with
    ports := s.ports.set p k.port
    esu := k.esu
    reports := s.reports.enterAll s.time.clock k.told
    deferred := k.kept }

/-- A port as it stands when a command begins. -/
def State.held (s : State) (p : PortIx) : Local := { port := s.port p, esu := s.esu, told := [], kept := [] }

/-- The port's record changed. -/
def Local.modPort (k : Local) (f : Port → Port) : Local := { k with port := f k.port }

/-- The ESU changed. -/
def Local.setEsu (k : Local) (e : Esu) : Local := { k with esu := e }

/-- Reports posted. -/
def Local.tell (k : Local) (rs : List Report) : Local := { k with told := k.told ++ rs }

/-- Reports kept back. -/
def Local.keep (k : Local) (rs : List Report) : Local := { k with kept := k.kept ++ rs }

variable {s : State} {p q : PortIx} {k : Local} {l : LanePos}

/-! ### Reading -/

@[simp] theorem State.put_port (s : State) (p : PortIx) (k : Local) : (s.put p k).port p = k.port :=
  Vector.getElem_set_self p.isLt

theorem State.put_port_of_ne (h : q ≠ p) : (s.put p k).port q = s.port q :=
  Vector.getElem_set_ne p.isLt q.isLt fun same => h (Fin.ext same).symm

@[simp] theorem State.put_lane (s : State) (p : PortIx) (k : Local) (l : LanePos) : (s.put p k).lane p l = k.port.lane l := by
  rw [State.lane, State.put_port]

@[simp] theorem State.put_esu (s : State) (p : PortIx) (k : Local) : (s.put p k).esu = k.esu := rfl
@[simp] theorem State.put_plan (s : State) (p : PortIx) (k : Local) : (s.put p k).plan = s.plan := rfl
@[simp] theorem State.put_time (s : State) (p : PortIx) (k : Local) : (s.put p k).time = s.time := rfl
@[simp] theorem State.put_settings (s : State) (p : PortIx) (k : Local) : (s.put p k).settings = s.settings := rfl
@[simp] theorem State.put_identity (s : State) (p : PortIx) (k : Local) : (s.put p k).identity = s.identity := rfl
@[simp] theorem State.put_freeIx (s : State) (p : PortIx) (k : Local) : (s.put p k).freeIx = s.freeIx := rfl

/-! ### Writing -/

theorem State.opened_eq_put (s : State) (p : PortIx) : s.opened = s.put p (s.held p) := by
  have same : s.ports.set p (s.port p) = s.ports := Vector.set_getElem_self p.isLt
  rw [State.put, State.held, same]
  rfl

theorem State.put_setPort (s : State) (p : PortIx) (k : Local) (x : Port) :
    (s.put p k).setPort p x = s.put p (k.modPort fun _ => x) := by
  have last : (s.ports.set p k.port).set p x = s.ports.set p x := Vector.set_set _ _
  rw [State.setPort, State.put, last]
  rfl

theorem State.put_modPort (s : State) (p : PortIx) (k : Local) (f : Port → Port) :
    (s.put p k).modPort p f = s.put p (k.modPort f) := by
  rw [State.modPort, State.put_setPort, State.put_port]
  rfl

theorem State.put_modLane (s : State) (p : PortIx) (k : Local) (l : LanePos) (f : Lane → Lane) :
    (s.put p k).modLane p l f = s.put p (k.modPort (·.modLane l f)) := State.put_modPort s p k _

theorem State.put_setEsu (s : State) (p : PortIx) (k : Local) (e : Esu) : (s.put p k).setEsu e = s.put p (k.setEsu e) := rfl

theorem State.put_post (s : State) (p : PortIx) (k : Local) (r : Report) : (s.put p k).post r = s.put p (k.tell [r]) := by
  have last : (s.reports.enterAll s.time.clock k.told).enter s.time.clock r = s.reports.enterAll s.time.clock (k.told ++ [r]) := by
    rw [ReportList.enterAll, ReportList.enterAll, List.foldl_append]
    rfl
  rw [State.post, State.put, State.put, Local.tell, ← last]
  rfl

@[simp] theorem Local.tell_nil (k : Local) : k.tell [] = k := by rw [Local.tell, List.append_nil]

@[simp] theorem Local.keep_nil (k : Local) : k.keep [] = k := by rw [Local.keep, List.append_nil]

theorem Local.tell_tell (k : Local) (rs ts : List Report) : (k.tell rs).tell ts = k.tell (rs ++ ts) := by
  simp [Local.tell]

/-! ### Counting (R161 to R163) -/

/-- A counting event on a lane of the port. -/
def Local.countLane (k : Local) (p : PortIx) (l : LanePos) (i : Fin 7) (a : Nat) : Local :=
  (k.modPort (·.modLane l (·.bumped i a))).keep ((k.port.lane l).saturation p l i a)

theorem State.put_countLane (s : State) (p : PortIx) (k : Local) (l : LanePos) (i : Fin 7) (a : Nat) :
    (s.put p k).countLane p l i a = s.put p (k.countLane p l i a) := by
  rw [State.countLane_eq, State.put_modLane, State.put_lane]
  rfl

/-- A port with a counting event on one of its counters (R163). -/
def Port.bumped (x : Port) (i : Fin 3) : Port := { x with counters := x.counters.set i (x.counters[i].bump 65535 1) }

/-- The report a counting event on a port counter keeps back, with the marks as the event leaves them (R163). -/
def Port.saturation (x : Port) (p : PortIx) (i : Fin 3) : List Report :=
  if x.counters[i].saturates 65535 1 then
    [{ port := some p, lane := none, detail := .counterSaturated i.val ((x.bumped i).counters.toList.map Counter.mark) }]
  else []

/-- A counting event on a counter of the port. -/
def Local.countPort (k : Local) (p : PortIx) (i : Fin 3) : Local := (k.modPort (·.bumped i)).keep (k.port.saturation p i)

theorem State.put_countPort (s : State) (p : PortIx) (k : Local) (i : Fin 3) :
    (s.put p k).countPort p i = s.put p (k.countPort p i) := by
  have counted : (s.put p k).countPort p i =
      if ((s.put p k).port p).counters[i].saturates 65535 1 then
        ((s.put p k).modPort p fun x => { x with counters := x.counters.set i (((s.put p k).port p).counters[i].bump 65535 1) }).deferReport
          { port := some p, lane := none
            detail := .counterSaturated i.val ((((s.put p k).modPort p fun x =>
              { x with counters := x.counters.set i (((s.put p k).port p).counters[i].bump 65535 1) }).port p).counters.toList.map
                Counter.mark) }
      else (s.put p k).modPort p fun x => { x with counters := x.counters.set i (((s.put p k).port p).counters[i].bump 65535 1) } := rfl
  rw [counted, State.put_modPort, State.put_port, State.put_port, Local.countPort, Port.saturation]
  cases k.port.counters[i].saturates 65535 1 with
  | true => rfl
  | false => simp only [Bool.false_eq_true, if_false, Local.keep_nil]; rfl

theorem Port.saturation_of_not {x : Port} {i : Fin 3} (h : x.counters[i].saturates 65535 1 = false) : x.saturation p i = [] :=
  if_neg (Bool.eq_false_iff.1 h)

theorem Lane.saturation_of_not {y : Lane} {i : Fin 7} {a : Nat} (h : y.counters[i].saturates (laneCounterMax i) a = false) :
    y.saturation p l i a = [] := if_neg (Bool.eq_false_iff.1 h)

/-! ### The end of a command -/

/-- A state that a command has reached by the operations of one port. -/
structure Became (p : PortIx) (s : State) (k : Local) (t : State) : Prop extends OnlyPort p s t where
  port : t.port p = k.port
  esu : t.esu = k.esu
  reports : t.reports = s.reports.enterAll s.time.clock (k.told ++ k.kept)

theorem Became.lane {t : State} (h : Became p s k t) (l : LanePos) : t.lane p l = k.port.lane l := by
  rw [State.lane, h.port]

theorem State.enterAll_append (l : ReportList) (clock : Word) (rs ts : List Report) :
    (l.enterAll clock rs).enterAll clock ts = l.enterAll clock (rs ++ ts) := (List.foldl_append ..).symm

theorem State.put_done (s : State) (p : PortIx) (k : Local) : ∃ t, (s.put p k).done = .next t ∧ Became p s k t := by
  refine ⟨(s.put p k).closed, rfl, ?_, ?_, ?_, ?_⟩
  · refine ⟨fun q hq => ?_, ?_, ?_, ?_, ?_, ?_, ?_, ?_, ?_⟩
    · rw [State.port, State.closed_ports]
      exact State.put_port_of_ne hq
    all_goals simp [State.put]
  · rw [State.port, State.closed_ports]
    exact State.put_port s p k
  · rw [State.closed_esu, State.put_esu]
  · rw [State.closed_reports]
    exact State.enterAll_append ..

theorem State.put_accept_done (s : State) (p : PortIx) (k : Local) (i : Instr) (body : List Byte) :
    ∃ t, ((s.put p k).accept i body).done = .next t ∧ Became p (s.accept i body) k t := State.put_done (s.accept i body) p k

end Sys2Proof.Machine
end

section
/-! SUPPORT. A change of a port's state as an operation on what one port's operations change (R94, R103, R6, R20, R29). -/

namespace Sys2Proof.Machine

variable {s : State} {p : PortIx} {k : Local} {l : LanePos} {g : Settings} {x y : Port}

/-! ### Automatic loopback judged (R29, R30) -/

/-- A port with the loopback conditions of one lane judged. -/
def Port.judgeLoop (x : Port) (g : Settings) (l : LanePos) : Port :=
  if x.loopHolds l = (x.lane l).autoLoop then x
  else if x.loopHolds l then (x.modLane l fun y => { y with autoLoop := true }).loopEntered
  else (x.modLane l fun y => { y with autoLoop := false }).loopLeft g

/-- The report the judging of one lane posts. -/
def Port.loopReport (x : Port) (p : PortIx) (l : LanePos) : List Report :=
  if x.loopHolds l = (x.lane l).autoLoop then []
  else [{ port := some p, lane := some l, detail := if x.loopHolds l then .loopEntered else .loopLeft }]

/-- The loopback conditions of one lane judged. -/
def Local.judgeLoop (k : Local) (p : PortIx) (g : Settings) (l : LanePos) : Local :=
  (k.tell (k.port.loopReport p l)).modPort (·.judgeLoop g l)

/-- The loopback conditions of every lane judged. -/
@[irreducible] def Local.judgeLoops (k : Local) (p : PortIx) (g : Settings) : Local := allLanes.foldl (fun k l => k.judgeLoop p g l) k

theorem Local.judgeLoop_of_eq (h : k.port.loopHolds l = (k.port.lane l).autoLoop) : k.judgeLoop p g l = k := by
  rw [Local.judgeLoop, Port.loopReport, if_pos h, Local.tell_nil, Local.modPort, Port.judgeLoop, if_pos h]

theorem Local.judgeLoop_of_entered (h : ¬k.port.loopHolds l = (k.port.lane l).autoLoop) (holds : k.port.loopHolds l = true) :
    k.judgeLoop p g l = (k.tell [{ port := some p, lane := some l, detail := .loopEntered }]).modPort fun x =>
      (x.modLane l fun y => { y with autoLoop := true }).loopEntered := by
  simp only [Local.judgeLoop, Local.modPort, Local.tell, Port.judgeLoop, Port.loopReport, if_neg h, if_pos holds]

theorem Local.judgeLoop_of_left (h : ¬k.port.loopHolds l = (k.port.lane l).autoLoop) (holds : ¬k.port.loopHolds l = true) :
    k.judgeLoop p g l = (k.tell [{ port := some p, lane := some l, detail := .loopLeft }]).modPort fun x =>
      (x.modLane l fun y => { y with autoLoop := false }).loopLeft g := by
  simp only [Local.judgeLoop, Local.modPort, Local.tell, Port.judgeLoop, Port.loopReport, if_neg h, if_neg holds]

theorem State.put_judgeLoop (s : State) (p : PortIx) (k : Local) (l : LanePos) :
    (s.put p k).judgeLoop p l = s.put p (k.judgeLoop p s.settings l) := by
  unfold State.judgeLoop
  rw [State.put_port, State.put_lane]
  by_cases same : k.port.loopHolds l = (k.port.lane l).autoLoop
  · rw [if_pos same, Local.judgeLoop_of_eq same]
  · rw [if_neg same]
    by_cases holds : k.port.loopHolds l = true
    · rw [if_pos holds, Local.judgeLoop_of_entered same holds, State.put_modLane, State.postLane, State.put_post, State.put_modPort]
      rfl
    · rw [if_neg holds, Local.judgeLoop_of_left same holds, State.put_modLane, State.postLane, State.put_post, State.put_modPort]
      rfl

/-- A fold of operations of one port is a fold on what they change. -/
theorem State.put_foldl {α : Type} {f : State → α → State} {h : Local → α → Local} {s : State}
    (step : ∀ k a, f (s.put p k) a = s.put p (h k a)) (xs : List α) (k : Local) :
    xs.foldl f (s.put p k) = s.put p (xs.foldl h k) := by
  induction xs generalizing k with
  | nil => rfl
  | cons a xs ih => rw [List.foldl_cons, List.foldl_cons, step, ih]

theorem State.put_judgeLoops (s : State) (p : PortIx) (k : Local) :
    (s.put p k).judgeLoops p = s.put p (k.judgeLoops p s.settings) := by
  unfold State.judgeLoops Local.judgeLoops
  exact State.put_foldl (fun k l => State.put_judgeLoop s p k l) allLanes k

/-- Two port records that agree in all but loop marks, and in what follows a port's content. -/
structure Port.Alike (x y : Port) : Prop where
  record : x.RecordEq y
  lanes : ∀ l, (x.lane l).LineEq (y.lane l)

theorem Port.Alike.refl (x : Port) : x.Alike x := ⟨.refl x, fun _ => .refl _⟩

theorem Port.Alike.trans {z : Port} (h : x.Alike y) (k : y.Alike z) : x.Alike z :=
  ⟨h.record.trans k.record, fun l => (h.lanes l).trans (k.lanes l)⟩

theorem Port.lane_modLane (x : Port) (l m : LanePos) (f : Lane → Lane) :
    (x.modLane l f).lane m = if m = l then f (x.lane l) else x.lane m := by
  by_cases same : m = l
  · subst same
    rw [if_pos rfl]
    exact Vector.getElem_set_self m.isLt
  · rw [if_neg same]
    exact Vector.getElem_set_ne l.isLt m.isLt fun eq => same (Fin.ext eq.symm)

theorem Port.alike_mark (x : Port) (l : LanePos) (b : Bool) : x.Alike (x.modLane l fun y => { y with autoLoop := b }) := by
  refine ⟨by constructor <;> rfl, fun m => ?_⟩
  rw [Port.lane_modLane]
  by_cases same : m = l
  · rw [if_pos same, same]; constructor <;> rfl
  · rw [if_neg same]; exact .refl _

theorem Port.alike_loopEntered (x : Port) : x.Alike x.loopEntered := by
  unfold Port.loopEntered
  split
  · exact ⟨by constructor <;> rfl, fun _ => .refl _⟩
  · exact .refl x

theorem Port.alike_loopLeft (x : Port) (g : Settings) : x.Alike (x.loopLeft g) := by
  unfold Port.loopLeft
  split
  · exact ⟨by constructor <;> rfl, fun _ => .refl _⟩
  · exact .refl x

theorem Port.alike_judgeLoop (x : Port) (g : Settings) (l : LanePos) : x.Alike (x.judgeLoop g l) := by
  unfold Port.judgeLoop
  split
  · exact .refl x
  · split
    · exact (x.alike_mark l true).trans (Port.alike_loopEntered _)
    · exact (x.alike_mark l false).trans (Port.alike_loopLeft _ g)

theorem Port.alike_sync (x : Port) : x.Alike x.sync := by
  refine ⟨by constructor <;> rfl, fun l => ?_⟩
  rw [Port.sync, Port.mapLanes_lane]
  constructor <;> rfl

/-- Outside DISCOVER the judging of loops moves no timer (R30). -/
theorem Port.judgeLoop_stageTimer (h : x.state ≠ .discover) (g : Settings) (l : LanePos) :
    (x.judgeLoop g l).stageTimer = x.stageTimer := by
  have kept : ∀ b, (x.modLane l fun y => { y with autoLoop := b }).state ≠ .discover := fun _ => h
  unfold Port.judgeLoop
  split
  · rfl
  · split
    · rw [Port.loopEntered, if_neg (kept true)]; rfl
    · rw [Port.loopLeft, if_neg fun both => kept false both.1]; rfl

/-- What the judging of every lane keeps. -/
structure Local.Judged (k j : Local) : Prop where
  alike : k.port.Alike j.port
  esu : j.esu = k.esu
  kept : j.kept = k.kept
  stageTimer : k.port.state ≠ .discover → j.port.stageTimer = k.port.stageTimer

theorem Local.Judged.refl (k : Local) : k.Judged k := ⟨.refl _, rfl, rfl, fun _ => rfl⟩

theorem Local.Judged.trans {i j : Local} (h : i.Judged j) (h' : j.Judged k) : i.Judged k :=
  ⟨h.alike.trans h'.alike, h'.esu.trans h.esu, h'.kept.trans h.kept,
    fun z => (h'.stageTimer (h.alike.record.state ▸ z)).trans (h.stageTimer z)⟩

theorem Local.foldl_judged (ls : List LanePos) (k : Local) : k.Judged (ls.foldl (fun k l => k.judgeLoop p g l) k) := by
  induction ls generalizing k with
  | nil => exact .refl k
  | cons l ls ih =>
    have one : k.Judged (k.judgeLoop p g l) := ⟨k.port.alike_judgeLoop g l, rfl, rfl, fun z => Port.judgeLoop_stageTimer z g l⟩
    exact one.trans (ih _)

theorem Local.judgeLoops_judged (k : Local) (p : PortIx) (g : Settings) : k.Judged (k.judgeLoops p g) := by
  unfold Local.judgeLoops
  exact Local.foldl_judged _ k

/-- Where no lane's mark differs from its conditions, judging changes nothing. -/
theorem Local.judgeLoops_of_settled (h : ∀ l, k.port.loopHolds l = (k.port.lane l).autoLoop) : k.judgeLoops p g = k := by
  have all : ∀ ls : List LanePos, ls.foldl (fun k l => k.judgeLoop p g l) k = k := fun ls => by
    induction ls with
    | nil => rfl
    | cons l ls ih => rw [List.foldl_cons, Local.judgeLoop_of_eq (h l), ih]
  unfold Local.judgeLoops
  exact all allLanes

/-! ### The loops that end with a state (R29) -/

/-- One lane's automatic loopback ended. -/
def Local.endLoop (k : Local) (p : PortIx) (l : LanePos) : Local :=
  if (k.port.lane l).autoLoop then
    (k.modPort (·.modLane l fun y => { y with autoLoop := false })).tell [{ port := some p, lane := some l, detail := .loopLeft }]
  else k

/-- Every automatic loopback of the port ended. -/
@[irreducible] def Local.endLoops (k : Local) (p : PortIx) : Local := allLanes.foldl (fun k l => k.endLoop p l) k

theorem State.put_endLoops (s : State) (p : PortIx) (k : Local) : (s.put p k).endLoops p = s.put p (k.endLoops p) := by
  rw [State.endLoops, Local.endLoops]
  refine State.put_foldl (fun k l => ?_) allLanes k
  rw [State.put_lane, State.put_modLane, State.postLane, State.put_post, Local.endLoop]
  split <;> rfl

/-- What the end of loops changes: marks and reports. -/
structure Local.LoopsEnded (k j : Local) (ls : List LanePos) : Prop where
  alike : k.port.Alike j.port
  esu : j.esu = k.esu
  kept : j.kept = k.kept
  stageTimer : j.port.stageTimer = k.port.stageTimer
  marks : ∀ l, (j.port.lane l).autoLoop = true → (k.port.lane l).autoLoop = true ∧ l ∉ ls
  told : (∀ l, (k.port.lane l).autoLoop = false) → j = k

theorem Local.endLoop_ended (k : Local) (p : PortIx) (l : LanePos) : k.LoopsEnded (k.endLoop p l) [l] := by
  unfold Local.endLoop
  by_cases loops : (k.port.lane l).autoLoop = true
  · rw [if_pos loops]
    refine ⟨k.port.alike_mark l false, rfl, rfl, rfl, fun m => ?_, fun still => absurd loops (by simp [still l])⟩
    show ((k.port.modLane l fun y => { y with autoLoop := false }).lane m).autoLoop = true → _
    rw [Port.lane_modLane]
    by_cases same : m = l
    · rw [if_pos same]; exact nofun
    · rw [if_neg same]; exact fun on => ⟨on, by simpa using same⟩
  · rw [if_neg loops]
    refine ⟨.refl _, rfl, rfl, rfl, fun m on => ⟨on, ?_⟩, fun _ => rfl⟩
    rintro same
    exact loops (List.mem_singleton.1 same ▸ on)

theorem Local.foldl_ended (ls : List LanePos) (k : Local) : k.LoopsEnded (ls.foldl (fun k l => k.endLoop p l) k) ls := by
  induction ls generalizing k with
  | nil => exact ⟨.refl _, rfl, rfl, rfl, fun _ on => ⟨on, List.not_mem_nil⟩, fun _ => rfl⟩
  | cons l ls ih =>
    have one := k.endLoop_ended p l
    have rest := ih (k.endLoop p l)
    refine ⟨one.alike.trans rest.alike, rest.esu.trans one.esu, rest.kept.trans one.kept, rest.stageTimer.trans one.stageTimer,
      fun m on => ?_, fun still => ?_⟩
    · obtain ⟨held, later⟩ := rest.marks m on
      obtain ⟨first, here⟩ := one.marks m held
      exact ⟨first, by simp only [List.mem_cons, not_or]; exact ⟨by simpa using here, later⟩⟩
    · have same := one.told still
      rw [List.foldl_cons, same]
      exact (ih k).told still

theorem Local.endLoops_ended (k : Local) (p : PortIx) : k.LoopsEnded (k.endLoops p) allLanes := by
  rw [Local.endLoops]
  exact Local.foldl_ended _ k

theorem mem_allLanes (l : LanePos) : l ∈ allLanes := by revert l; decide

theorem Local.endLoops_autoLoop (k : Local) (p : PortIx) (l : LanePos) : ((k.endLoops p).port.lane l).autoLoop = false :=
  Bool.eq_false_iff.2 fun on => ((k.endLoops_ended p).marks l on).2 (mem_allLanes l)

/-! ### Undoing the state left (R94) -/

/-- The sweep that serves the port, with its channel. -/
def Local.sweepOf (k : Local) : Option (ChanIx × Sweep) := k.port.channel.bind fun c => k.esu.channels[c].map fun w => (c, w)

theorem State.put_sweepOf (s : State) (p : PortIx) (k : Local) : (s.put p k).sweepOf p = k.sweepOf := by
  rw [State.sweepOf, State.put_port]; rfl

/-- The ESU once the port has left its state: its sweep aborted, or its place in the queue given up (R94). -/
def Local.undoneEsu (k : Local) (p : PortIx) : Esu :=
  match k.port.state with
  | .tune => k.sweepOf.elim k.esu fun w => k.esu.free w.1
  | .awaitSlot => { k.esu with queue := k.esu.queue.filter fun e => decide (e.port ≠ p) }
  | _ => k.esu

theorem Local.undoneEsu_of_tune (h : k.port.state = .tune) : k.undoneEsu p = k.sweepOf.elim k.esu fun w => k.esu.free w.1 := by
  rw [Local.undoneEsu, h]

theorem Local.undoneEsu_of_awaitSlot (h : k.port.state = .awaitSlot) :
    k.undoneEsu p = { k.esu with queue := k.esu.queue.filter fun e => decide (e.port ≠ p) } := by
  rw [Local.undoneEsu, h]

theorem Local.undoneEsu_of_ne (h : k.port.state ≠ .tune) (h' : k.port.state ≠ .awaitSlot) : k.undoneEsu p = k.esu := by
  unfold Local.undoneEsu
  cases state : k.port.state with
  | tune => exact absurd state h
  | awaitSlot => exact absurd state h'
  | _ => rfl

/-- What a port undoes when it leaves its state. -/
def Local.undo (k : Local) (p : PortIx) : Local := ((k.setEsu (k.undoneEsu p)).endLoops p).modPort Port.undo

theorem State.put_undo (s : State) (p : PortIx) (k : Local) : (s.put p k).undo p = s.put p (k.undo p) := by
  have left : (match (s.put p k).port p |>.state with
      | .tune => (s.put p k).abortSweep p
      | .awaitSlot => (s.put p k).dequeue p
      | _ => s.put p k) = s.put p (k.setEsu (k.undoneEsu p)) := by
    rw [State.put_port]
    cases state : k.port.state with
    | tune =>
      rw [Local.undoneEsu_of_tune state]
      show (s.put p k).abortSweep p = _
      rw [State.abortSweep, State.put_sweepOf]
      cases k.sweepOf <;> rfl
    | awaitSlot =>
      rw [Local.undoneEsu_of_awaitSlot state]
      rfl
    | _ =>
      rw [Local.undoneEsu_of_ne (by simp [state]) (by simp [state])]
      rfl
  show State.modPort (State.endLoops (match (s.put p k).port p |>.state with
      | .tune => (s.put p k).abortSweep p
      | .awaitSlot => (s.put p k).dequeue p
      | _ => s.put p k) p) p Port.undo = _
  rw [left, State.put_endLoops, State.put_modPort, Local.undo]

/-- The record and the lanes a port is left with (R94). -/
def Local.left (k : Local) (p : PortIx) : Port := (k.undo p).port

theorem Local.undo_esu (k : Local) (p : PortIx) : (k.undo p).esu = k.undoneEsu p := (Local.endLoops_ended _ p).esu

theorem Local.undo_kept (k : Local) (p : PortIx) : (k.undo p).kept = k.kept := (Local.endLoops_ended _ p).kept

theorem Local.undo_told (h : ∀ l, (k.port.lane l).autoLoop = false) (p : PortIx) : (k.undo p).told = k.told := by
  have same := (Local.endLoops_ended (k.setEsu (k.undoneEsu p)) p).told h
  rw [Local.undo, same]
  rfl

theorem Local.left_record (k : Local) (p : PortIx) : k.port.undo.RecordEq (k.left p) :=
  Port.undo_record (Local.endLoops_ended (k.setEsu (k.undoneEsu p)) p).alike.record

theorem Local.left_lane (k : Local) (p : PortIx) (l : LanePos) : (k.port.undoneLane l).LineEq ((k.left p).lane l) := by
  have alike := (Local.endLoops_ended (k.setEsu (k.undoneEsu p)) p).alike
  have line := alike.lanes l
  have state := alike.record.state
  show (k.port.undoneLane l).LineEq (((k.setEsu (k.undoneEsu p)).endLoops p).port.undo.lane l)
  rw [Port.undo_lane]
  have near : ((k.setEsu (k.undoneEsu p)).endLoops p).port.nearEnd l = k.port.nearEnd l := Port.nearEnd_congr state line
  have ended : (if k.port.nearEnd l then (k.port.lane l).takeBack.leaveNearEnd else (k.port.lane l).takeBack).LineEq
      (if k.port.nearEnd l then (((k.setEsu (k.undoneEsu p)).endLoops p).port.lane l).takeBack.leaveNearEnd
        else (((k.setEsu (k.undoneEsu p)).endLoops p).port.lane l).takeBack) := by
    split
    · exact Lane.leaveNearEnd_line (Lane.takeBack_line line)
    · exact Lane.takeBack_line line
  unfold Port.undoneLane
  rw [near, state]
  refine ⟨ended.owner, ended.rx, ended.control, ?_, ended.eq, ended.patternLock, ended.sent, ended.tap, ended.monitor, ended.counters⟩
  show (if _ then none else _) = if _ then none else _
  rw [line.injection]
  rfl

theorem Local.left_autoLoop (k : Local) (p : PortIx) (l : LanePos) : ((k.left p).lane l).autoLoop = false := by
  have off := Local.endLoops_autoLoop (k.setEsu (k.undoneEsu p)) p l
  show (Port.lane (Port.undo _) l).autoLoop = false
  rw [Port.undo_lane, Port.undoneLane]
  have back : ∀ y : Lane, y.takeBack.autoLoop = y.autoLoop := fun y => by unfold Lane.takeBack; split <;> rfl
  split
  · exact (back _).trans off
  · exact (back _).trans off

end Sys2Proof.Machine
end

section
/-! SUPPORT. The transition itself, on what one port's operations change, and what it leaves in the record, the lanes and the reports. -/

namespace Sys2Proof.Machine

variable {s : State} {p : PortIx} {k : Local} {l : LanePos} {g : Settings} {x y : Port} {new : PortState} {f : Port → Port}

/-- The port in its new state, its lanes set to listen, before PORT_STATE is posted. -/
def Local.arrive (k : Local) (p : PortIx) (new : PortState) (f : Port → Port) : Local :=
  (k.undo p).modPort fun x => Port.relisten { f x with state := new }

/-- The PORT_STATE report of a transition (R103). -/
def Local.stateReport (k : Local) (p : PortIx) (new : PortState) (f : Port → Port) : Report :=
  { port := some p, lane := none, detail := ((k.arrive p new f).port).stateDetail k.port.state }

/-- A change of the port's state. -/
def Local.transition (k : Local) (p : PortIx) (g : Settings) (new : PortState) (f : Port → Port) : Local :=
  (((k.arrive p new f).tell [k.stateReport p new f]).judgeLoops p g).modPort Port.sync

theorem State.put_transition (s : State) (p : PortIx) (k : Local) (new : PortState) (f : Port → Port) :
    (s.put p k).transition p new f = s.put p (k.transition p s.settings new f) := by
  rw [State.transition_eq, State.arrived, State.put_undo, State.put_modPort, State.postPort, State.put_post, State.put_judgeLoops,
    State.syncPort, State.put_modPort, State.put_port, State.put_port]
  rfl

/-! ### The record -/

theorem Local.transition_alike (k : Local) (p : PortIx) (g : Settings) (new : PortState) (f : Port → Port) :
    (Port.relisten { f (k.left p) with state := new }).Alike (k.transition p g new f).port :=
  (Local.judgeLoops_judged ((k.arrive p new f).tell [k.stateReport p new f]) p g).alike.trans (Port.alike_sync _)

/-- The record a transition writes: what the change says, over what R94 has undone. -/
theorem Local.transition_record (k : Local) (p : PortIx) (g : Settings) (new : PortState) (f : Port → Port) :
    Port.RecordEq { f (k.left p) with state := new } (k.transition p g new f).port := by
  refine Port.RecordEq.trans (y := Port.relisten { f (k.left p) with state := new }) ?_ (k.transition_alike p g new f).record
  constructor <;> rfl

theorem Local.transition_stageTimer (k : Local) (p : PortIx) (g : Settings) (f : Port → Port) (h : new ≠ .discover) :
    (k.transition p g new f).port.stageTimer = (f (k.left p)).stageTimer :=
  (Local.judgeLoops_judged ((k.arrive p new f).tell [k.stateReport p new f]) p g).stageTimer h

@[simp] theorem Local.transition_state : (k.transition p g new f).port.state = new := (k.transition_record p g new f).state
@[simp] theorem Local.transition_mode : (k.transition p g new f).port.mode = (f (k.left p)).mode := (k.transition_record p g new f).mode
@[simp] theorem Local.transition_pending : (k.transition p g new f).port.pending = (f (k.left p)).pending :=
  (k.transition_record p g new f).pending
@[simp] theorem Local.transition_fault : (k.transition p g new f).port.fault = (f (k.left p)).fault :=
  (k.transition_record p g new f).fault
@[simp] theorem Local.transition_snapshot : (k.transition p g new f).port.snapshot = (f (k.left p)).snapshot :=
  (k.transition_record p g new f).snapshot
@[simp] theorem Local.transition_neighbour : (k.transition p g new f).port.neighbour = (f (k.left p)).neighbour :=
  (k.transition_record p g new f).neighbour
@[simp] theorem Local.transition_verdict : (k.transition p g new f).port.verdict = (f (k.left p)).verdict :=
  (k.transition_record p g new f).verdict
@[simp] theorem Local.transition_accepted : (k.transition p g new f).port.accepted = (f (k.left p)).accepted :=
  (k.transition_record p g new f).accepted
@[simp] theorem Local.transition_map : (k.transition p g new f).port.map = (f (k.left p)).map := (k.transition_record p g new f).map
@[simp] theorem Local.transition_mapClass : (k.transition p g new f).port.mapClass = (f (k.left p)).mapClass :=
  (k.transition_record p g new f).mapClass
@[simp] theorem Local.transition_width : (k.transition p g new f).port.width = (f (k.left p)).width :=
  (k.transition_record p g new f).width
@[simp] theorem Local.transition_cycle : (k.transition p g new f).port.cycle = (f (k.left p)).cycle :=
  (k.transition_record p g new f).cycle
@[simp] theorem Local.transition_attempts : (k.transition p g new f).port.attempts = (f (k.left p)).attempts :=
  (k.transition_record p g new f).attempts
@[simp] theorem Local.transition_unstable : (k.transition p g new f).port.unstable = (f (k.left p)).unstable :=
  (k.transition_record p g new f).unstable
@[simp] theorem Local.transition_cleanRun : (k.transition p g new f).port.cleanRun = (f (k.left p)).cleanRun :=
  (k.transition_record p g new f).cleanRun
@[simp] theorem Local.transition_channel : (k.transition p g new f).port.channel = (f (k.left p)).channel :=
  (k.transition_record p g new f).channel
@[simp] theorem Local.transition_qualify : (k.transition p g new f).port.qualify = (f (k.left p)).qualify :=
  (k.transition_record p g new f).qualify
@[simp] theorem Local.transition_handover : (k.transition p g new f).port.handover = (f (k.left p)).handover :=
  (k.transition_record p g new f).handover
@[simp] theorem Local.transition_counters : (k.transition p g new f).port.counters = (f (k.left p)).counters :=
  (k.transition_record p g new f).counters

@[simp] theorem Local.transition_esu : (k.transition p g new f).esu = k.undoneEsu p :=
  (Local.judgeLoops_judged ((k.arrive p new f).tell [k.stateReport p new f]) p g).esu.trans (k.undo_esu p)

@[simp] theorem Local.transition_kept : (k.transition p g new f).kept = k.kept :=
  (Local.judgeLoops_judged ((k.arrive p new f).tell [k.stateReport p new f]) p g).kept.trans (k.undo_kept p)

@[simp] theorem Local.left_state : (k.left p).state = k.port.state := (k.left_record p).state
@[simp] theorem Local.left_mode : (k.left p).mode = k.port.mode := (k.left_record p).mode
@[simp] theorem Local.left_pending : (k.left p).pending = none := (k.left_record p).pending
@[simp] theorem Local.left_fault : (k.left p).fault = none := (k.left_record p).fault
@[simp] theorem Local.left_snapshot : (k.left p).snapshot = k.port.snapshot := (k.left_record p).snapshot
@[simp] theorem Local.left_neighbour : (k.left p).neighbour = k.port.neighbour := (k.left_record p).neighbour
@[simp] theorem Local.left_verdict : (k.left p).verdict = k.port.verdict := (k.left_record p).verdict
@[simp] theorem Local.left_accepted : (k.left p).accepted = k.port.accepted := (k.left_record p).accepted
@[simp] theorem Local.left_map : (k.left p).map = k.port.map := (k.left_record p).map
@[simp] theorem Local.left_mapClass : (k.left p).mapClass = k.port.mapClass := (k.left_record p).mapClass
@[simp] theorem Local.left_width : (k.left p).width = k.port.width := (k.left_record p).width
@[simp] theorem Local.left_cycle : (k.left p).cycle = k.port.cycle := (k.left_record p).cycle
@[simp] theorem Local.left_attempts : (k.left p).attempts = k.port.attempts := (k.left_record p).attempts
@[simp] theorem Local.left_unstable : (k.left p).unstable = k.port.unstable := (k.left_record p).unstable
@[simp] theorem Local.left_cleanRun : (k.left p).cleanRun = none := (k.left_record p).cleanRun
@[simp] theorem Local.left_channel : (k.left p).channel = none := (k.left_record p).channel
@[simp] theorem Local.left_qualify : (k.left p).qualify = k.port.qualify.map fun q => { q with begun := false } :=
  (k.left_record p).qualify
@[simp] theorem Local.left_handover : (k.left p).handover = none := (k.left_record p).handover
@[simp] theorem Local.left_counters : (k.left p).counters = k.port.counters := (k.left_record p).counters
@[simp] theorem Local.left_stageTimer : (k.left p).stageTimer = none := rfl

/-! ### The lanes -/

/-- A lane after a transition: undone, changed as the entry says, and listening as the new state calls for. -/
theorem Local.transition_lane (k : Local) (p : PortIx) (g : Settings) (new : PortState) (f : Port → Port) (l : LanePos) :
    (((f (k.left p)).lane l).listen (Port.listens { f (k.left p) with state := new } l)).LineEq ((k.transition p g new f).port.lane l) := by
  have lane := (k.transition_alike p g new f).lanes l
  rwa [Port.relisten, Port.mapLanes_lane] at lane

theorem Lane.listen_line (y : Lane) (on : Bool) : (y.listen on).owner = y.owner ∧ (y.listen on).control = y.control ∧
    (y.listen on).injection = y.injection ∧ (y.listen on).eq = y.eq ∧ (y.listen on).sent = y.sent ∧ (y.listen on).tap = y.tap ∧
    (y.listen on).monitor = y.monitor ∧ (y.listen on).counters = y.counters ∧ (y.listen on).autoLoop = y.autoLoop := by
  unfold Lane.listen
  split_ifs <;> exact ⟨rfl, rfl, rfl, rfl, rfl, rfl, rfl, rfl, rfl⟩

@[simp] theorem Local.transition_owner : ((k.transition p g new f).port.lane l).owner = ((f (k.left p)).lane l).owner :=
  (k.transition_lane p g new f l).owner.trans (Lane.listen_line _ _).1
@[simp] theorem Local.transition_control : ((k.transition p g new f).port.lane l).control = ((f (k.left p)).lane l).control :=
  (k.transition_lane p g new f l).control.trans (Lane.listen_line _ _).2.1
@[simp] theorem Local.transition_eq : ((k.transition p g new f).port.lane l).eq = ((f (k.left p)).lane l).eq :=
  (k.transition_lane p g new f l).eq.trans (Lane.listen_line _ _).2.2.2.1
@[simp] theorem Local.transition_tap : ((k.transition p g new f).port.lane l).tap = ((f (k.left p)).lane l).tap :=
  (k.transition_lane p g new f l).tap.trans (Lane.listen_line _ _).2.2.2.2.2.1
@[simp] theorem Local.transition_monitor : ((k.transition p g new f).port.lane l).monitor = ((f (k.left p)).lane l).monitor :=
  (k.transition_lane p g new f l).monitor.trans (Lane.listen_line _ _).2.2.2.2.2.2.1
@[simp] theorem Local.transition_laneCounters :
    ((k.transition p g new f).port.lane l).counters = ((f (k.left p)).lane l).counters :=
  (k.transition_lane p g new f l).counters.trans (Lane.listen_line _ _).2.2.2.2.2.2.2.1

theorem Local.transition_rx (k : Local) (p : PortIx) (g : Settings) (new : PortState) (f : Port → Port) (l : LanePos) :
    ((k.transition p g new f).port.lane l).rx =
      (((f (k.left p)).lane l).listen (Port.listens { f (k.left p) with state := new } l)).rx := (k.transition_lane p g new f l).rx

theorem Local.transition_patternLock (k : Local) (p : PortIx) (g : Settings) (new : PortState) (f : Port → Port) (l : LanePos) :
    ((k.transition p g new f).port.lane l).patternLock =
      (((f (k.left p)).lane l).listen (Port.listens { f (k.left p) with state := new } l)).patternLock :=
  (k.transition_lane p g new f l).patternLock

theorem Port.undoneLane_owner (x : Port) (l : LanePos) : (x.undoneLane l).owner = .part := by
  unfold Port.undoneLane
  split <;> exact Lane.takeBack_owner _

/-- What an undone lane keeps: the settings of R25 and R34, and its counters. -/
theorem Port.undoneLane_kept (x : Port) (l : LanePos) : (x.undoneLane l).control = (x.lane l).control ∧
    (x.undoneLane l).eq = (x.lane l).eq ∧ (x.undoneLane l).counters = (x.lane l).counters := by
  unfold Port.undoneLane Lane.takeBack
  split_ifs <;> exact ⟨rfl, rfl, rfl⟩

@[simp] theorem Local.left_owner : ((k.left p).lane l).owner = .part := (k.left_lane p l).owner.trans (k.port.undoneLane_owner l)
@[simp] theorem Local.left_control : ((k.left p).lane l).control = (k.port.lane l).control :=
  (k.left_lane p l).control.trans (k.port.undoneLane_kept l).1
@[simp] theorem Local.left_eq : ((k.left p).lane l).eq = (k.port.lane l).eq :=
  (k.left_lane p l).eq.trans (k.port.undoneLane_kept l).2.1
@[simp] theorem Local.left_laneCounters : ((k.left p).lane l).counters = (k.port.lane l).counters :=
  (k.left_lane p l).counters.trans (k.port.undoneLane_kept l).2.2

theorem Lane.listen_rx_of_on {y : Lane} (h : y.rx.state ≠ .off) : (y.listen true).rx = y.rx := by
  rw [Lane.listen, if_neg (by decide), if_neg h]

theorem Lane.listen_rx_of_begin {y : Lane} (h : y.rx.state = .off) : (y.listen true).rx = .fresh := by
  rw [Lane.listen, if_neg (by decide), if_pos h]

theorem Port.undoneLane_rx_of_part {l : LanePos} (h : (x.lane l).owner = .part) (h' : x.nearEnd l = false) :
    (x.undoneLane l).rx = (x.lane l).rx := by
  have mine : ¬(x.lane l).owner = .switch := by simp [h]
  rw [Port.undoneLane, if_neg (by simp [h'])]
  show (x.lane l).takeBack.rx = _
  rw [Lane.takeBack, if_neg mine]

/-- Outside MANUAL no lane is in a near-end loopback (R27). -/
theorem Port.nearEnd_of_not_manual (h : x.state ≠ .manual) (l : LanePos) : x.nearEnd l = false := by
  simp [Port.nearEnd, h]

/-! ### The reports of a transition that moves no loop -/

/-- No lane of the port is in automatic far-end loopback. -/
def Port.Still (x : Port) : Prop := ∀ l, (x.lane l).autoLoop = false

/-- No lane of the port has seen a loop request. -/
def Port.Unasked (x : Port) : Prop := ∀ l, (x.lane l).rx.loopSeen = false

/-- A lane of a port that is neither in DISCOVER nor FAULTED, or that has seen no request, meets no loopback's conditions (R29). -/
theorem Port.loopHolds_eq_false (h : x.state ≠ .discover ∧ x.state ≠ .faulted ∨ (x.lane l).rx.loopSeen = false) :
    x.loopHolds l = false := by
  rcases h with ⟨discover, faulted⟩ | unasked
  · simp [Port.loopHolds, discover, faulted]
  · simp [Port.loopHolds, unasked]

/-- A change of the record alone. -/
def LanesKept (f : Port → Port) : Prop := ∀ (x : Port) (l : LanePos), (f x).lane l = x.lane l

theorem Lane.listen_loopSeen {y : Lane} (h : y.rx.loopSeen = false) (on : Bool) : (y.listen on).rx.loopSeen = false := by
  unfold Lane.listen
  split_ifs
  · rfl
  · rfl
  · exact h

theorem Lane.takeBack_loopSeen {y : Lane} (h : y.rx.loopSeen = false) : y.takeBack.rx.loopSeen = false := by
  unfold Lane.takeBack
  split
  · rfl
  · exact h

theorem Port.undoneLane_loopSeen {l : LanePos} (h : (x.lane l).rx.loopSeen = false) : (x.undoneLane l).rx.loopSeen = false := by
  unfold Port.undoneLane
  split
  · rfl
  · exact Lane.takeBack_loopSeen h

theorem Local.arrive_lane (k : Local) (p : PortIx) (new : PortState) (f : Port → Port) (l : LanePos) : (k.arrive p new f).port.lane l =
    ((f (k.left p)).lane l).listen (Port.listens { f (k.left p) with state := new } l) := by
  show (Port.relisten { f (k.left p) with state := new }).lane l = _
  rw [Port.relisten, Port.mapLanes_lane]
  rfl

/-- The loops a transition starts: none, where nothing asks for one. -/
theorem Local.arrive_loopHolds (lanes : LanesKept f) (h : new ≠ .discover ∧ new ≠ .faulted ∨ k.port.Unasked) (l : LanePos) :
    (k.arrive p new f).port.loopHolds l = ((k.arrive p new f).port.lane l).autoLoop := by
  have off : ((k.arrive p new f).port.lane l).autoLoop = false := by
    rw [Local.arrive_lane, (Lane.listen_line _ _).2.2.2.2.2.2.2.2, lanes]
    exact k.left_autoLoop p l
  rw [off]
  refine Port.loopHolds_eq_false (h.imp_right fun unasked => ?_)
  rw [Local.arrive_lane]
  refine Lane.listen_loopSeen ?_ _
  rw [lanes, (k.left_lane p l).rx]
  exact Port.undoneLane_loopSeen (unasked l)

/-- A transition after which no loop begins. -/
theorem Local.transition_of_quiet (lanes : LanesKept f) (h : new ≠ .discover ∧ new ≠ .faulted ∨ k.port.Unasked) :
    k.transition p g new f = ((k.arrive p new f).tell [k.stateReport p new f]).modPort Port.sync := by
  have settled := Local.judgeLoops_of_settled (p := p) (g := g) (k := (k.arrive p new f).tell [k.stateReport p new f])
    (Local.arrive_loopHolds lanes h)
  rw [Local.transition, settled]

/-- The timer of a port that no loop halts. -/
theorem Local.transition_stageTimer_of_quiet (lanes : LanesKept f) (h : k.port.Unasked) :
    (k.transition p g new f).port.stageTimer = (f (k.left p)).stageTimer := by
  rw [Local.transition_of_quiet lanes (.inr h)]
  rfl

/-- The detail of PORT_STATE, field by field (R103). -/
theorem Local.stateReport_eq (k : Local) (p : PortIx) (new : PortState) (f : Port → Port) : k.stateReport p new f =
    { port := some p, lane := none
      detail := .portState k.port.state new (f (k.left p)).pending (f (k.left p)).fault (f (k.left p)).cycle (f (k.left p)).attempts } :=
  rfl

/-- A transition that moves no loop posts PORT_STATE and nothing else. -/
theorem Local.transition_told (lanes : LanesKept f) (still : k.port.Still)
    (h : new ≠ .discover ∧ new ≠ .faulted ∨ k.port.Unasked) :
    (k.transition p g new f).told = k.told ++ [{ port := some p, lane := none
                                                 detail := .portState k.port.state new (f (k.left p)).pending (f (k.left p)).fault
                                                   (f (k.left p)).cycle (f (k.left p)).attempts }] := by
  rw [Local.transition_of_quiet lanes h, ← Local.stateReport_eq]
  show (k.undo p).told ++ _ = _
  rw [Local.undo_told still]

/-- After a transition that moves no loop none is on. -/
theorem Local.transition_still (lanes : LanesKept f) (h : new ≠ .discover ∧ new ≠ .faulted ∨ k.port.Unasked) :
    (k.transition p g new f).port.Still := by
  intro l
  rw [Local.transition_of_quiet lanes h]
  show ((k.arrive p new f).port.sync.lane l).autoLoop = false
  rw [Port.sync, Port.mapLanes_lane]
  show ((k.arrive p new f).port.lane l).autoLoop = false
  rw [Local.arrive_lane, (Lane.listen_line _ _).2.2.2.2.2.2.2.2, lanes]
  exact k.left_autoLoop p l

end Sys2Proof.Machine
end

section
/-! SUPPORT. The grant test on what one port's operations change: where no grant can be made, and the grant to one port (R121, R131). -/

namespace Sys2Proof.Machine

variable {s t u : State} {p q : PortIx} {k : Local} {c d : ChanIx} {e : Esu}

/-! ### Channels -/

/-- No grant can be made: no port waits, no channel is free, or as many are busy as the limit allows (R121). -/
def Esu.Resting (e : Esu) (limit : Nat) : Prop := e.queue = [] ∨ (∀ c : ChanIx, e.channels[c] ≠ none) ∨ limit ≤ e.busy

theorem Esu.firstFree_eq (free : e.channels[c] = none) (lowest : ∀ d : ChanIx, d < c → e.channels[d] ≠ none) : e.firstFree = some c := by
  have order : ∀ c : ChanIx, ([0, 1, 2, 3] : List ChanIx) =
      ([0, 1, 2, 3] : List ChanIx).take c.val ++ c :: ([0, 1, 2, 3] : List ChanIx).drop (c.val + 1) := by decide
  have before : ∀ c : ChanIx, ∀ b ∈ ([0, 1, 2, 3] : List ChanIx).take c.val, b < c := by decide
  rw [Esu.firstFree, List.find?_eq_some_iff_append]
  refine ⟨by rw [free]; rfl, _, _, order c, fun b hb => ?_⟩
  rw [Bool.not_eq_true', Option.isNone_eq_false_iff, Option.isSome_iff_ne_none]
  exact lowest b (before c b hb)

theorem Esu.firstFree_of_busy (h : ∀ c : ChanIx, e.channels[c] ≠ none) : e.firstFree = none := by
  rw [Esu.firstFree, List.find?_eq_none]
  intro c _
  rw [Option.isNone_iff_eq_none]
  exact h c

theorem Esu.busy_eq (e : Esu) : e.busy = e.channels.toList.countP Option.isSome := List.countP_eq_length_filter.symm

/-- A free channel taken: one more is busy. -/
theorem Esu.busy_set (free : e.channels[c] = none) (w : Sweep) (q : List QueueEntry) (n : Nat) :
    Esu.busy { channels := e.channels.set c (some w), queue := q, grants := n } = e.busy + 1 := by
  have here : e.channels.toList[c.val]'(by simp) = none := free
  have inside : c.val < e.channels.toList.length := by simp
  rw [Esu.busy_eq, Esu.busy_eq, Vector.toList_set, List.countP_set inside, here]
  simp

/-- A busy channel freed: one fewer is busy. -/
theorem Esu.busy_free {w : Sweep} (busy : e.channels[c] = some w) : (e.free c).busy + 1 = e.busy := by
  have here : e.channels.toList[c.val]'(by simp) = some w := busy
  have inside : c.val < e.channels.toList.length := by simp
  have some_busy : 0 < e.channels.toList.countP Option.isSome :=
    List.countP_pos_iff.2 ⟨some w, by rw [← here]; exact List.getElem_mem _, rfl⟩
  rw [Esu.busy_eq, Esu.busy_eq, Esu.free, Vector.toList_set, List.countP_set inside, here]
  simp only [Option.isSome_some, Option.isSome_none, if_true, Bool.false_eq_true, if_false]
  omega

/-! ### Where no grant is made -/

theorem State.grant_of_resting (h : s.esu.Resting s.settings.sweepLimit) : s.grant = s := by
  unfold State.grant
  rcases h with empty | full | limit
  · rw [empty]; exact ite_self _
  · rw [Esu.firstFree_of_busy full]
    cases s.esu.queue <;> exact ite_self _
  · rw [if_neg (Nat.not_lt.2 limit)]

theorem State.grantTest_of_resting (h : s.esu.Resting s.settings.sweepLimit) : s.grantTest = s := by
  simp only [State.grantTest, State.grant_of_resting h]

theorem State.put_grantTest (h : k.esu.Resting s.settings.sweepLimit) : (s.put p k).grantTest = s.put p k :=
  State.grantTest_of_resting h

theorem State.afterAbort_of_ne {z : PortState} (h : z ≠ .tune) : s.afterAbort z = s := if_neg h

theorem State.put_afterAbort {z : PortState} (h : z ≠ .tune ∨ k.esu.Resting s.settings.sweepLimit) :
    (s.put p k).afterAbort z = s.put p k := by
  unfold State.afterAbort
  split
  · exact State.put_grantTest (h.resolve_left fun other => other ‹_›)
  · rfl

theorem State.noGrant.resting (h : s.noGrant) (queue : List QueueEntry) :
    Esu.Resting { s.esu with queue := queue } s.settings.sweepLimit := .inr (.inr h)

/-! ### One grant -/

/-- A state as the change of one of its ports. -/
def State.whole (s : State) (p : PortIx) : Local := { s.held p with kept := s.deferred }

theorem State.put_whole (s : State) (p : PortIx) : s.put p (s.whole p) = s := by
  have same : s.ports.set p (s.port p) = s.ports := Vector.set_getElem_self p.isLt
  rw [State.put, State.whole, State.held, same]
  rfl

/-- The sweep record of a grant (R122). -/
def Local.sweep (k : Local) (p : PortIx) (clock : Word) (c : ChanIx) : Sweep :=
  { number := k.esu.grants, port := p, channel := c, start := clock, watchdog := 500, lanes := k.port.byLogical.map SweepLane.start }

/-- A grant to the port (R121). -/
def Local.granted (k : Local) (p : PortIx) (clock : Word) (g : Settings) (c : ChanIx) : Local :=
  (k.setEsu { channels := k.esu.channels.set c (some (k.sweep p clock c)), queue := k.esu.queue.tail
              grants := k.esu.grants + 1 }).transition p g .tune fun x => { x with channel := some c }

theorem State.put_grantTo (s : State) (p : PortIx) (k : Local) (c : ChanIx) :
    (s.put p k).grantTo p c = s.put p (k.granted p s.time.clock s.settings c) := by
  have record : (s.put p k).newSweep p c = k.sweep p s.time.clock c := by
    rw [State.newSweep, State.put_port]
    rfl
  rw [State.grantTo, record, State.put_setEsu, State.put_transition]
  rfl

/-- The grant to the head of the queue, on the lowest free channel (R121). -/
theorem State.grant_of_head {x : QueueEntry} {xs : List QueueEntry} (queue : s.esu.queue = x :: xs)
    (limit : s.esu.busy < s.settings.sweepLimit) (free : s.esu.channels[c] = none)
    (lowest : ∀ d : ChanIx, d < c → s.esu.channels[d] ≠ none) :
    s.grant = s.put x.port ((s.whole x.port).granted x.port s.time.clock s.settings c) := by
  have grants : s.grant = s.grantTo x.port c := by
    rw [State.grant, if_pos limit, queue, Esu.firstFree_eq free lowest]
  have whole := State.put_grantTo s x.port (s.whole x.port) c
  rw [State.put_whole] at whole
  rw [grants, whole]

/-- The ESU after a grant to a port that waited at the head of the queue. -/
theorem Local.granted_esu {clock : Word} {g : Settings} {x : QueueEntry} {xs : List QueueEntry} (queue : k.esu.queue = x :: xs)
    (others : ∀ y ∈ xs, y.port ≠ p) (state : k.port.state = .awaitSlot) : (k.granted p clock g c).esu =
      { channels := k.esu.channels.set c (some (k.sweep p clock c)), queue := xs, grants := k.esu.grants + 1 } := by
  have kept : xs.filter (fun y => decide (y.port ≠ p)) = xs := List.filter_eq_self.2 fun y hy => decide_eq_true (others y hy)
  have state' : (k.setEsu { channels := k.esu.channels.set c (some (k.sweep p clock c)), queue := k.esu.queue.tail
                            grants := k.esu.grants + 1 }).port.state = .awaitSlot := state
  rw [Local.granted, Local.transition_esu, Local.undoneEsu_of_awaitSlot state']
  simp only [Local.setEsu, queue, List.tail_cons, kept]

/-! ### The whole state after a grant to another port -/

/-- A state at the end of a command: what may differ is the report list, the reports kept back and the pin. -/
structure Ends (u t : State) : Prop where
  ports : ∀ q, t.port q = u.port q
  plan : t.plan = u.plan
  esu : t.esu = u.esu
  mpt : t.mpt = u.mpt
  time : t.time = u.time
  settings : t.settings = u.settings
  identity : t.identity = u.identity
  countdown : t.countdown = u.countdown
  freeIx : t.freeIx = u.freeIx
  pending : t.pending = u.pending
  reports : t.reports = u.reports.enterAll u.time.clock u.deferred

theorem State.done_ends (u : State) : ∃ t, u.done = .next t ∧ Ends u t := by
  refine ⟨u.closed, rfl, fun q => ?_, ?_, ?_, ?_, ?_, ?_, ?_, ?_, ?_, ?_, ?_⟩
  · rw [State.port, State.closed_ports]; rfl
  all_goals simp [State.closed_reports]

theorem State.put_only (s : State) (p : PortIx) (k : Local) : OnlyPort p s (s.put p k) :=
  ⟨fun _ hq => State.put_port_of_ne hq, rfl, rfl, rfl, rfl, rfl, rfl, rfl, rfl⟩

theorem OnlyPort.ends (h : OnlyPort p s u) (k : Ends u t) : OnlyPort p s t :=
  ⟨fun q hq => (k.ports q).trans (h.others q hq), k.plan.trans h.plan, k.mpt.trans h.mpt, k.time.trans h.time,
    k.settings.trans h.settings, k.identity.trans h.identity, k.countdown.trans h.countdown, k.freeIx.trans h.freeIx,
    k.pending.trans h.pending⟩

/-- A port that waits at the head of the queue is in AWAIT_SLOT, and waits nowhere else (R119). -/
theorem State.slots.head (h : s.slots) {x : QueueEntry} {xs : List QueueEntry} (queue : s.esu.queue = x :: xs) :
    (s.port x.port).state = .awaitSlot ∧ ∀ y ∈ xs, y.port ≠ x.port := by
  refine ⟨(h.queued x.port).2 ⟨x, by simp [queue], rfl⟩, fun y hy same => ?_⟩
  have once := h.once
  rw [queue, List.map_cons, List.nodup_cons] at once
  exact once.1 (List.mem_map.2 ⟨y, hy, same⟩)

/-- A port has left TUNE, its channel free: the grant test finds nothing to do. -/
theorem State.freed_resting (h : (s.esu.free c).Resting s.settings.sweepLimit) (esu : k.esu = s.esu.free c) :
    (s.put p k).grantTest = s.put p k := State.put_grantTest (esu ▸ h)

/-- A port has left TUNE, its channel free: the grant test serves the head of the queue once, where the freed channel is the one the
limit held back. -/
theorem State.freed_grants (slots : s.slots) (tune : (s.port p).state = .tune) (esu : k.esu = s.esu.free c) {x : QueueEntry}
    {xs : List QueueEntry} (queue : s.esu.queue = x :: xs) (limit : (s.esu.free c).busy + 1 = s.settings.sweepLimit)
    (free : (s.esu.free c).channels[d] = none) (lowest : ∀ b : ChanIx, b < d → (s.esu.free c).channels[b] ≠ none) :
    x.port ≠ p ∧ ∃ j : Local, j = ((s.put p k).whole x.port).granted x.port s.time.clock s.settings d ∧
      (s.put p k).grantTest = (s.put p k).put x.port j ∧ j.esu =
        { channels := (s.esu.free c).channels.set d (some (((s.put p k).whole x.port).sweep x.port s.time.clock d)), queue := xs
          grants := s.esu.grants + 1 } := by
  obtain ⟨waits, others⟩ := slots.head queue
  have other : x.port ≠ p := fun same => by rw [same, tune] at waits; cases waits
  have here : ((s.put p k).whole x.port).port = s.port x.port := State.put_port_of_ne other
  have wait : k.esu.queue = x :: xs := by rw [esu]; exact queue
  have after := Local.granted_esu (k := (s.put p k).whole x.port) (p := x.port) (clock := s.time.clock) (g := s.settings) (c := d) wait
    others (by rw [here]; exact waits)
  have first : (s.put p k).grant = (s.put p k).put x.port (((s.put p k).whole x.port).granted x.port s.time.clock s.settings d) :=
    State.grant_of_head (s := s.put p k) wait (by rw [State.put_esu, esu, State.put_settings]; omega) (by rw [State.put_esu, esu]; exact free)
      (by rw [State.put_esu, esu]; exact lowest)
  have channels : ((s.put p k).whole x.port).esu.channels = (s.esu.free c).channels := congrArg (fun e : Esu => e.channels) esu
  have grants : ((s.put p k).whole x.port).esu.grants = s.esu.grants := by
    show k.esu.grants = _
    rw [esu]
    rfl
  rw [channels, grants] at after
  refine ⟨other, _, rfl, ?_, after⟩
  have rest : Esu.Resting (((s.put p k).whole x.port).granted x.port s.time.clock s.settings d).esu s.settings.sweepLimit := by
    rw [after]
    refine .inr (.inr (Nat.le_of_eq ?_))
    rw [Esu.busy_set free, limit]
  have again := State.grant_of_resting (s := (s.put p k).put x.port (((s.put p k).whole x.port).granted x.port s.time.clock s.settings d))
    rest
  simp only [State.grantTest, first, again]

/-- What follows when a port leaves TUNE with its sweep aborted (R131). -/
theorem freed_of_ends (slots : s.slots) (tune : (s.port p).state = .tune) (esu : k.esu = s.esu.free c)
    (ends : Ends ((s.put p k).grantTest) t) : Freed p c s t := by
  refine ⟨fun quiet => ?_, fun x xs d queue limit free lowest => ?_⟩
  · have resting : (s.esu.free c).Resting s.settings.sweepLimit := quiet.imp id .inr
    rw [State.freed_resting resting esu] at ends
    exact ⟨(State.put_only s p k).ends ends, ends.esu.trans esu⟩
  · obtain ⟨other, j, hj, granted, after⟩ := State.freed_grants slots tune esu queue limit free lowest
    have here : ((s.put p k).whole x.port).port = s.port x.port := State.put_port_of_ne other
    rw [granted] at ends
    have port : t.port x.port = j.port := (ends.ports _).trans (State.put_port _ _ _)
    have channels : t.esu.channels =
        (s.esu.free c).channels.set d (some (((s.put p k).whole x.port).sweep x.port s.time.clock d)) := by
      rw [ends.esu, State.put_esu, after]
    refine ⟨by rw [ends.esu, State.put_esu, after], by rw [port, hj, Local.granted, Local.transition_state],
      by rw [port, hj, Local.granted, Local.transition_channel], ⟨((s.put p k).whole x.port).sweep x.port s.time.clock d, ?_, rfl, rfl, rfl, rfl, ?_⟩, fun b hb => ?_, fun r hr hr' => ?_⟩
    · rw [channels]; exact Vector.getElem_set_self d.isLt
    · rw [Local.sweep, here]
    · rw [channels]; exact Vector.getElem_set_ne d.isLt b.isLt fun same => hb (Fin.ext same.symm)
    · rw [ends.ports, State.put_port_of_ne hr', State.put_port_of_ne hr]

/-- Settles O37: where a port joins the wait queue, and what one grant does. -/
theorem queueJoinsAndGrants : Obligations.QueueJoinsAndGrants := by
  unfold Obligations.QueueJoinsAndGrants
  refine ⟨fun rs is p retrain initial => ⟨?_, rfl⟩, fun s h => State.grantTest_of_resting h, ?_⟩
  · have front : ∀ x ∈ rs, decide (x.cycle = .retrain) = true := fun x hx => decide_eq_true (retrain x hx)
    have back : ∀ x ∈ is, ¬decide (x.cycle = .retrain) = true := fun x hx => by simp [initial x hx]
    have none_taken : is.takeWhile (fun x => decide (x.cycle = .retrain)) = [] := by
      cases is with
      | nil => rfl
      | cons x xs => exact List.takeWhile_cons_of_neg (back x (by simp))
    have none_dropped : is.dropWhile (fun x => decide (x.cycle = .retrain)) = is := by
      cases is with
      | nil => rfl
      | cons x xs => exact List.dropWhile_cons_of_neg (back x (by simp))
    show (rs ++ is).takeWhile _ ++ _ :: (rs ++ is).dropWhile _ = _
    rw [List.takeWhile_append_of_pos front, List.dropWhile_append_of_pos front, none_taken, none_dropped, List.append_nil]
  · intro s x xs c slots queue limit free lowest
    obtain ⟨waits, others⟩ := slots.head queue
    have granted := State.grant_of_head queue limit free lowest
    have after := Local.granted_esu (k := s.whole x.port) (p := x.port) (clock := s.time.clock) (g := s.settings) (c := c) queue others
      waits
    rw [granted]
    dsimp only
    rw [State.put_esu, State.put_port, after]
    refine ⟨rfl, by simp [Local.granted], by simp [Local.granted], ⟨(s.whole x.port).sweep x.port s.time.clock c,
      Vector.getElem_set_self c.isLt, rfl, rfl, rfl, rfl, ?_, ?_⟩,
      fun d hd => Vector.getElem_set_ne c.isLt d.isLt fun same => hd (Fin.ext same.symm), State.put_only s _ _, ?_⟩
    · rw [Local.sweep, List.map_map]
      exact List.map_id _
    · intro y hy
      obtain ⟨m, _, rfl⟩ := List.mem_map.1 hy
      rfl
    · refine ⟨?_, ?_, ?_, ?_⟩ <;> simp [Local.granted, Local.setEsu, State.whole, State.held]

end Sys2Proof.Machine
end

section
/-! SUPPORT. The far end's stage as conditions on the lanes it is taken over (R15, R89, R135), and what of it a transition keeps. -/

namespace Sys2Proof.Machine

variable {s : State} {p : PortIx} {k : Local} {l : LanePos} {g : Stage} {x y : Port}

theorem stageAtLeast_lower (g : Stage) (a b : Option Stage) :
    stageAtLeast g (Stage.lower a b) = (stageAtLeast g a && stageAtLeast g b) := by
  cases a with
  | none => rfl
  | some x =>
    cases b with
    | none => exact (Bool.and_false _).symm
    | some y =>
      rw [Stage.lower, Option.bind_some, Option.map_some, Bool.eq_iff_iff]
      simp only [stageAtLeast, Option.any_some, Bool.and_eq_true, decide_eq_true_eq]
      split <;> omega

/-- The lowest stage of some lanes reaches a stage exactly where every one of them does. -/
theorem Port.stageAtLeast_lowest (x : Port) (g : Stage) (l : LanePos) (ls : List LanePos) :
    stageAtLeast g (x.lowestStage (l :: ls)) = true ↔ ∀ m ∈ l :: ls, stageAtLeast g (x.lane m).farStage = true := by
  induction ls generalizing l with
  | nil => simp [Port.lowestStage]
  | cons m ms ih =>
    rw [Port.lowestStage, stageAtLeast_lower, Bool.and_eq_true, ih m]
    · simp only [List.mem_cons, forall_eq_or_imp]
    · exact nofun

theorem Port.stageAtLeast_farStage (x : Port) (g : Stage) :
    stageAtLeast g x.farStage = true ↔ x.farSet ≠ [] ∧ ∀ m ∈ x.farSet, stageAtLeast g (x.lane m).farStage = true := by
  rw [Port.farStage]
  cases x.farSet with
  | nil => simp [Port.lowestStage, stageAtLeast]
  | cons l ls => rw [x.stageAtLeast_lowest g l ls]; simp

theorem Lane.stageAtLeast_iff (z : Lane) (g : Stage) :
    stageAtLeast g z.farStage = true ↔ ∃ f, z.rx.far = some f ∧ g.rank ≤ f.stage.rank := by
  rw [Lane.farStage, stageAtLeast]
  cases z.rx.far <;> simp

theorem Port.mem_mappedLanes : l ∈ x.mappedLanes ↔ x.map[l].logical ≠ none := by
  rw [Port.mappedLanes, List.mem_filter, Port.mapped, Option.isSome_iff_ne_none]
  exact and_iff_right (mem_allLanes l)

theorem Port.farSet_of_map (h : x.mapClass ≠ none) : x.farSet = x.mappedLanes := by
  have held : x.holdsMap = true := Option.isSome_iff_ne_none.2 h
  rw [Port.farSet, if_pos held]

/-- A far end that is behind reaches no later stage. -/
theorem Port.farBehind.low {early : List Stage} (h : x.farBehind early) (g : Stage) (k : ∀ a ∈ early, a.rank < g.rank) :
    stageAtLeast g x.farStage = false := by
  rw [Bool.eq_false_iff, Ne, Port.stageAtLeast_farStage]
  rintro ⟨some_lane, all⟩
  obtain ⟨m, hm, early_there⟩ : ∃ m ∈ x.farSet, ∀ f, (x.lane m).rx.far = some f → f.stage ∈ early := by
    rcases h with everywhere | ⟨held, m, mapped, there⟩
    · obtain ⟨m, hm⟩ := List.exists_mem_of_ne_nil _ some_lane
      exact ⟨m, hm, everywhere m⟩
    · exact ⟨m, by rw [Port.farSet_of_map held]; exact Port.mem_mappedLanes.2 mapped, there⟩
  obtain ⟨f, far, reached⟩ := ((x.lane m).stageAtLeast_iff g).1 (all m hm)
  exact absurd (k _ (early_there f far)) (Nat.not_lt.2 reached)

theorem Port.farFault_of_lane {f : FarEnd} (h : x.mapClass ≠ none) (mapped : x.map[l].logical ≠ none) (far : (x.lane l).rx.far = some f)
    (fault : f.fault ≠ none) : x.farFault = true := by
  rw [Port.farFault, List.any_eq_true]
  refine ⟨l, by rw [Port.farSet_of_map h]; exact Port.mem_mappedLanes.2 mapped, ?_⟩
  rw [Lane.farFault, far]
  exact Option.isSome_iff_ne_none.2 fault

theorem Port.peerBehind.waits (h : x.peerBehind) : x.peerReady = false := by
  rcases h with behind | ⟨held, l, f, mapped, far, fault⟩
  · rw [Port.peerReady, behind.low .wait (by decide), Bool.false_and]
  · rw [Port.peerReady, Port.farFault_of_lane held mapped far fault, Bool.not_true, Bool.and_false]

/-- Every mapped lane of a port holds one of some stages, without FAULT. -/
def Port.farHeld (x : Port) (late : List Stage) : Prop :=
  x.mapClass ≠ none ∧ (∃ l : LanePos, x.map[l].logical ≠ none) ∧
    ∀ l : LanePos, x.map[l].logical ≠ none → ∃ f, (x.lane l).rx.far = some f ∧ f.stage ∈ late ∧ f.fault = none

theorem Port.farHeld.high {late : List Stage} (h : x.farHeld late) (g : Stage) (k : ∀ a ∈ late, g.rank ≤ a.rank) :
    stageAtLeast g x.farStage = true := by
  obtain ⟨held, ⟨l, mapped⟩, all⟩ := h
  rw [Port.stageAtLeast_farStage, Port.farSet_of_map held]
  refine ⟨List.ne_nil_of_mem (Port.mem_mappedLanes.2 mapped), fun m hm => ?_⟩
  obtain ⟨f, far, stage, _⟩ := all m (Port.mem_mappedLanes.1 hm)
  exact ((x.lane m).stageAtLeast_iff g).2 ⟨f, far, k _ stage⟩

theorem Port.farHeld.ready {late : List Stage} (h : x.farHeld late) (k : ∀ a ∈ late, Stage.wait.rank ≤ a.rank) : x.peerReady = true := by
  have stage := h.high .wait k
  obtain ⟨held, _, all⟩ := h
  have clean : x.farFault = false := by
    rw [Port.farFault, Port.farSet_of_map held, List.any_eq_false]
    intro m hm
    obtain ⟨f, far, _, fault⟩ := all m (Port.mem_mappedLanes.1 hm)
    rw [Lane.farFault, far]
    simp [fault]
  rw [Port.peerReady, stage, clean]
  rfl

/-! ### The receive records a transition keeps -/

variable {z : PortState} {f : Port → Port} {settings : Settings}

theorem Port.L_congr (snapshot : y.snapshot = x.snapshot) (h : x.state ≠ .manual) (h' : y.state ≠ .manual) : y.L = x.L := by
  rw [Port.L, Port.L, Port.laneCount, Port.laneCount, if_neg h, if_neg h', snapshot]

/-- Every snapshot has at least four lanes. -/
theorem Port.four_le_L (x : Port) : 4 ≤ x.L := by
  rw [Port.L, LaneCount.toNat_eq_ite]
  split <;> decide

theorem Port.listens_of_lt (h : x.state ≠ .idle) (h' : l.val < x.L) : x.listens l = true := by
  unfold Port.listens
  cases state : x.state with
  | idle => exact absurd state h
  | manual => rfl
  | _ => exact decide_eq_true h'

/-- Where a lane leaves its state: as it was, or restarted in SILENT. -/
theorem Port.undoneLane_rx (x : Port) (l : LanePos) : (x.undoneLane l).rx = (x.lane l).rx ∨
    (x.undoneLane l).rx.state = .silent ∧ (x.undoneLane l).rx.far = none ∧ (x.undoneLane l).rx.loopSeen = false := by
  by_cases near : x.nearEnd l = true
  · rw [Port.undoneLane, if_pos near]; exact .inr ⟨rfl, rfl, rfl⟩
  · rw [Port.undoneLane, if_neg near]
    show (x.lane l).takeBack.rx = _ ∨ _
    by_cases switched : (x.lane l).owner = .switch
    · rw [Lane.takeBack, if_pos switched]; exact .inr ⟨rfl, rfl, rfl⟩
    · rw [Lane.takeBack, if_neg switched]; exact .inl rfl

/-- Where a lane is set to listen or not: as it was, or with a receive record begun or ended. -/
theorem Lane.listen_rx (w : Lane) (on : Bool) : (w.listen on).rx = w.rx ∨
    ((w.listen on).rx.state = .off ∨ (w.listen on).rx.state = .silent) ∧ (w.listen on).rx.far = none ∧
      (w.listen on).rx.loopSeen = false := by
  unfold Lane.listen
  split_ifs
  · exact .inr ⟨.inl rfl, rfl, rfl⟩
  · exact .inr ⟨.inr rfl, rfl, rfl⟩
  · exact .inl rfl

/-- A receive record after a transition: as it was, or begun, restarted or ended, and then without a far end or a lock. -/
theorem Local.transition_rx_cases (lanes : LanesKept f) (k : Local) (p : PortIx) (settings : Settings) (z : PortState) (l : LanePos) :
    ((k.transition p settings z f).port.lane l).rx = (k.port.lane l).rx ∨
      (((k.transition p settings z f).port.lane l).rx.state = .off ∨ ((k.transition p settings z f).port.lane l).rx.state = .silent) ∧
        ((k.transition p settings z f).port.lane l).rx.far = none := by
  rw [Local.transition_rx, lanes]
  rcases Lane.listen_rx ((k.left p).lane l) (Port.listens { f (k.left p) with state := z } l) with same | ⟨state, far, _⟩
  · rw [same, (k.left_lane p l).rx]
    rcases k.port.undoneLane_rx l with same | ⟨state, far, _⟩
    · exact .inl same
    · exact .inr ⟨.inr state, far⟩
  · exact .inr ⟨state, far⟩

/-- A lane that is LOCKED or STABLE after a transition was so before it, with the same record. -/
theorem Local.transition_rx_of_locked (lanes : LanesKept f)
    (h : ((k.transition p settings z f).port.lane l).rx.state = .locked ∨ ((k.transition p settings z f).port.lane l).rx.state = .stable) :
    ((k.transition p settings z f).port.lane l).rx = (k.port.lane l).rx := by
  rcases k.transition_rx_cases lanes p settings z l with same | ⟨off | silent, _⟩
  · exact same
  · rw [off] at h; simp at h
  · rw [silent] at h; simp at h

theorem Local.transition_far (lanes : LanesKept f) {e : FarEnd} (h : ((k.transition p settings z f).port.lane l).rx.far = some e) :
    (k.port.lane l).rx.far = some e := by
  rcases k.transition_rx_cases lanes p settings z l with same | ⟨_, far⟩
  · rwa [same] at h
  · rw [far] at h; cases h

/-- The part's lane, listening before and after, keeps its receive record. -/
theorem Local.transition_rx_of_on (lanes : LanesKept f) (near : k.port.nearEnd l = false) (owner : (k.port.lane l).owner = .part)
    (on : (k.port.lane l).rx.state ≠ .off) (listens : Port.listens { f (k.left p) with state := z } l = true) :
    ((k.transition p settings z f).port.lane l).rx = (k.port.lane l).rx := by
  have kept : ((k.left p).lane l).rx = (k.port.lane l).rx :=
    (k.left_lane p l).rx.trans (Port.undoneLane_rx_of_part owner near)
  rw [Local.transition_rx, lanes, listens, Lane.listen_rx_of_on (by rw [kept]; exact on), kept]

/-- A port whose far end is another's, or has become absent. -/
structure Port.FarFrom (x y : Port) : Prop where
  map : y.map = x.map
  mapClass : y.mapClass = x.mapClass
  far : ∀ l e, (y.lane l).rx.far = some e → (x.lane l).rx.far = some e

theorem Port.farBehind.from {early : List Stage} (h : x.farBehind early) (k : x.FarFrom y) : y.farBehind early := by
  rcases h with everywhere | ⟨held, l, mapped, there⟩
  · exact .inl fun l f far => everywhere l f (k.far l f far)
  · exact .inr ⟨by rw [k.mapClass]; exact held, l, by rw [k.map]; exact mapped, fun f far => there f (k.far l f far)⟩

theorem Port.peerBehind.from (h : x.peerBehind) (k : x.FarFrom y) : y.peerBehind := by
  rcases h with behind | ⟨held, l, f, mapped, far, fault⟩
  · exact .inl (behind.from k)
  · have held' : y.mapClass ≠ none := by rw [k.mapClass]; exact held
    have mapped' : y.map[l].logical ≠ none := by rw [k.map]; exact mapped
    cases now : (y.lane l).rx.far with
    | none => exact .inl (.inr ⟨held', l, mapped', fun e far' => by rw [now] at far'; cases far'⟩)
    | some e =>
      have same := k.far l e now
      rw [far] at same
      exact .inr ⟨held', l, f, mapped', by rw [now]; exact same.symm, fault⟩

/-- A change of the record that leaves map, map class and snapshot. -/
structure MapKept (f : Port → Port) : Prop where
  lanes : LanesKept f
  map : ∀ x, (f x).map = x.map
  mapClass : ∀ x, (f x).mapClass = x.mapClass
  snapshot : ∀ x, (f x).snapshot = x.snapshot

theorem Local.transition_farFrom (h : MapKept f) : k.port.FarFrom (k.transition p settings z f).port where
  map := by rw [Local.transition_map, h.map, Local.left_map]
  mapClass := by rw [Local.transition_mapClass, h.mapClass, Local.left_mapClass]
  far _ _ := Local.transition_far h.lanes

/-- A far end that is there stays there where the port goes from one of its stages to another. -/
theorem Local.transition_farHeld {late : List Stage} (h : MapKept f) (there : k.port.farThere late) (was : k.port.state ≠ .manual)
    (manual : z ≠ .manual) (idle : z ≠ .idle) : (k.transition p settings z f).port.farHeld late := by
  obtain ⟨held, ⟨l, mapped⟩, all⟩ := there
  refine ⟨by rw [Local.transition_mapClass, h.mapClass, Local.left_mapClass]; exact held,
    ⟨l, by rw [Local.transition_map, h.map, Local.left_map]; exact mapped⟩, fun m hm => ?_⟩
  rw [Local.transition_map, h.map, Local.left_map] at hm
  obtain ⟨inside, owner, on, far⟩ := all m hm
  have L : Port.L { f (k.left p) with state := z } = k.port.L :=
    Port.L_congr ((h.snapshot _).trans (k.left_record p).snapshot) was manual
  rw [Local.transition_rx_of_on h.lanes (Port.nearEnd_of_not_manual was m) owner on
    (Port.listens_of_lt idle (by rw [L]; exact inside))]
  exact far

end Sys2Proof.Machine
end

section
/-! SUPPORT. The entries into the stages as operations on what one port's operations change, and what each leaves (R83, R89, R91, R99,
R101, R134, R135). -/

namespace Sys2Proof.Machine

variable {s : State} {p : PortIx} {k j : Local} {l : LanePos} {g : Settings} {x y : Port} {z : PortState} {f : Port → Port}

/-! ### Reading a change -/

@[simp] theorem Local.tell_port (k : Local) (rs : List Report) : (k.tell rs).port = k.port := rfl
@[simp] theorem Local.tell_esu (k : Local) (rs : List Report) : (k.tell rs).esu = k.esu := rfl
@[simp] theorem Local.tell_told (k : Local) (rs : List Report) : (k.tell rs).told = k.told ++ rs := rfl
@[simp] theorem Local.tell_kept (k : Local) (rs : List Report) : (k.tell rs).kept = k.kept := rfl
@[simp] theorem Local.keep_port (k : Local) (rs : List Report) : (k.keep rs).port = k.port := rfl
@[simp] theorem Local.keep_esu (k : Local) (rs : List Report) : (k.keep rs).esu = k.esu := rfl
@[simp] theorem Local.keep_told (k : Local) (rs : List Report) : (k.keep rs).told = k.told := rfl
@[simp] theorem Local.keep_kept (k : Local) (rs : List Report) : (k.keep rs).kept = k.kept ++ rs := rfl
@[simp] theorem Local.setEsu_port (k : Local) (e : Esu) : (k.setEsu e).port = k.port := rfl
@[simp] theorem Local.setEsu_esu (k : Local) (e : Esu) : (k.setEsu e).esu = e := rfl
@[simp] theorem Local.setEsu_told (k : Local) (e : Esu) : (k.setEsu e).told = k.told := rfl
@[simp] theorem Local.setEsu_kept (k : Local) (e : Esu) : (k.setEsu e).kept = k.kept := rfl
@[simp] theorem Local.modPort_port (k : Local) (f : Port → Port) : (k.modPort f).port = f k.port := rfl
@[simp] theorem Local.modPort_esu (k : Local) (f : Port → Port) : (k.modPort f).esu = k.esu := rfl
@[simp] theorem Local.modPort_told (k : Local) (f : Port → Port) : (k.modPort f).told = k.told := rfl
@[simp] theorem Local.modPort_kept (k : Local) (f : Port → Port) : (k.modPort f).kept = k.kept := rfl
@[simp] theorem Local.countPort_port (k : Local) (p : PortIx) (i : Fin 3) : (k.countPort p i).port = k.port.bumped i := rfl
@[simp] theorem Local.countPort_esu (k : Local) (p : PortIx) (i : Fin 3) : (k.countPort p i).esu = k.esu := rfl
@[simp] theorem Local.countPort_told (k : Local) (p : PortIx) (i : Fin 3) : (k.countPort p i).told = k.told := rfl
@[simp] theorem Local.countPort_kept (k : Local) (p : PortIx) (i : Fin 3) :
    (k.countPort p i).kept = k.kept ++ k.port.saturation p i := rfl
@[simp] theorem State.held_port (s : State) (p : PortIx) : (s.held p).port = s.port p := rfl
@[simp] theorem State.held_esu (s : State) (p : PortIx) : (s.held p).esu = s.esu := rfl
@[simp] theorem State.held_told (s : State) (p : PortIx) : (s.held p).told = [] := rfl
@[simp] theorem State.held_kept (s : State) (p : PortIx) : (s.held p).kept = [] := rfl

theorem Local.undoneEsu_tell (k : Local) (p : PortIx) (rs : List Report) : (k.tell rs).undoneEsu p = k.undoneEsu p := rfl

theorem State.put_postPort (s : State) (p : PortIx) (k : Local) (d : Detail) :
    (s.put p k).postPort p d = s.put p (k.tell (portReports p [d])) := State.put_post s p k _

theorem State.put_postLane (s : State) (p : PortIx) (k : Local) (l : LanePos) (d : Detail) :
    (s.put p k).postLane p l d = s.put p (k.tell [{ port := some p, lane := some l, detail := d }]) := State.put_post s p k _

/-! ### What an entry into a stage leaves -/

/-- A port has come into a state, and keeps its course. -/
structure Local.Arrives (k j : Local) (z : PortState) (pending : Option PendingStage) (fault : Option FaultReason)
    (timer : Option StageTimer) : Prop where
  state : j.port.state = z
  pending : j.port.pending = pending
  fault : j.port.fault = fault
  stageTimer : j.port.stageTimer = timer
  course : k.port.keepsCourse j.port
  attempts : j.port.attempts = k.port.attempts
  cycle : j.port.cycle = k.port.cycle
  channel : j.port.channel = none
  cleanRun : j.port.cleanRun = none
  owner : ∀ l, (j.port.lane l).owner = .part
  eq : ∀ l, (j.port.lane l).eq = (k.port.lane l).eq

/-- A change of the record at an entry that leaves the port's course, and writes what the state is entered with. -/
structure Stages (f : Port → Port) (pending : Option PendingStage) (fault : Option FaultReason) (timer : Option StageTimer) : Prop where
  kept : MapKept f
  course : ∀ x : Port, x.keepsCourse (f x)
  pending : ∀ x, x.pending = none → (f x).pending = pending
  fault : ∀ x, x.fault = none → (f x).fault = fault
  stageTimer : ∀ x, x.stageTimer = none → (f x).stageTimer = timer
  attempts : ∀ x, (f x).attempts = x.attempts
  cycle : ∀ x, (f x).cycle = x.cycle
  channel : ∀ x, (f x).channel = x.channel
  cleanRun : ∀ x, (f x).cleanRun = x.cleanRun
  counters : ∀ x, (f x).counters = x.counters

theorem Port.keepsCourse.refl (x : Port) : x.keepsCourse x := ⟨rfl, rfl, rfl, rfl, rfl, rfl, rfl, rfl, rfl⟩

theorem Port.keepsCourse.trans {w : Port} (h : x.keepsCourse y) (k : y.keepsCourse w) : x.keepsCourse w :=
  ⟨k.mode.trans h.mode, k.snapshot.trans h.snapshot, k.neighbour.trans h.neighbour, k.verdict.trans h.verdict,
    k.accepted.trans h.accepted, k.map.trans h.map, k.mapClass.trans h.mapClass, k.width.trans h.width, k.unstable.trans h.unstable⟩

theorem Local.left_course (k : Local) (p : PortIx) : k.port.keepsCourse (k.left p) :=
  ⟨k.left_mode, k.left_snapshot, k.left_neighbour, k.left_verdict, k.left_accepted, k.left_map, k.left_mapClass, k.left_width,
    k.left_unstable⟩

theorem Local.transition_course (h : ∀ x : Port, x.keepsCourse (f x)) (k : Local) (p : PortIx) (g : Settings) (z : PortState) :
    k.port.keepsCourse (k.transition p g z f).port := by
  have written := h (k.left p)
  refine (k.left_course p).trans (written.trans ?_)
  constructor <;> simp

/-- A transition into a stage. -/
theorem Local.transition_arrives {pending : Option PendingStage} {fault : Option FaultReason} {timer : Option StageTimer}
    (h : Stages f pending fault timer) (discover : z ≠ .discover) (k : Local) (p : PortIx) (g : Settings) :
    k.Arrives (k.transition p g z f) z pending fault timer where
  state := by simp
  pending := by rw [Local.transition_pending]; exact h.pending _ k.left_pending
  fault := by rw [Local.transition_fault]; exact h.fault _ k.left_fault
  stageTimer := by rw [Local.transition_stageTimer k p g f discover]; exact h.stageTimer _ k.left_stageTimer
  course := k.transition_course h.course p g z
  attempts := by rw [Local.transition_attempts, h.attempts, Local.left_attempts]
  cycle := by rw [Local.transition_cycle, h.cycle, Local.left_cycle]
  channel := by rw [Local.transition_channel, h.channel, Local.left_channel]
  cleanRun := by rw [Local.transition_cleanRun, h.cleanRun, Local.left_cleanRun]
  owner l := by rw [Local.transition_owner, h.kept.lanes, Local.left_owner]
  eq l := by rw [Local.transition_eq, h.kept.lanes, Local.left_eq]

theorem Local.Arrives.tells {pending : Option PendingStage} {fault : Option FaultReason} {timer : Option StageTimer} {rs : List Report}
    (h : (k.tell rs).Arrives j z pending fault timer) : k.Arrives j z pending fault timer :=
  ⟨h.state, h.pending, h.fault, h.stageTimer, h.course, h.attempts, h.cycle, h.channel, h.cleanRun, h.owner, h.eq⟩

theorem Local.Arrives.counted {pending : Option PendingStage} {fault : Option FaultReason} {timer : Option StageTimer}
    (h : k.Arrives j z pending fault timer) (p : PortIx) (i : Fin 3) : k.Arrives (j.countPort p i) z pending fault timer :=
  ⟨h.state, h.pending, h.fault, h.stageTimer,
    ⟨h.course.mode, h.course.snapshot, h.course.neighbour, h.course.verdict, h.course.accepted, h.course.map, h.course.mapClass,
      h.course.width, h.course.unstable⟩, h.attempts, h.cycle, h.channel, h.cleanRun, h.owner, h.eq⟩

theorem Local.Arrives.trans {pending pending' : Option PendingStage} {fault fault' : Option FaultReason}
    {timer timer' : Option StageTimer} {i : Local} {z' : PortState} (h : i.Arrives k z pending fault timer)
    (h' : k.Arrives j z' pending' fault' timer') : i.Arrives j z' pending' fault' timer' :=
  ⟨h'.state, h'.pending, h'.fault, h'.stageTimer, h.course.trans h'.course, h'.attempts.trans h.attempts, h'.cycle.trans h.cycle,
    h'.channel, h'.cleanRun, h'.owner, fun l => (h'.eq l).trans (h.eq l)⟩

theorem Local.transition_counters_of_stages {pending : Option PendingStage} {fault : Option FaultReason} {timer : Option StageTimer}
    (h : Stages f pending fault timer) (k : Local) (p : PortIx) (g : Settings) (z : PortState) :
    (k.transition p g z f).port.counters = k.port.counters := by
  rw [Local.transition_counters, h.counters, Local.left_counters]

/-- The report of a transition into a stage. -/
theorem Local.transition_told_of_stages {pending : Option PendingStage} {fault : Option FaultReason} {timer : Option StageTimer}
    (h : Stages f pending fault timer) (still : k.port.Still) (quiet : z ≠ .discover ∧ z ≠ .faulted ∨ k.port.Unasked) :
    (k.transition p g z f).told =
      k.told ++ portReports p [.portState k.port.state z pending fault k.port.cycle k.port.attempts] := by
  rw [Local.transition_told h.kept.lanes still quiet, h.pending _ k.left_pending, h.fault _ k.left_fault, h.cycle, h.attempts,
    Local.left_cycle, Local.left_attempts]
  rfl

/-! ### The record changes of the entries -/

theorem stages_id : Stages id none none none := by
  refine ⟨⟨fun _ _ => rfl, fun _ => rfl, fun _ => rfl, fun _ => rfl⟩, fun x => .refl x, fun _ => id, fun _ => id, fun _ => id, ?_, ?_,
    ?_, ?_, ?_⟩ <;> exact fun _ => rfl

theorem stages_pending (st : PendingStage) : Stages (fun x => { x with pending := some st }) (some st) none none := by
  refine ⟨⟨fun _ _ => rfl, fun _ => rfl, fun _ => rfl, fun _ => rfl⟩, fun _ => ⟨rfl, rfl, rfl, rfl, rfl, rfl, rfl, rfl, rfl⟩,
    fun _ _ => rfl, fun _ => id, fun _ => id, ?_, ?_, ?_, ?_, ?_⟩ <;> exact fun _ => rfl

theorem stages_timer (n : Nat) : Stages (fun x => { x with stageTimer := secondsTimer n }) none none (secondsTimer n) := by
  refine ⟨⟨fun _ _ => rfl, fun _ => rfl, fun _ => rfl, fun _ => rfl⟩, fun _ => ⟨rfl, rfl, rfl, rfl, rfl, rfl, rfl, rfl, rfl⟩,
    fun _ => id, fun _ => id, fun _ _ => rfl, ?_, ?_, ?_, ?_, ?_⟩ <;> exact fun _ => rfl

theorem stages_fault (r : FaultReason) : Stages (fun x => { x with fault := some r }) none (some r) none := by
  refine ⟨⟨fun _ _ => rfl, fun _ => rfl, fun _ => rfl, fun _ => rfl⟩, fun _ => ⟨rfl, rfl, rfl, rfl, rfl, rfl, rfl, rfl, rfl⟩,
    fun _ => id, fun _ _ => rfl, fun _ => id, ?_, ?_, ?_, ?_, ?_⟩ <;> exact fun _ => rfl

/-- What the entry into QUALIFY writes (R134). -/
def Port.qualifies (g : Settings) (x : Port) : Port :=
  { x with stageTimer := secondsTimer g.farEndWait, qualify := some { begun := false, entries := x.byLogical.map QualEntry.start } }

theorem stages_qualify (g : Settings) : Stages (Port.qualifies g) none none (secondsTimer g.farEndWait) := by
  refine ⟨⟨fun _ _ => rfl, fun _ => rfl, fun _ => rfl, fun _ => rfl⟩, fun _ => ⟨rfl, rfl, rfl, rfl, rfl, rfl, rfl, rfl, rfl⟩,
    fun _ => id, fun _ => id, fun _ _ => rfl, ?_, ?_, ?_, ?_, ?_⟩ <;> exact fun _ => rfl

/-- What the entry into HANDOVER writes (R92). -/
def Port.handsOver (g : Settings) (x : Port) : Port :=
  { x with stageTimer := secondsTimer g.farEndWait,
           handover := some { closing := false, entries := x.mappedLanes.map fun l => { pos := l, readyRun := 0, sent := 0 } } }

theorem stages_handover (g : Settings) : Stages (Port.handsOver g) none none (secondsTimer g.farEndWait) := by
  refine ⟨⟨fun _ _ => rfl, fun _ => rfl, fun _ => rfl, fun _ => rfl⟩, fun _ => ⟨rfl, rfl, rfl, rfl, rfl, rfl, rfl, rfl, rfl⟩,
    fun _ => id, fun _ => id, fun _ _ => rfl, ?_, ?_, ?_, ?_, ?_⟩ <;> exact fun _ => rfl

/-! ### PAUSED (R83) -/

/-- The entry into PAUSED. -/
def Local.enterPaused (k : Local) (p : PortIx) (g : Settings) (st : PendingStage) : Local :=
  (k.tell (portReports p [.stagePause st])).transition p g .paused fun x => { x with pending := some st }

theorem State.put_enterPaused (s : State) (p : PortIx) (k : Local) (st : PendingStage) :
    (s.put p k).enterPaused p st = s.put p (k.enterPaused p s.settings st) := by
  rw [State.enterPaused, State.put_postPort, State.put_transition, Local.enterPaused]

theorem Local.enterPaused_arrives (k : Local) (p : PortIx) (g : Settings) (st : PendingStage) :
    k.Arrives (k.enterPaused p g st) .paused (some st) none none :=
  (Local.transition_arrives (stages_pending st) (by decide) _ p g).tells

@[simp] theorem Local.enterPaused_esu (k : Local) (p : PortIx) (g : Settings) (st : PendingStage) :
    (k.enterPaused p g st).esu = k.undoneEsu p := by rw [Local.enterPaused, Local.transition_esu, Local.undoneEsu_tell]

@[simp] theorem Local.enterPaused_kept (k : Local) (p : PortIx) (g : Settings) (st : PendingStage) :
    (k.enterPaused p g st).kept = k.kept := by rw [Local.enterPaused, Local.transition_kept, Local.tell_kept]

@[simp] theorem Local.enterPaused_counters (k : Local) (p : PortIx) (g : Settings) (st : PendingStage) :
    (k.enterPaused p g st).port.counters = k.port.counters := Local.transition_counters_of_stages (stages_pending st) _ p g _

@[simp] theorem Local.enterPaused_qualify (k : Local) (p : PortIx) (g : Settings) (st : PendingStage) :
    (k.enterPaused p g st).port.qualify = k.port.qualify.map fun q => { q with begun := false } := by simp [Local.enterPaused]

theorem Local.enterPaused_told (still : k.port.Still) (st : PendingStage) : (k.enterPaused p g st).told =
    k.told ++ portReports p [.stagePause st, .portState k.port.state .paused (some st) none k.port.cycle k.port.attempts] := by
  rw [Local.enterPaused, Local.transition_told_of_stages (k := k.tell (portReports p [.stagePause st])) (stages_pending st) still
    (.inl ⟨by decide, by decide⟩), Local.tell_told, List.append_assoc]
  rfl

/-! ### AWAIT_SLOT (R91, R119) -/

/-- The port at the tail of its class (R119). -/
def Local.joinQueue (k : Local) (p : PortIx) : Local :=
  k.setEsu { k.esu with queue := queueJoin k.esu.queue { port := p, cycle := k.port.cycle } }

/-- ATTEMPTS counts a first cycle (R91). -/
def Local.countAttempt (k : Local) (p : PortIx) : Local := if k.port.cycle = .initial then k.countPort p ctrAttempts else k

/-- The entry into AWAIT_SLOT, before the grant test. -/
def Local.enterAwaitSlot (k : Local) (p : PortIx) (g : Settings) : Local := ((k.transition p g .awaitSlot id).joinQueue p).countAttempt p

theorem State.put_countAttempt (s : State) (p : PortIx) (k : Local) : (s.put p k).countAttempt p = s.put p (k.countAttempt p) := by
  rw [State.countAttempt, State.put_port, Local.countAttempt]
  split
  · exact State.put_countPort s p k ctrAttempts
  · rfl

theorem State.put_joinQueue (s : State) (p : PortIx) (k : Local) : (s.put p k).joinQueue p = s.put p (k.joinQueue p) := by
  rw [State.joinQueue, State.put_port]
  rfl

theorem State.put_enterAwaitSlot_test (s : State) (p : PortIx) (k : Local) :
    (s.put p k).enterAwaitSlot p = (s.put p (k.enterAwaitSlot p s.settings)).grantTest := by
  rw [State.enterAwaitSlot, State.put_transition, State.put_joinQueue, State.put_countAttempt, Local.enterAwaitSlot]

theorem State.put_enterAwaitSlot (h : (k.enterAwaitSlot p s.settings).esu.Resting s.settings.sweepLimit) :
    (s.put p k).enterAwaitSlot p = s.put p (k.enterAwaitSlot p s.settings) := by
  rw [State.put_enterAwaitSlot_test, State.put_grantTest h]

/-- Counting an attempt changes the counter alone. -/
theorem Local.Arrives.attempted {pending : Option PendingStage} {fault : Option FaultReason} {timer : Option StageTimer}
    (h : k.Arrives j z pending fault timer) (p : PortIx) : k.Arrives (j.countAttempt p) z pending fault timer := by
  unfold Local.countAttempt
  split
  · exact h.counted p ctrAttempts
  · exact h

@[simp] theorem Local.countAttempt_esu (k : Local) (p : PortIx) : (k.countAttempt p).esu = k.esu := by
  unfold Local.countAttempt; split <;> rfl

@[simp] theorem Local.countAttempt_told (k : Local) (p : PortIx) : (k.countAttempt p).told = k.told := by
  unfold Local.countAttempt; split <;> rfl

theorem Local.countAttempt_counters (k : Local) (p : PortIx) : (k.countAttempt p).port.counters =
    if k.port.cycle = .initial then k.port.counters.set ctrAttempts (k.port.counters[ctrAttempts].bump 65535 1) else k.port.counters := by
  unfold Local.countAttempt; split <;> rfl

theorem Local.countAttempt_kept (k : Local) (p : PortIx) (h : k.port.counters[ctrAttempts].saturates 65535 1 = false) :
    (k.countAttempt p).kept = k.kept := by
  unfold Local.countAttempt
  split
  · rw [Local.countPort_kept, Port.saturation_of_not h, List.append_nil]
  · rfl

theorem Local.countAttempt_qualify (k : Local) (p : PortIx) : (k.countAttempt p).port.qualify = k.port.qualify := by
  unfold Local.countAttempt; split <;> rfl

theorem Local.enterAwaitSlot_arrives (k : Local) (p : PortIx) (g : Settings) :
    k.Arrives (k.enterAwaitSlot p g) .awaitSlot none none none := by
  have moved := Local.transition_arrives (z := .awaitSlot) stages_id (by decide) k p g
  have joined : k.Arrives ((k.transition p g .awaitSlot id).joinQueue p) .awaitSlot none none none :=
    ⟨moved.state, moved.pending, moved.fault, moved.stageTimer, moved.course, moved.attempts, moved.cycle, moved.channel,
      moved.cleanRun, moved.owner, moved.eq⟩
  exact joined.attempted p

theorem Local.enterAwaitSlot_esu (k : Local) (p : PortIx) (g : Settings) : (k.enterAwaitSlot p g).esu =
    { k.undoneEsu p with queue := queueJoin (k.undoneEsu p).queue { port := p, cycle := k.port.cycle } } := by
  rw [Local.enterAwaitSlot, Local.countAttempt_esu, Local.joinQueue, Local.setEsu_esu, Local.transition_esu, Local.transition_cycle]
  exact congrArg (fun c => ({ k.undoneEsu p with queue := queueJoin (k.undoneEsu p).queue { port := p, cycle := c } } : Esu)) k.left_cycle

theorem Local.enterAwaitSlot_counters (k : Local) (p : PortIx) (g : Settings) : (k.enterAwaitSlot p g).port.counters =
    if k.port.cycle = .initial then k.port.counters.set ctrAttempts (k.port.counters[ctrAttempts].bump 65535 1) else k.port.counters := by
  have counters : (k.transition p g .awaitSlot id).port.counters = k.port.counters :=
    Local.transition_counters_of_stages stages_id k p g _
  have cycle : (k.transition p g .awaitSlot id).port.cycle = k.port.cycle :=
    (Local.transition_arrives (z := .awaitSlot) stages_id (by decide) k p g).cycle
  rw [Local.enterAwaitSlot, Local.countAttempt_counters, Local.joinQueue, Local.setEsu_port, counters, cycle]

theorem Local.enterAwaitSlot_kept (k : Local) (p : PortIx) (g : Settings)
    (h : k.port.counters[ctrAttempts].saturates 65535 1 = false) : (k.enterAwaitSlot p g).kept = k.kept := by
  have counters : (k.transition p g .awaitSlot id).port.counters = k.port.counters :=
    Local.transition_counters_of_stages stages_id k p g _
  rw [Local.enterAwaitSlot, Local.countAttempt_kept _ _ (by rw [Local.joinQueue, Local.setEsu_port, counters]; exact h), Local.joinQueue,
    Local.setEsu_kept, Local.transition_kept]

theorem Local.enterAwaitSlot_told (still : k.port.Still) : (k.enterAwaitSlot p g).told =
    k.told ++ portReports p [.portState k.port.state .awaitSlot none none k.port.cycle k.port.attempts] := by
  rw [Local.enterAwaitSlot, Local.countAttempt_told, Local.joinQueue, Local.setEsu_told,
    Local.transition_told_of_stages stages_id still (.inl ⟨by decide, by decide⟩)]

@[simp] theorem Local.enterAwaitSlot_qualify (k : Local) (p : PortIx) (g : Settings) : (k.enterAwaitSlot p g).port.qualify =
    k.port.qualify.map fun q => { q with begun := false } := by
  rw [Local.enterAwaitSlot, Local.countAttempt_qualify, Local.joinQueue, Local.setEsu_port, Local.transition_qualify]
  exact k.left_qualify

/-! ### FAULTED (R101) -/

/-- The entry into FAULTED, before the grant test. -/
def Local.enterFaulted (k : Local) (p : PortIx) (g : Settings) (r : FaultReason) : Local :=
  ((k.tell (portReports p [.portFault r k.port.state k.port.neighbour])).transition p g .faulted fun x =>
    { x with fault := some r }).countPort p ctrFaults

theorem State.put_enterFaulted_test (s : State) (p : PortIx) (k : Local) (r : FaultReason) :
    (s.put p k).enterFaulted p r = (s.put p (k.enterFaulted p s.settings r)).afterAbort k.port.state := by
  rw [State.enterFaulted, State.put_port, State.put_postPort, State.put_transition, State.put_countPort, Local.enterFaulted]

theorem State.put_enterFaulted (r : FaultReason) (h : k.port.state ≠ .tune) :
    (s.put p k).enterFaulted p r = s.put p (k.enterFaulted p s.settings r) := by
  rw [State.put_enterFaulted_test, State.afterAbort_of_ne h]

theorem Local.enterFaulted_arrives (k : Local) (p : PortIx) (g : Settings) (r : FaultReason) :
    k.Arrives (k.enterFaulted p g r) .faulted none (some r) none :=
  (Local.transition_arrives (stages_fault r) (by decide) _ p g).tells.counted p ctrFaults

@[simp] theorem Local.enterFaulted_esu (k : Local) (p : PortIx) (g : Settings) (r : FaultReason) :
    (k.enterFaulted p g r).esu = k.undoneEsu p := by
  rw [Local.enterFaulted, Local.countPort_esu, Local.transition_esu, Local.undoneEsu_tell]

@[simp] theorem Local.enterFaulted_counters (k : Local) (p : PortIx) (g : Settings) (r : FaultReason) :
    (k.enterFaulted p g r).port.counters = k.port.counters.set ctrFaults (k.port.counters[ctrFaults].bump 65535 1) := by
  rw [Local.enterFaulted, Local.countPort_port, Port.bumped, Local.transition_counters_of_stages (stages_fault r)]
  rfl

@[simp] theorem Local.enterFaulted_qualify (k : Local) (p : PortIx) (g : Settings) (r : FaultReason) :
    (k.enterFaulted p g r).port.qualify = k.port.qualify.map fun q => { q with begun := false } := by
  simp [Local.enterFaulted, Port.bumped]

theorem Local.enterFaulted_kept (k : Local) (p : PortIx) (g : Settings) (r : FaultReason)
    (h : k.port.counters[ctrFaults].saturates 65535 1 = false) : (k.enterFaulted p g r).kept = k.kept := by
  rw [Local.enterFaulted, Local.countPort_kept, Port.saturation_of_not, List.append_nil, Local.transition_kept, Local.tell_kept]
  rw [Local.transition_counters_of_stages (stages_fault r)]
  exact h

theorem Local.enterFaulted_told (still : k.port.Still) (unasked : k.port.Unasked) (r : FaultReason) : (k.enterFaulted p g r).told =
    k.told ++ portReports p [.portFault r k.port.state k.port.neighbour,
      .portState k.port.state .faulted none (some r) k.port.cycle k.port.attempts] := by
  rw [Local.enterFaulted, Local.countPort_told,
    Local.transition_told_of_stages (k := k.tell (portReports p [.portFault r k.port.state k.port.neighbour])) (stages_fault r) still
      (.inr unasked), Local.tell_told, List.append_assoc]
  rfl

/-! ### PEER_WAIT (R89) -/

/-- The entry into PEER_WAIT, before its test. -/
def Local.enterPeerWait (k : Local) (p : PortIx) (g : Settings) : Local :=
  k.transition p g .peerWait fun x => { x with stageTimer := secondsTimer g.farEndWait }

/-- The way into AWAIT_SLOT, before the grant test. -/
def Local.toAwaitSlot (k : Local) (p : PortIx) (g : Settings) : Local :=
  if k.port.mode = .step then k.enterPaused p g .awaitSlot else k.enterAwaitSlot p g

theorem State.put_toAwaitSlot (h : k.port.mode = .step ∨ (k.enterAwaitSlot p s.settings).esu.Resting s.settings.sweepLimit) :
    (s.put p k).toAwaitSlot p = s.put p (k.toAwaitSlot p s.settings) := by
  rw [State.toAwaitSlot, State.put_port, Local.toAwaitSlot]
  split
  · exact State.put_enterPaused s p k .awaitSlot
  · exact State.put_enterAwaitSlot (h.resolve_left ‹_›)

theorem State.put_peerTest_ready (ready : k.port.peerReady = true) (state : k.port.state = .peerWait) :
    (s.put p k).peerTest p = (s.put p k).toAwaitSlot p := by
  rw [State.peerTest, State.put_port, if_pos ⟨state, ready⟩]

theorem State.put_peerTest_waits (waits : k.port.peerReady = false) : (s.put p k).peerTest p = s.put p k := by
  rw [State.peerTest, State.put_port, if_neg (by simp [waits])]

theorem State.put_enterPeerWait_waits (waits : (k.enterPeerWait p s.settings).port.peerReady = false) :
    (s.put p k).enterPeerWait p = s.put p (k.enterPeerWait p s.settings) := by
  rw [State.enterPeerWait, State.put_transition]
  exact State.put_peerTest_waits waits

theorem State.put_enterPeerWait_ready (ready : (k.enterPeerWait p s.settings).port.peerReady = true) :
    (s.put p k).enterPeerWait p = (s.put p (k.enterPeerWait p s.settings)).toAwaitSlot p := by
  rw [State.enterPeerWait, State.put_transition]
  exact State.put_peerTest_ready ready Local.transition_state

theorem Local.enterPeerWait_arrives (k : Local) (p : PortIx) (g : Settings) :
    k.Arrives (k.enterPeerWait p g) .peerWait none none (secondsTimer g.farEndWait) :=
  Local.transition_arrives (stages_timer _) (by decide) k p g

@[simp] theorem Local.enterPeerWait_esu (k : Local) (p : PortIx) (g : Settings) : (k.enterPeerWait p g).esu = k.undoneEsu p :=
  Local.transition_esu

@[simp] theorem Local.enterPeerWait_kept (k : Local) (p : PortIx) (g : Settings) : (k.enterPeerWait p g).kept = k.kept :=
  Local.transition_kept

@[simp] theorem Local.enterPeerWait_counters (k : Local) (p : PortIx) (g : Settings) :
    (k.enterPeerWait p g).port.counters = k.port.counters := Local.transition_counters_of_stages (stages_timer _) k p g _

theorem Local.enterPeerWait_told (still : k.port.Still) : (k.enterPeerWait p g).told =
    k.told ++ portReports p [.portState k.port.state .peerWait none none k.port.cycle k.port.attempts] :=
  Local.transition_told_of_stages (stages_timer _) still (.inl ⟨by decide, by decide⟩)

theorem Local.enterPeerWait_still (k : Local) (p : PortIx) (g : Settings) : (k.enterPeerWait p g).port.Still :=
  Local.transition_still (stages_timer _).kept.lanes (.inl ⟨by decide, by decide⟩)

theorem Local.enterPeerWait_behind (h : k.port.peerBehind) : (k.enterPeerWait p g).port.peerReady = false :=
  (h.from (Local.transition_farFrom (stages_timer _).kept)).waits

theorem Local.enterPeerWait_there (h : k.port.farThere [.wait, .qual, .ready]) (was : k.port.state ≠ .manual) :
    (k.enterPeerWait p g).port.peerReady = true :=
  (Local.transition_farHeld (stages_timer _).kept h was (by decide) (by decide)).ready (by decide)

/-- The ESU of a port that comes from neither TUNE nor AWAIT_SLOT into PEER_WAIT and on into the queue. -/
theorem Local.peerWait_awaitSlot_esu (h : k.port.state ≠ .tune) (h' : k.port.state ≠ .awaitSlot) :
    ((k.enterPeerWait p g).enterAwaitSlot p g).esu =
      { k.esu with queue := queueJoin k.esu.queue { port := p, cycle := k.port.cycle } } := by
  have state := (k.enterPeerWait_arrives p g).state
  rw [Local.enterAwaitSlot_esu, Local.undoneEsu_of_ne (by simp [state]) (by simp [state]), Local.enterPeerWait_esu,
    Local.undoneEsu_of_ne h h', (k.enterPeerWait_arrives p g).cycle]

/-- The way from PEER_WAIT on where the far end is there and no grant can be made. -/
theorem State.put_enterPeerWait_joins (there : k.port.farThere [.wait, .qual, .ready]) (was : k.port.state ≠ .manual)
    (tune : k.port.state ≠ .tune) (await : k.port.state ≠ .awaitSlot) (mode : k.port.mode ≠ .step)
    (full : s.settings.sweepLimit ≤ k.esu.busy) :
    (s.put p k).enterPeerWait p = s.put p ((k.enterPeerWait p s.settings).enterAwaitSlot p s.settings) := by
  have ready := Local.enterPeerWait_there (p := p) (g := s.settings) there was
  have mode' : (k.enterPeerWait p s.settings).port.mode ≠ .step := by rw [(k.enterPeerWait_arrives p _).course.mode]; exact mode
  rw [State.put_enterPeerWait_ready ready, State.put_toAwaitSlot (.inr ?_), Local.toAwaitSlot, if_neg mode']
  rw [Local.peerWait_awaitSlot_esu tune await]
  exact .inr (.inr full)

/-! ### QUALIFY (R134, R135) -/

/-- The entry into QUALIFY, before the window-start test. -/
def Local.enterQualify (k : Local) (p : PortIx) (g : Settings) : Local := k.transition p g .qualify (Port.qualifies g)

/-- The window begins, and the lane engines follow (R135). -/
def Local.startWindow (k : Local) : Local := k.modPort fun x => x.beginWindow.sync

theorem State.put_windowTest_begins (state : k.port.state = .qualify) (begun : k.port.windowBegun = false)
    (far : stageAtLeast .qual k.port.farStage = true) : (s.put p k).windowTest p = s.put p k.startWindow := by
  rw [State.windowTest, State.put_port, if_pos ⟨state, begun, far⟩, State.put_modPort, State.syncPort, State.put_modPort]
  rfl

theorem State.put_windowTest_waits (far : stageAtLeast .qual k.port.farStage = false) : (s.put p k).windowTest p = s.put p k := by
  rw [State.windowTest, State.put_port, if_neg fun all => by rw [far] at all; exact absurd all.2.2 (by decide)]

theorem Local.enterQualify_arrives (k : Local) (p : PortIx) (g : Settings) :
    k.Arrives (k.enterQualify p g) .qualify none none (secondsTimer g.farEndWait) :=
  Local.transition_arrives (stages_qualify g) (by decide) k p g

theorem Port.byLogical_congr (h : y.map = x.map) : y.byLogical = x.byLogical := by rw [Port.byLogical, h]; rfl

theorem Port.mappedLanes_congr (h : y.map = x.map) : y.mappedLanes = x.mappedLanes := by
  unfold Port.mappedLanes Port.mapped
  rw [h]

theorem Local.enterQualify_qualify (k : Local) (p : PortIx) (g : Settings) : (k.enterQualify p g).port.qualify =
    some { begun := false, entries := k.port.byLogical.map QualEntry.start } := by
  rw [Local.enterQualify, Local.transition_qualify, Port.qualifies, Port.byLogical_congr (x := k.port) (y := k.left p) k.left_map]

@[simp] theorem Local.enterQualify_esu (k : Local) (p : PortIx) (g : Settings) : (k.enterQualify p g).esu = k.undoneEsu p :=
  Local.transition_esu

@[simp] theorem Local.enterQualify_kept (k : Local) (p : PortIx) (g : Settings) : (k.enterQualify p g).kept = k.kept :=
  Local.transition_kept

@[simp] theorem Local.enterQualify_counters (k : Local) (p : PortIx) (g : Settings) :
    (k.enterQualify p g).port.counters = k.port.counters := Local.transition_counters_of_stages (stages_qualify g) k p g _

theorem Local.enterQualify_told (still : k.port.Still) : (k.enterQualify p g).told =
    k.told ++ portReports p [.portState k.port.state .qualify none none k.port.cycle k.port.attempts] :=
  Local.transition_told_of_stages (stages_qualify g) still (.inl ⟨by decide, by decide⟩)

theorem State.put_enterQualify_behind (h : k.port.farBehind [.disc, .wait]) :
    (s.put p k).enterQualify p = s.put p (k.enterQualify p s.settings) := by
  have behind : (k.enterQualify p s.settings).port.farBehind [.disc, .wait] :=
    h.from (Local.transition_farFrom (stages_qualify s.settings).kept)
  rw [State.enterQualify, State.put_transition]
  exact State.put_windowTest_waits (behind.low .qual (by decide))

theorem State.put_enterQualify_there (h : k.port.farThere [.qual, .ready]) (was : k.port.state ≠ .manual) :
    (s.put p k).enterQualify p = s.put p (k.enterQualify p s.settings).startWindow := by
  have there : (k.enterQualify p s.settings).port.farHeld [.qual, .ready] :=
    Local.transition_farHeld (stages_qualify s.settings).kept h was (by decide) (by decide)
  have qualify := k.enterQualify_qualify p s.settings
  rw [State.enterQualify, State.put_transition]
  refine State.put_windowTest_begins (k := k.enterQualify p s.settings) (k.enterQualify_arrives p s.settings).state ?_
    (there.high .qual (by decide))
  rw [Port.windowBegun, qualify, (k.enterQualify_arrives p s.settings).state]
  rfl

/-- A window that has begun changes nothing in the record but its mark and the timer. -/
theorem Local.startWindow_port (k : Local) : { k.startWindow.port with lanes := k.port.lanes } =
    { k.port with stageTimer := none, qualify := k.port.qualify.map fun q => { q with begun := true } } := rfl

theorem Local.startWindow_lane (k : Local) (l : LanePos) : k.startWindow.port.lane l =
    { k.port.lane l with
      gen := (k.port.lane l).nextGen (k.port.beginWindow.content l)
      block := if k.port.beginWindow.content l = .prbs then (k.port.lane l).block else none
      checker := (k.port.lane l).checker.follow (k.port.beginWindow.counts l) (k.port.beginWindow.nearEnd l)
        (k.port.beginWindow.content l) (k.port.beginWindow.lock l) (k.port.beginWindow.checkCorrection l) } := by
  show (k.port.beginWindow.sync).lane l = _
  rw [Port.sync, Port.mapLanes_lane]
  rfl

/-- In an open window the checker of a mapped lane counts (R22). -/
theorem Port.beginWindow_counts {q : QualRecord} (state : x.state = .qualify) (had : x.qualify = some q) (mapped : x.map[l].logical ≠ none) :
    x.beginWindow.counts l = true := by
  have begun : x.beginWindow.windowBegun = true := by simp [Port.windowBegun, Port.beginWindow, state, had]
  have here : x.beginWindow.mapped l = true := Option.isSome_iff_ne_none.2 mapped
  rw [Port.counts, begun, here]
  rfl

/-! ### HANDOVER (R92) -/

/-- The entry into HANDOVER. -/
def Local.enterHandover (k : Local) (p : PortIx) (g : Settings) : Local := k.transition p g .handover (Port.handsOver g)

theorem State.put_enterHandover (s : State) (p : PortIx) (k : Local) :
    (s.put p k).enterHandover p = s.put p (k.enterHandover p s.settings) := State.put_transition s p k .handover _

theorem Local.enterHandover_arrives (k : Local) (p : PortIx) (g : Settings) :
    k.Arrives (k.enterHandover p g) .handover none none (secondsTimer g.farEndWait) :=
  Local.transition_arrives (stages_handover g) (by decide) k p g

theorem Local.enterHandover_handover (k : Local) (p : PortIx) (g : Settings) : (k.enterHandover p g).port.handover =
    some { closing := false, entries := k.port.mappedLanes.map fun l => { pos := l, readyRun := 0, sent := 0 } } := by
  rw [Local.enterHandover, Local.transition_handover, Port.handsOver, Port.mappedLanes_congr (x := k.port) (y := k.left p) k.left_map]

@[simp] theorem Local.enterHandover_esu (k : Local) (p : PortIx) (g : Settings) : (k.enterHandover p g).esu = k.undoneEsu p :=
  Local.transition_esu

@[simp] theorem Local.enterHandover_kept (k : Local) (p : PortIx) (g : Settings) : (k.enterHandover p g).kept = k.kept :=
  Local.transition_kept

@[simp] theorem Local.enterHandover_counters (k : Local) (p : PortIx) (g : Settings) :
    (k.enterHandover p g).port.counters = k.port.counters := Local.transition_counters_of_stages (stages_handover g) k p g _

@[simp] theorem Local.enterHandover_qualify (k : Local) (p : PortIx) (g : Settings) : (k.enterHandover p g).port.qualify =
    k.port.qualify.map fun q => { q with begun := false } := by
  rw [Local.enterHandover, Local.transition_qualify]
  exact k.left_qualify

theorem Local.enterHandover_told (still : k.port.Still) : (k.enterHandover p g).told =
    k.told ++ portReports p [.portState k.port.state .handover none none k.port.cycle k.port.attempts] :=
  Local.transition_told_of_stages (stages_handover g) still (.inl ⟨by decide, by decide⟩)

/-! ### A failed attempt (R99) -/

/-- A failed attempt, before the grant test. -/
def Local.failedAttempt (k : Local) (p : PortIx) (g : Settings) (r : FaultReason) : Local :=
  if 2 ≤ k.port.attempts then (k.modPort fun x => { x with attempts := x.attempts + 1 }).enterFaulted p g r
  else (k.modPort fun x => { x with attempts := x.attempts + 1 }).toAwaitSlot p g

theorem State.put_failedAttempt (r : FaultReason) (tune : k.port.state ≠ .tune)
    (h : k.port.mode = .step ∨ 2 ≤ k.port.attempts ∨
      ((k.modPort fun x => { x with attempts := x.attempts + 1 }).enterAwaitSlot p s.settings).esu.Resting s.settings.sweepLimit) :
    (s.put p k).failedAttempt p r = s.put p (k.failedAttempt p s.settings r) := by
  have third : 3 ≤ ((s.put p (k.modPort fun x => { x with attempts := x.attempts + 1 })).port p).attempts ↔ 2 ≤ k.port.attempts := by
    rw [State.put_port]
    show 3 ≤ k.port.attempts + 1 ↔ _
    omega
  rw [State.failedAttempt, State.put_modPort]
  simp only [third]
  rw [Local.failedAttempt]
  split
  · exact State.put_enterFaulted r tune
  · refine State.put_toAwaitSlot ?_
    rcases h with step | many | rests
    · exact .inl step
    · exact absurd many ‹_›
    · exact .inr rests

end Sys2Proof.Machine
end

section
/-! SUPPORT. The entry into DISCOVER, with the tests made at the entry (R56, R59, R62, R95), and the aside of a port that waits for no
channel. -/

namespace Sys2Proof.Machine

variable {s u : State} {p : PortIx} {k j : Local} {l : LanePos} {g : Settings} {n : Snapshot} {x y : Port} {z : PortState}
  {f : Port → Port}

/-! ### The tests -/

theorem Port.discoveryDone_of_unusable (inside : l.val < 4) (h : x.usable l = false) : x.discoveryDone = false := by
  rw [Port.discoveryDone, Bool.and_eq_false_iff, List.all_eq_false]
  have few := x.four_le_L
  exact .inl ⟨l, mem_allLanes l, by simp only [h, Bool.or_false, decide_eq_true_eq]; omega⟩

theorem Port.usable_of_not_stable (h : (x.lane l).rx.state ≠ .stable) : x.usable l = false := by simp [Port.usable, h]

theorem Port.heardLock_eq_true : x.heardLock = true ↔
    ∃ l, (x.lane l).control.excluded = false ∧ ((x.lane l).rx.state = .locked ∨ (x.lane l).rx.state = .stable) := by
  simp [Port.heardLock, mem_allLanes]

theorem State.discoveryTest_of_not (h : (u.port p).discoveryDone = false) : u.discoveryTest p = u := by
  rw [State.discoveryTest, if_neg (by simp [h])]

theorem State.darkTest_of_not (state : (u.port p).state ≠ .dark) (h : (u.port p).darkSnap = false ∨ (u.port p).heardLock = false) :
    u.darkTest p = u := by
  rw [State.darkTest, if_neg]
  rintro ⟨dark | ⟨_, dark⟩, heard⟩
  · exact state dark
  · rcases h with cabled | silent
    · rw [cabled] at dark; cases dark
    · rw [silent] at heard; cases heard

/-! ### A port that waits for no channel is left alone by grants -/

theorem Local.undoneEsu_queue (k : Local) (p : PortIx) : ∀ e ∈ (k.undoneEsu p).queue, e ∈ k.esu.queue := by
  intro e he
  by_cases tune : k.port.state = .tune
  · rw [Local.undoneEsu_of_tune tune] at he
    cases found : k.sweepOf <;> rw [found] at he <;> exact he
  · by_cases await : k.port.state = .awaitSlot
    · rw [Local.undoneEsu_of_awaitSlot await] at he
      exact (List.mem_filter.1 he).1
    · rwa [Local.undoneEsu_of_ne tune await] at he

theorem State.grant_aside (h : ∀ e ∈ u.esu.queue, e.port ≠ p) :
    u.grant.port p = u.port p ∧ ∀ e ∈ u.grant.esu.queue, e.port ≠ p := by
  unfold State.grant
  split
  · split
    · next e xs c queue free =>
      have other : e.port ≠ p := h e (by simp [queue])
      have granted := State.put_grantTo u e.port (u.whole e.port) c
      rw [State.put_whole] at granted
      rw [granted]
      refine ⟨State.put_port_of_ne other.symm, fun d hd => h d ?_⟩
      rw [State.put_esu, Local.granted, Local.transition_esu] at hd
      exact List.mem_of_mem_tail (Local.undoneEsu_queue _ _ d hd)
    · exact ⟨rfl, h⟩
  · exact ⟨rfl, h⟩

theorem State.grantTest_aside (h : ∀ e ∈ u.esu.queue, e.port ≠ p) : u.grantTest.port p = u.port p := by
  have one := State.grant_aside h
  have two := State.grant_aside one.2
  have three := State.grant_aside two.2
  have four := State.grant_aside three.2
  exact four.1.trans (three.1.trans (two.1.trans one.1))

/-- A port in TUNE waits in no queue (R119). -/
theorem State.slots.aside (h : s.slots) (tune : (s.port p).state = .tune) : ∀ e ∈ s.esu.queue, e.port ≠ p := by
  rintro e he rfl
  have waits := (h.queued e.port).2 ⟨e, he, rfl⟩
  rw [tune] at waits
  cases waits

/-- The ESU of a port that leaves TUNE (R131). -/
theorem Local.undoneEsu_of_channel {c : ChanIx} (slots : s.slots) (tune : (s.port p).state = .tune) (channel : (s.port p).channel = some c)
    (state : k.port.state = .tune) (same : k.port.channel = (s.port p).channel) (esu : k.esu = s.esu) :
    k.undoneEsu p = s.esu.free c := by
  obtain ⟨w, busy, _⟩ := (slots.tuned p c).1 ⟨tune, channel⟩
  rw [Local.undoneEsu_of_tune state, Local.sweepOf, same, channel, Option.bind_some, esu, busy]
  rfl

/-! ### The entry -/

/-- The entry into DISCOVER, before its tests. -/
def Local.enterDiscover (k : Local) (p : PortIx) (g : Settings) (n : Snapshot) : Local :=
  k.transition p g .discover fun x => x.toDiscover n g

/-- The lanes and the plan let a port stay in DISCOVER at its entry: a lane is still not usable, and no lock contradicts a dark port. -/
structure Port.Searching (x : Port) (n : Snapshot) : Prop where
  unfinished : x.discoveryDone = false
  clear : n.entry.kind ≠ .unused ∨ x.heardLock = false

@[simp] theorem Local.enterDiscover_state : (k.enterDiscover p g n).port.state = .discover := Local.transition_state

@[simp] theorem Local.enterDiscover_esu : (k.enterDiscover p g n).esu = k.undoneEsu p := Local.transition_esu

@[simp] theorem Local.enterDiscover_kept : (k.enterDiscover p g n).kept = k.kept := Local.transition_kept

theorem Local.enterDiscover_snapshot : (k.enterDiscover p g n).port.snapshot = some n := Local.transition_snapshot

theorem Port.darkSnap_of (h : x.snapshot = some n) : x.darkSnap = decide (n.entry.kind = .unused) := by
  rw [Port.darkSnap, h, Option.any_some]

theorem Local.enterDiscover_settles (h : (k.enterDiscover p g n).port.Searching n) (port : u.port p = (k.enterDiscover p g n).port) :
    (u.discoveryTest p).darkTest p = u := by
  rw [State.discoveryTest_of_not (by rw [port]; exact h.unfinished),
    State.darkTest_of_not (by rw [port, Local.enterDiscover_state]; decide)]
  rw [port, Port.darkSnap_of Local.enterDiscover_snapshot, decide_eq_false_iff_not]
  exact h.clear

theorem State.put_enterDiscover (tune : k.port.state ≠ .tune)
    (h : (k.enterDiscover p s.settings (s.plan.resolve p)).port.Searching (s.plan.resolve p)) :
    (s.put p k).enterDiscover p = s.put p (k.enterDiscover p s.settings (s.plan.resolve p)) := by
  rw [State.enterDiscover, State.put_port, State.put_plan, State.put_settings, State.put_transition, State.afterAbort_of_ne tune]
  exact Local.enterDiscover_settles h (State.put_port _ _ _)

theorem State.put_enterDiscover_tune (tune : k.port.state = .tune) (aside : ∀ e ∈ k.esu.queue, e.port ≠ p)
    (h : (k.enterDiscover p s.settings (s.plan.resolve p)).port.Searching (s.plan.resolve p)) :
    (s.put p k).enterDiscover p = (s.put p (k.enterDiscover p s.settings (s.plan.resolve p))).grantTest := by
  rw [State.enterDiscover, State.put_port, State.put_plan, State.put_settings, State.put_transition, State.afterAbort, if_pos tune]
  refine Local.enterDiscover_settles h ?_
  rw [State.grantTest_aside, State.put_port]
  · rfl
  · intro e he
    rw [State.put_esu, Local.transition_esu] at he
    exact aside e (Local.undoneEsu_queue _ _ e he)

theorem lanesKept_toDiscover (n : Snapshot) (g : Settings) : LanesKept fun x => x.toDiscover n g := fun _ _ => rfl

/-- The record of a port that has come into DISCOVER. -/
theorem Local.enterDiscover_rediscovered
    (timer : (k.enterDiscover p g n).port.stageTimer = some { remaining := g.discovery * 1000, halted := false }) :
    k.port.rediscovered (k.enterDiscover p g n).port n g where
  state := by simp
  snapshot := Local.enterDiscover_snapshot
  stageTimer := timer
  found := by simp [Local.enterDiscover, Port.toDiscover]
  map l := by
    rw [Local.enterDiscover, Local.transition_map]
    exact Vector.getElem_replicate l.isLt
  stages := by simp [Local.enterDiscover, Port.toDiscover]
  counts := by simp [Local.enterDiscover, Port.toDiscover]
  kept := by simp [Local.enterDiscover, Port.toDiscover]

theorem Local.enterDiscover_stageTimer (h : k.port.Unasked) :
    (k.enterDiscover p g n).port.stageTimer = some { remaining := g.discovery * 1000, halted := false } :=
  Local.transition_stageTimer_of_quiet (lanesKept_toDiscover n g) h

theorem Local.enterDiscover_told (still : k.port.Still) (unasked : k.port.Unasked) : (k.enterDiscover p g n).told =
    k.told ++ portReports p [.portState k.port.state .discover none none .initial 0] := by
  rw [Local.enterDiscover, Local.transition_told (lanesKept_toDiscover n g) still (.inr unasked)]
  simp [Port.toDiscover, portReports]

/-- A port that comes into DISCOVER stays there while one of its first four lanes is not STABLE. -/
theorem Local.enterDiscover_searching (inside : l.val < 4) (unstable : (k.port.lane l).rx.state ≠ .stable)
    (h : n.entry.kind ≠ .unused ∨ ∀ m, (k.port.lane m).rx.state ≠ .locked ∧ (k.port.lane m).rx.state ≠ .stable) :
    (k.enterDiscover p g n).port.Searching n := by
  have kept : ∀ m, ((k.enterDiscover p g n).port.lane m).rx.state = .locked ∨ ((k.enterDiscover p g n).port.lane m).rx.state = .stable →
      ((k.enterDiscover p g n).port.lane m).rx = (k.port.lane m).rx :=
    fun m => Local.transition_rx_of_locked (lanesKept_toDiscover n g)
  refine ⟨Port.discoveryDone_of_unusable inside (Port.usable_of_not_stable fun stable => unstable ?_), h.imp_right fun quiet => ?_⟩
  · rw [← kept l (.inr stable)]; exact stable
  · rw [Bool.eq_false_iff, Ne, Port.heardLock_eq_true]
    rintro ⟨m, _, heard⟩
    rw [kept m heard] at heard
    exact heard.elim (quiet m).1 (quiet m).2

/-- A port that comes into DISCOVER stays there while one of its first four lanes is excluded, one-way or not STABLE. -/
theorem Local.enterDiscover_unusable (inside : l.val < 4)
    (h : (k.port.lane l).control.excluded = true ∨ (k.port.lane l).rx.state ≠ .stable ∨ (k.port.lane l).rx.oneWay = true)
    (kind : n.entry.kind ≠ .unused) : (k.enterDiscover p g n).port.Searching n := by
  refine ⟨Port.discoveryDone_of_unusable inside ?_, .inl kind⟩
  by_cases stable : ((k.enterDiscover p g n).port.lane l).rx.state = .stable
  · have kept : ((k.enterDiscover p g n).port.lane l).rx = (k.port.lane l).rx :=
      Local.transition_rx_of_locked (lanesKept_toDiscover n g) (.inr stable)
    have control : ((k.enterDiscover p g n).port.lane l).control = (k.port.lane l).control :=
      Local.transition_control.trans Local.left_control
    rw [Port.usable, kept, control]
    rw [kept] at stable
    rcases h with excluded | other | oneWay
    · simp [excluded]
    · exact absurd stable other
    · simp [oneWay]
  · exact Port.usable_of_not_stable stable

/-- A lane that listened under the part's hand, at one of the first four positions, keeps its receive record. -/
theorem Local.enterDiscover_rx (inside : l.val < 4) (manual : k.port.state ≠ .manual) (owner : (k.port.lane l).owner = .part)
    (on : (k.port.lane l).rx.state ≠ .off) : ((k.enterDiscover p g n).port.lane l).rx = (k.port.lane l).rx := by
  refine Local.transition_rx_of_on (lanesKept_toDiscover n g) (Port.nearEnd_of_not_manual manual l) owner on
    (Port.listens_of_lt nofun (Nat.lt_of_lt_of_le inside (Port.four_le_L _)))

/-! ### From IDLE, where no lane listened -/

/-- A lane that did not listen, as it stands after leaving a state and being set to listen or not: SILENT or OFF, and with no request
seen. -/
theorem Port.listen_of_off (manual : x.state ≠ .manual) (off : (x.lane l).rx.state = .off) (on : Bool) :
    ((x.undoneLane l).listen on).rx.state = (if on then .silent else .off) ∧ ((x.undoneLane l).listen on).rx.loopSeen = false := by
  have near := Port.nearEnd_of_not_manual manual l
  cases on with
  | false => exact ⟨rfl, rfl⟩
  | true =>
    rcases x.undoneLane_rx l with same | ⟨silent, _, deaf⟩
    · rw [Lane.listen_rx_of_begin (by rw [same]; exact off)]
      exact ⟨rfl, rfl⟩
    · rw [Lane.listen_rx_of_on (by rw [silent]; decide)]
      exact ⟨silent, deaf⟩

theorem Local.arrive_rx (lanes : LanesKept f) (k : Local) (p : PortIx) (z : PortState) (l : LanePos) :
    ((k.arrive p z f).port.lane l).rx = ((k.port.undoneLane l).listen (Port.listens { f (k.left p) with state := z } l)).rx := by
  have line := k.left_lane p l
  rw [Local.arrive_lane, lanes]
  generalize Port.listens { f (k.left p) with state := z } l = on
  unfold Lane.listen
  rw [line.rx]
  split_ifs
  · rfl
  · rfl
  · exact line.rx

/-- A transition after which no lane has seen a loop request moves no timer but its own. -/
theorem Local.transition_stageTimer_of_deaf (lanes : LanesKept f)
    (deaf : ∀ l, ((k.arrive p z f).port.lane l).rx.loopSeen = false) : (k.transition p g z f).port.stageTimer = (f (k.left p)).stageTimer := by
  have off : ∀ l, ((k.arrive p z f).port.lane l).autoLoop = false := fun l => by
    rw [Local.arrive_lane, (Lane.listen_line _ _).2.2.2.2.2.2.2.2, lanes]
    exact k.left_autoLoop p l
  have settled := Local.judgeLoops_of_settled (p := p) (g := g) (k := (k.arrive p z f).tell [k.stateReport p z f]) fun l =>
    (Port.loopHolds_eq_false (.inr (deaf l))).trans (off l).symm
  rw [Local.transition, settled]
  rfl

theorem Local.transition_rx_state (lanes : LanesKept f) (k : Local) (p : PortIx) (g : Settings) (z : PortState) (l : LanePos) :
    ((k.transition p g z f).port.lane l).rx =
      ((k.port.undoneLane l).listen (Port.listens { f (k.left p) with state := z } l)).rx := by
  rw [← Local.arrive_rx lanes, Local.arrive_lane, Local.transition_rx]

end Sys2Proof.Machine
end

section
/-! SUPPORT. PORT_START (R79, R80). -/

namespace Sys2Proof.Machine

variable {s u : State} {p : PortIx} {k j : Local} {l : LanePos} {m : Mode} {port mode : Byte}

/-! ### A request that ends in the operations of one port -/

/-- A command that answers a request and ends in what one port's operations change. -/
theorem became_of_accept {c i : Instr} {body : List Byte} (runs : exec c s = (u.accept i body).done) (ends : u = s.put p k) :
    ∃ t, exec c s = .next t ∧ Became p (s.accept i body) k t := by
  rw [runs, ends]
  exact State.put_accept_done s p k i body

/-- A command that ends in what one port's operations change. -/
theorem became_of_done {c : Instr} (runs : exec c s = u.done) (ends : u = s.put p k) : ∃ t, exec c s = .next t ∧ Became p s k t := by
  rw [runs, ends]
  exact State.put_done s p k

/-! ### What the request names -/

theorem modeOf_eq_none {b : Byte} (h : 4 ≤ b.toNat) : modeOf b = none := named_eq_none h

theorem modeOf_code (m : Mode) : modeOf m.code = some m := by cases m <;> rfl

theorem startTarget_eq_none (h : 24 ≤ port.toNat ∨ 4 ≤ mode.toNat) : startTarget port mode = none := by
  rcases h with h | h
  · simp [startTarget, portOf_eq_none h]
  · simp [startTarget, modeOf_eq_none h]

theorem startTarget_eq_some (h : port.toNat = p.val) (h' : mode = m.code) : startTarget port mode = some (p, m) := by
  simp [startTarget, portOf_eq_some h, h', modeOf_code]

theorem PortState.startable_iff (z : PortState) : z.startable = true ↔ z ∈ [PortState.idle, .faulted, .dark, .verified] := by
  cases z <;> decide

theorem exec_portStart_of_none (h : startTarget port mode = none) :
    exec (.portStart port mode) s = .next (s.replied (.portStart port mode) .badArgument []) := by
  show execPortStart port mode s = _
  rw [execPortStart, h, State.opened_refuse_done]

theorem exec_portStart_of_busy (h : startTarget port mode = some (p, m)) (busy : (s.port p).state.startable = false) :
    exec (.portStart port mode) s = .next (s.replied (.portStart port mode) .wrongState []) := by
  show execPortStart port mode s = _
  rw [execPortStart, h]
  simp only [busy, if_true, State.opened_refuse_done]

theorem exec_portStart_of_nameless (h : startTarget port mode = some (p, m)) (free : (s.port p).state.startable = true)
    (nameless : s.identity = none) : exec (.portStart port mode) s = .next (s.replied (.portStart port mode) .noIdentity []) := by
  show execPortStart port mode s = _
  rw [execPortStart, h]
  simp only [free, nameless, if_true, Bool.true_eq_false, if_false, State.opened_refuse_done]

/-- The port as a start that is taken leaves it, before it moves (R79, R100). -/
def State.startedPort (s : State) (p : PortIx) (m : Mode) : Local := (s.held p).modPort (·.started m)

theorem exec_portStart_of_taken (h : startTarget port mode = some (p, m)) (free : (s.port p).state.startable = true)
    (named : s.identity ≠ none) : exec (.portStart port mode) s =
      (((s.put p (s.startedPort p m)).startInto p m).accept (.portStart port mode) []).done := by
  show execPortStart port mode s = _
  rw [execPortStart, h]
  simp only [free, named, Bool.true_eq_false, if_false]
  rw [State.opened_eq_put, State.put_modPort]
  rfl

/-! ### Where the start leads -/

theorem exec_portStart_manual (h : startTarget port mode = some (p, .manual)) (free : (s.port p).state.startable = true)
    (named : s.identity ≠ none) : ∃ t, exec (.portStart port mode) s = .next t ∧
      Became p (s.accept (.portStart port mode) []) ((s.startedPort p .manual).transition p s.settings .manual id) t :=
  became_of_accept (exec_portStart_of_taken h free named) (State.put_transition s p _ .manual id)

theorem exec_portStart_discover (h : startTarget port mode = some (p, m)) (free : (s.port p).state.startable = true)
    (named : s.identity ≠ none) (manual : m ≠ .manual) (again : (s.port p).state = .verified → m = .verify)
    (searching : ((s.startedPort p m).enterDiscover p s.settings (s.plan.resolve p)).port.Searching (s.plan.resolve p)) :
    ∃ t, exec (.portStart port mode) s = .next t ∧ Became p (s.accept (.portStart port mode) [])
      ((s.startedPort p m).enterDiscover p s.settings (s.plan.resolve p)) t := by
  refine became_of_accept (exec_portStart_of_taken h free named) ?_
  have tune : (s.startedPort p m).port.state ≠ .tune := by
    show (s.port p).state ≠ .tune
    intro tune
    rw [tune] at free; cases free
  have into : (s.put p (s.startedPort p m)).startInto p m = (s.put p (s.startedPort p m)).enterDiscover p := by
    have state : ((s.put p (s.startedPort p m)).port p).state = (s.port p).state := by rw [State.put_port]; rfl
    unfold State.startInto
    rw [state]
    cases m with
    | manual => exact absurd rfl manual
    | verify => rfl
    | auto => exact if_neg fun verified => by cases again verified
    | step => exact if_neg fun verified => by cases again verified
  rw [into, State.put_enterDiscover tune searching]

theorem State.startInto_verified (state : (s.port p).state = .verified) (h : m = .auto ∨ m = .step) :
    (s.put p (s.startedPort p m)).startInto p m = (s.put p (s.startedPort p m)).toPeerWait p := by
  have state' : ((s.put p (s.startedPort p m)).port p).state = .verified := by rw [State.put_port]; exact state
  rcases h with rfl | rfl <;> exact if_pos state'

theorem exec_portStart_paused (h : startTarget port mode = some (p, .step)) (state : (s.port p).state = .verified)
    (named : s.identity ≠ none) : ∃ t, exec (.portStart port mode) s = .next t ∧ Became p (s.accept (.portStart port mode) [])
      ((s.startedPort p .step).enterPaused p s.settings .peerWait) t := by
  refine became_of_accept (exec_portStart_of_taken h (by rw [state]; rfl) named) ?_
  have step : ((s.put p (s.startedPort p .step)).port p).mode = .step := by rw [State.put_port]; rfl
  rw [State.startInto_verified state (.inr rfl), State.toPeerWait, if_pos step, State.put_enterPaused]

theorem State.put_toPeerWait_of_auto (h : k.port.mode ≠ .step) : (s.put p k).toPeerWait p = (s.put p k).enterPeerWait p := by
  rw [State.toPeerWait, State.put_port, if_neg h]

theorem exec_portStart_waits (h : startTarget port mode = some (p, .auto)) (state : (s.port p).state = .verified)
    (named : s.identity ≠ none) (behind : (s.port p).peerBehind) : ∃ t, exec (.portStart port mode) s = .next t ∧
      Became p (s.accept (.portStart port mode) []) ((s.startedPort p .auto).enterPeerWait p s.settings) t := by
  refine became_of_accept (exec_portStart_of_taken h (by rw [state]; rfl) named) ?_
  have behind' : (s.startedPort p .auto).port.peerBehind := behind
  rw [State.startInto_verified state (.inl rfl), State.put_toPeerWait_of_auto (show Mode.auto ≠ .step by decide),
    State.put_enterPeerWait_waits (Local.enterPeerWait_behind behind')]

theorem exec_portStart_joins (h : startTarget port mode = some (p, .auto)) (state : (s.port p).state = .verified)
    (named : s.identity ≠ none) (there : (s.port p).farThere [.wait, .qual, .ready]) (full : s.noGrant) :
    ∃ t, exec (.portStart port mode) s = .next t ∧ Became p (s.accept (.portStart port mode) [])
      (((s.startedPort p .auto).enterPeerWait p s.settings).enterAwaitSlot p s.settings) t := by
  refine became_of_accept (exec_portStart_of_taken h (by rw [state]; rfl) named) ?_
  have state' : (s.startedPort p .auto).port.state = .verified := state
  have there' : (s.startedPort p .auto).port.farThere [.wait, .qual, .ready] := there
  rw [State.startInto_verified state (.inl rfl), State.put_toPeerWait_of_auto (show Mode.auto ≠ .step by decide),
    State.put_enterPeerWait_joins there' (by rw [state']; decide) (by rw [state']; decide) (by rw [state']; decide) (show Mode.auto ≠ .step by decide) full]

/-- The lanes of a port in DISCOVER listen up to its lane count (R6, R38). -/
theorem Port.listens_of_discover {x : Port} {n : Snapshot} (state : x.state = .discover) (snapshot : x.snapshot = some n) (l : LanePos) :
    x.listens l = decide (l.val < if n.entry.kind ≠ .unused ∧ n.entry.count = .four then 4 else 8) := by
  have count : x.L = if n.entry.kind ≠ .unused ∧ n.entry.count = .four then 4 else 8 := by
    rw [Port.L, Port.laneCount, if_neg (by simp [state]), snapshot, LaneCount.toNat_eq_ite]
    by_cases unused : n.entry.kind = .unused <;> simp [unused]
  rw [Port.listens, state, ← count]

/-- Settles O40: the request is judged in order, and each start that is taken is one way into MANUAL, DISCOVER, PAUSED, PEER_WAIT or
AWAIT_SLOT. -/
theorem portStartEntersByMode : Obligations.PortStartEntersByMode := by
  intro port mode s
  refine ⟨fun outside => exec_portStart_of_none (startTarget_eq_none outside), ?_⟩
  intro p m hp hm x
  have target := startTarget_eq_some hp hm
  refine ⟨fun busy => exec_portStart_of_busy target ?_, fun free nameless => ?_, fun free named => ?_⟩
  · rw [Bool.eq_false_iff, Ne, PortState.startable_iff]; exact busy
  · exact exec_portStart_of_nameless target ((PortState.startable_iff _).2 free) nameless
  have startable := (PortState.startable_iff _).2 free
  have tune : (s.port p).state ≠ .tune := fun tune => by rw [tune] at startable; cases startable
  have await : (s.port p).state ≠ .awaitSlot := fun await => by rw [await] at startable; cases startable
  have manual : (s.port p).state ≠ .manual := fun manual => by rw [manual] at startable; cases startable
  refine ⟨?_, ?_, ?_, ?_, ?_, ?_⟩
  · rintro rfl
    obtain ⟨t, runs, became⟩ := exec_portStart_manual target startable named
    have arrives := Local.transition_arrives (z := .manual) stages_id (by decide) (s.startedPort p .manual) p s.settings
    refine ⟨t, runs, became.toOnlyPort, ?_⟩
    rw [became.port]
    refine ⟨arrives.state, arrives.course.mode, arrives.attempts, arrives.course.unstable, arrives.cycle, arrives.course.snapshot,
      arrives.course.map, arrives.course.neighbour, arrives.fault, arrives.stageTimer,
      Local.transition_counters_of_stages stages_id _ p _ _, fun l => ?_, fun still => ?_⟩
    · rw [became.lane, Local.transition_rx]
      refine ⟨?_, Local.transition_control.trans Local.left_control, arrives.eq l⟩
      rw [show Port.listens { (id ((s.startedPort p .manual).left p) : Port) with state := .manual } l = true from rfl]
      by_cases off : ((id ((s.startedPort p .manual).left p) : Port).lane l).rx.state = .off
      · rw [Lane.listen_rx_of_begin off]; decide
      · rw [Lane.listen_rx_of_on off]; exact off
    · rw [became.reports, Local.transition_kept, Local.transition_told_of_stages stages_id (k := s.startedPort p .manual) still
        (.inl ⟨by decide, by decide⟩)]
      rfl
  · intro other idle off
    have deaf : ∀ l, (((s.startedPort p m).arrive p .discover fun x => x.toDiscover (s.plan.resolve p) s.settings).port.lane l).rx.loopSeen
        = false := fun l => by
      rw [Local.arrive_rx (lanesKept_toDiscover _ _)]
      exact (Port.listen_of_off manual (off l) _).2
    have state : ∀ l, (((s.startedPort p m).enterDiscover p s.settings (s.plan.resolve p)).port.lane l).rx.state =
        if (s.plan.resolve p).entry.kind ≠ .unused ∧ (s.plan.resolve p).entry.count = .four ∧ 4 ≤ l.val then .off else .silent :=
      fun l => by
        rw [Local.enterDiscover, Local.transition_rx_state (lanesKept_toDiscover _ _),
          (Port.listen_of_off (x := (s.startedPort p m).port) manual (off l) _).1,
          Port.listens_of_discover rfl rfl]
        have small := l.isLt
        by_cases four : (s.plan.resolve p).entry.kind ≠ .unused ∧ (s.plan.resolve p).entry.count = .four
        · by_cases low : l.val < 4
          · rw [if_pos four, if_pos (decide_eq_true low), if_neg fun all => absurd all.2.2 (Nat.not_le.2 low)]
          · rw [if_pos four, if_neg (by simpa using low), if_pos ⟨four.1, four.2, Nat.not_lt.1 low⟩]
        · rw [if_neg four, if_pos (decide_eq_true small), if_neg fun all => four ⟨all.1, all.2.1⟩]
    have searching : ((s.startedPort p m).enterDiscover p s.settings (s.plan.resolve p)).port.Searching (s.plan.resolve p) := by
      refine Local.enterDiscover_searching (l := 0) (by decide) ?_ (.inr fun l => ?_)
      · show (s.lane p 0).rx.state ≠ _; rw [off]; decide
      · show (s.lane p l).rx.state ≠ _ ∧ (s.lane p l).rx.state ≠ _; rw [off]; decide
    obtain ⟨t, runs, became⟩ := exec_portStart_discover target startable named other (fun verified => by
      rw [show (s.port p).state = .idle from idle] at verified; cases verified) searching
    have timer := Local.transition_stageTimer_of_deaf (g := s.settings) (lanesKept_toDiscover _ _) deaf
    have record := Local.enterDiscover_rediscovered timer
    refine ⟨t, runs, became.toOnlyPort, ?_⟩
    rw [became.port]
    refine ⟨record.state, record.kept.1, record.counts.1, record.kept.2.1, record.counts.2, record.snapshot, record.stageTimer,
      record.found.1, record.found.2.1, record.found.2.2.1, record.found.2.2.2.1, record.found.2.2.2.2, record.stages.2.2.2.2.2,
      record.kept.2.2, record.map, fun l => ?_⟩
    rw [became.lane]
    split_ifs with h
    · exact (state l).trans (if_pos h)
    · exact (state l).trans (if_neg h)
  · rintro other whence ⟨l, inside, unstable⟩ clear quiet
    have searching : ((s.startedPort p m).enterDiscover p s.settings (s.plan.resolve p)).port.Searching (s.plan.resolve p) :=
      Local.enterDiscover_searching inside unstable clear
    obtain ⟨t, runs, became⟩ := exec_portStart_discover target startable named other (fun verified => by
      rcases whence with faulted | dark | ⟨_, verify⟩
      · rw [show (s.port p).state = .faulted from faulted] at verified; cases verified
      · rw [show (s.port p).state = .dark from dark] at verified; cases verified
      · exact verify) searching
    have still : (s.startedPort p m).port.Still := fun l => (quiet l).1
    have unasked : (s.startedPort p m).port.Unasked := fun l => (quiet l).2
    have record := Local.enterDiscover_rediscovered (n := s.plan.resolve p) (Local.enterDiscover_stageTimer (p := p) (g := s.settings) unasked)
    refine ⟨t, runs, became.toOnlyPort, ?_, ?_, fun l inside owner on => ?_, ?_⟩
    · rw [became.esu, Local.enterDiscover_esu]
      exact Local.undoneEsu_of_ne tune await
    · rw [became.port]
      exact ⟨record.state, record.snapshot, record.stageTimer, record.found, record.map, record.stages, record.counts, record.kept⟩
    · rw [became.lane, Local.enterDiscover_rx (k := s.startedPort p m) inside manual owner on]
      rfl
    · rw [became.reports, Local.enterDiscover_told still unasked, Local.enterDiscover_kept]
      rfl
  · rintro rfl verified
    obtain ⟨t, runs, became⟩ := exec_portStart_paused target verified named
    have arrives := (s.startedPort p .step).enterPaused_arrives p s.settings .peerWait
    refine ⟨t, runs, became.toOnlyPort, ?_⟩
    rw [became.port]
    exact ⟨arrives.state, arrives.pending, arrives.course.mode, arrives.attempts, arrives.course.unstable, arrives.course.snapshot,
      arrives.course.neighbour, arrives.course.verdict, arrives.course.accepted, arrives.course.map, arrives.course.mapClass,
      arrives.course.width⟩
  · rintro rfl verified behind
    obtain ⟨t, runs, became⟩ := exec_portStart_waits target verified named behind
    have arrives := (s.startedPort p .auto).enterPeerWait_arrives p s.settings
    refine ⟨t, runs, became.toOnlyPort, ?_⟩
    rw [became.port]
    exact ⟨arrives.state, arrives.course.mode, arrives.attempts, arrives.course.unstable, arrives.stageTimer, arrives.course.snapshot,
      arrives.course.neighbour, arrives.course.verdict, arrives.course.accepted, arrives.course.map, arrives.course.mapClass,
      arrives.course.width⟩
  · rintro rfl verified there full
    obtain ⟨t, runs, became⟩ := exec_portStart_joins target verified named there full
    have waits := (s.startedPort p .auto).enterPeerWait_arrives p s.settings
    have joins := Local.enterAwaitSlot_arrives ((s.startedPort p .auto).enterPeerWait p s.settings) p s.settings
    have arrives := waits.trans joins
    have counters := Local.enterAwaitSlot_counters ((s.startedPort p .auto).enterPeerWait p s.settings) p s.settings
    rw [waits.cycle, Local.enterPeerWait_counters] at counters
    refine ⟨t, runs, became.toOnlyPort, ?_⟩
    rw [became.port]
    have course := arrives.course
    refine ⟨⟨course.mode, course.snapshot, course.neighbour, course.verdict, course.accepted, course.map, course.mapClass, course.width,
      course.unstable⟩, arrives.state, arrives.attempts, arrives.cycle, arrives.stageTimer, ?_, counters, fun still fits => ?_⟩
    · rw [became.esu, Local.peerWait_awaitSlot_esu tune await]
      rfl
    · rw [became.reports, Local.enterAwaitSlot_told (Local.enterPeerWait_still _ p _),
        Local.enterAwaitSlot_kept _ _ _ (by rw [Local.enterPeerWait_counters]; exact fits), Local.enterPeerWait_kept,
        Local.enterPeerWait_told (k := s.startedPort p .auto) still, waits.state, waits.cycle, waits.attempts,
        show (s.startedPort p .auto).port.state = .verified from verified]
      rfl

end Sys2Proof.Machine
end

section
/-! SUPPORT. PORT_STEP (R82), CONSULT_ANSWER (R109 to R111) and LANE_INJECT (R31). -/

namespace Sys2Proof.Machine

variable {s u : State} {p : PortIx} {k j : Local} {l : LanePos} {port : Byte} {st : PendingStage}

/-! ### PORT_STEP -/

theorem exec_portStep_of_none (h : 24 ≤ port.toNat) :
    exec (.portStep port) s = .next (s.replied (.portStep port) .badArgument []) := by
  show execPortStep port s = _
  rw [execPortStep, portOf_eq_none h, State.opened_refuse_done]

theorem exec_portStep_of_other (h : port.toNat = p.val) (paused : (s.port p).state ≠ .paused) (verified : (s.port p).state ≠ .verified) :
    exec (.portStep port) s = .next (s.replied (.portStep port) .wrongState []) := by
  show execPortStep port s = _
  rw [execPortStep, portOf_eq_some h]
  simp only [if_neg paused, if_neg verified, State.opened_refuse_done]

theorem exec_portStep_of_paused (h : port.toNat = p.val) (paused : (s.port p).state = .paused)
    (pending : (s.port p).pending = some st) : exec (.portStep port) s =
      (((s.put p (s.held p)).stepInto p (some st)).accept (.portStep port) []).done := by
  show execPortStep port s = _
  rw [execPortStep, portOf_eq_some h]
  simp only [if_pos paused, pending]
  rw [State.opened_eq_put]

/-- A verified port taken on in AUTO mode (R82). -/
def State.autoPort (s : State) (p : PortIx) : Local := (s.held p).modPort fun x => { x with mode := .auto }

theorem exec_portStep_of_verified (h : port.toNat = p.val) (verified : (s.port p).state = .verified) : exec (.portStep port) s =
    (((s.put p (s.autoPort p)).enterPeerWait p).accept (.portStep port) []).done := by
  show execPortStep port s = _
  rw [execPortStep, portOf_eq_some h]
  simp only [verified, if_true, reduceCtorEq, if_false]
  rw [State.opened_eq_put, State.put_modPort]
  rfl

/-- A checker that does not count is off (R22). -/
theorem Port.sync_checker_of_uncounted {x : Port} (h : x.counts l = false) : (x.sync.lane l).checker = .off := by
  rw [Port.sync, Port.mapLanes_lane]
  exact if_pos h

/-- Outside MANUAL and an open window every checker is off once the port has moved (R22). -/
theorem Local.transition_checker_of_closed {g : Settings} {z : PortState} {f : Port → Port} (manual : z ≠ .manual)
    (closed : (f (k.left p)).qualify.any (·.begun) = false) (l : LanePos) :
    ((k.transition p g z f).port.lane l).checker = .off := by
  have record := (Local.judgeLoops_judged ((k.arrive p z f).tell [k.stateReport p z f]) p g).alike.record
  have state : (((k.arrive p z f).tell [k.stateReport p z f]).judgeLoops p g).port.state = z := record.state
  have qualify : (((k.arrive p z f).tell [k.stateReport p z f]).judgeLoops p g).port.qualify = (f (k.left p)).qualify := record.qualify
  refine Port.sync_checker_of_uncounted ?_
  rw [Port.counts, Port.windowBegun, qualify, closed, state]
  simp [manual]

/-- A port that comes into AWAIT_SLOT, where no grant can be made. -/
theorem State.put_enterAwaitSlot_full (tune : k.port.state ≠ .tune) (await : k.port.state ≠ .awaitSlot)
    (full : s.settings.sweepLimit ≤ k.esu.busy) :
    (s.put p k).enterAwaitSlot p = s.put p (k.enterAwaitSlot p s.settings) := by
  refine State.put_enterAwaitSlot ?_
  rw [Local.enterAwaitSlot_esu, Local.undoneEsu_of_ne tune await]
  exact .inr (.inr full)

/-- Settles O41: each pending stage, and the stage of a verified port, is entered as without the pause. -/
theorem portStepEntersPendingStage : Obligations.PortStepEntersPendingStage := by
  intro port s
  refine ⟨fun outside => exec_portStep_of_none outside, ?_⟩
  intro p hp x wait stays kept joined
  have stays_of : ∀ {t : State} {j : Local} {z : PortState} {pending fault timer}, (s.held p).Arrives j z pending fault timer →
      Became p (s.accept (.portStep port) []) j t → stays t := by
    intro t j z pending fault timer arrives became
    refine ⟨became.toOnlyPort, ?_⟩
    rw [became.port]
    exact ⟨arrives.course.snapshot, arrives.course.neighbour, arrives.course.verdict, arrives.course.accepted, arrives.course.map,
      arrives.course.width, arrives.cycle, arrives.attempts, arrives.course.unstable⟩
  have kept_of : ∀ {t : State} {j : Local} {z : PortState} {fault timer}, (s.held p).Arrives j z none fault timer →
      Became p (s.accept (.portStep port) []) j t → kept t := by
    intro t j z fault timer arrives became
    exact ⟨stays_of arrives became, by rw [became.port]; exact arrives.pending⟩
  refine ⟨fun paused verified => exec_portStep_of_other hp paused verified, ?_, ?_, ?_, ?_, ?_⟩
  · intro paused pending
    have state : (s.held p).port.state = .paused := paused
    have manual : (s.held p).port.state ≠ .manual := by rw [state]; decide
    have tune : (s.held p).port.state ≠ .tune := by rw [state]; decide
    have await : (s.held p).port.state ≠ .awaitSlot := by rw [state]; decide
    have runs := exec_portStep_of_paused hp paused pending
    have waits := (s.held p).enterPeerWait_arrives p s.settings
    refine ⟨fun behind => ?_, fun there step => ?_, fun there auto full => ?_⟩
    · obtain ⟨t, runs, became⟩ := became_of_accept runs
        (State.put_enterPeerWait_waits (Local.enterPeerWait_behind (k := s.held p) behind))
      refine ⟨t, runs, kept_of waits became, ?_⟩
      rw [became.port]
      exact ⟨waits.state, waits.stageTimer, waits.course.mode⟩
    · have step' : ((s.held p).enterPeerWait p s.settings).port.mode = .step := waits.course.mode.trans step
      obtain ⟨t, runs, became⟩ := became_of_accept (u := (s.put p (s.held p)).enterPeerWait p)
        (k := ((s.held p).enterPeerWait p s.settings).enterPaused p s.settings .awaitSlot) runs (by
          rw [State.put_enterPeerWait_ready (Local.enterPeerWait_there there manual), State.put_toAwaitSlot (.inl step'),
            Local.toAwaitSlot, if_pos step'])
      have arrives := waits.trans (Local.enterPaused_arrives _ p s.settings .awaitSlot)
      refine ⟨t, runs, stays_of arrives became, ?_⟩
      rw [became.port]
      refine ⟨arrives.state, arrives.pending, arrives.stageTimer, arrives.course.mode.trans step, ?_, ?_, fun still => ?_⟩
      · rw [became.esu, Local.enterPaused_esu, Local.undoneEsu_of_ne (by rw [waits.state]; decide) (by rw [waits.state]; decide),
          Local.enterPeerWait_esu, Local.undoneEsu_of_ne tune await]
        rfl
      · rw [Local.enterPaused_counters, Local.enterPeerWait_counters]
        rfl
      · rw [became.reports, Local.enterPaused_told (Local.enterPeerWait_still _ p _), Local.enterPaused_kept, Local.enterPeerWait_kept,
          Local.enterPeerWait_told (k := s.held p) still, waits.state, waits.cycle, waits.attempts, state]
        rfl
    · obtain ⟨t, runs, became⟩ := became_of_accept runs (State.put_enterPeerWait_joins there manual tune await auto full)
      have arrives := waits.trans (Local.enterAwaitSlot_arrives _ p s.settings)
      have counters := Local.enterAwaitSlot_counters ((s.held p).enterPeerWait p s.settings) p s.settings
      rw [waits.cycle, Local.enterPeerWait_counters] at counters
      refine ⟨t, runs, ⟨kept_of arrives became, ?_⟩, ?_⟩
      · rw [became.port, became.esu, Local.peerWait_awaitSlot_esu tune await]
        exact ⟨arrives.state, arrives.stageTimer, rfl, counters⟩
      · rw [became.port]
        exact arrives.course.mode
  · intro paused pending
    have state : (s.held p).port.state = .paused := paused
    have runs := exec_portStep_of_paused hp paused pending
    have arrives := (s.held p).enterQualify_arrives p s.settings
    refine ⟨fun behind => ?_, fun there => ?_⟩
    · obtain ⟨t, runs, became⟩ := became_of_accept runs (State.put_enterQualify_behind (k := s.held p) behind)
      refine ⟨t, runs, kept_of arrives became, ?_⟩
      rw [became.port]
      exact ⟨arrives.state, arrives.stageTimer, arrives.course.mode, Local.enterQualify_qualify _ p _⟩
    · obtain ⟨t, runs, became⟩ := became_of_accept runs
        (State.put_enterQualify_there (k := s.held p) there (by rw [state]; decide))
      have qualify := (s.held p).enterQualify_qualify p s.settings
      have course := arrives.course
      refine ⟨t, runs, ⟨⟨became.toOnlyPort, ?_⟩, ?_⟩, ?_, ?_, ?_, ?_, fun m mapped => ?_⟩
      · rw [became.port]
        exact ⟨course.snapshot, course.neighbour, course.verdict, course.accepted, course.map, course.width, arrives.cycle,
          arrives.attempts, course.unstable⟩
      · rw [became.port]; exact arrives.pending
      · rw [became.port]; exact arrives.state
      · rw [became.port]; rfl
      · rw [became.port]; exact course.mode
      · rw [became.port]
        show ((s.held p).enterQualify p s.settings).port.qualify.map _ = _
        rw [qualify]
        rfl
      · have was : (((s.held p).enterQualify p s.settings).port.lane m).checker = .off := by
          exact Local.transition_checker_of_closed (by decide) rfl m
        rw [became.lane, Local.startWindow_lane, Port.beginWindow_counts arrives.state qualify
          (by rw [course.map]; exact mapped), was]
        rfl
  · intro verified
    have state : (s.autoPort p).port.state = .verified := verified
    have manual : (s.autoPort p).port.state ≠ .manual := by rw [state]; decide
    have tune : (s.autoPort p).port.state ≠ .tune := by rw [state]; decide
    have await : (s.autoPort p).port.state ≠ .awaitSlot := by rw [state]; decide
    have runs := exec_portStep_of_verified hp verified
    have waits := (s.autoPort p).enterPeerWait_arrives p s.settings
    refine ⟨fun behind => ?_, fun there full => ?_⟩
    · obtain ⟨t, runs, became⟩ := became_of_accept runs
        (State.put_enterPeerWait_waits (Local.enterPeerWait_behind (k := s.autoPort p) behind))
      refine ⟨t, runs, ⟨⟨became.toOnlyPort, ?_⟩, ?_⟩, ?_⟩
      · rw [became.port]
        exact ⟨waits.course.snapshot, waits.course.neighbour, waits.course.verdict, waits.course.accepted, waits.course.map,
          waits.course.width, waits.cycle, waits.attempts, waits.course.unstable⟩
      · rw [became.port]; exact waits.pending
      · rw [became.port]; exact ⟨waits.state, waits.stageTimer, waits.course.mode⟩
    · obtain ⟨t, runs, became⟩ := became_of_accept runs
        (State.put_enterPeerWait_joins there manual tune await (show Mode.auto ≠ .step by decide) full)
      have arrives := waits.trans (Local.enterAwaitSlot_arrives _ p s.settings)
      have counters := Local.enterAwaitSlot_counters ((s.autoPort p).enterPeerWait p s.settings) p s.settings
      rw [waits.cycle, Local.enterPeerWait_counters] at counters
      refine ⟨t, runs, ⟨⟨⟨became.toOnlyPort, ?_⟩, ?_⟩, ?_⟩, ?_⟩
      · rw [became.port]
        exact ⟨arrives.course.snapshot, arrives.course.neighbour, arrives.course.verdict, arrives.course.accepted, arrives.course.map,
          arrives.course.width, arrives.cycle, arrives.attempts, arrives.course.unstable⟩
      · rw [became.port]; exact arrives.pending
      · rw [became.port, became.esu, Local.peerWait_awaitSlot_esu tune await]
        exact ⟨arrives.state, arrives.stageTimer, rfl, counters⟩
      · rw [became.port]; exact arrives.course.mode
  · intro paused pending
    obtain ⟨t, runs, became⟩ := became_of_accept (exec_portStep_of_paused hp paused pending) (State.put_enterHandover s p (s.held p))
    have arrives := (s.held p).enterHandover_arrives p s.settings
    refine ⟨t, runs, kept_of arrives became, ?_⟩
    rw [became.port]
    exact ⟨arrives.state, arrives.stageTimer, arrives.course.mode, Local.enterHandover_handover _ p _⟩
  · intro paused pending full
    have state : (s.held p).port.state = .paused := paused
    obtain ⟨t, runs, became⟩ := became_of_accept (exec_portStep_of_paused hp paused pending)
      (State.put_enterAwaitSlot_full (k := s.held p) (by rw [state]; decide) (by rw [state]; decide) full)
    have arrives := (s.held p).enterAwaitSlot_arrives p s.settings
    refine ⟨t, runs, ⟨kept_of arrives became, ?_⟩, ?_⟩
    · rw [became.port, became.esu, Local.enterAwaitSlot_esu, Local.undoneEsu_of_ne (by rw [state]; decide) (by rw [state]; decide)]
      exact ⟨arrives.state, arrives.stageTimer, rfl, Local.enterAwaitSlot_counters _ p _⟩
    · rw [became.port]; exact arrives.course.mode

/-! ### CONSULT_ANSWER -/

section Answer

variable {chassis : Word} {num answer : Byte}

theorem answerOf_eq_none {b : Byte} (h : 2 ≤ b.toNat) : answerOf b = none := named_eq_none h

theorem exec_consultAnswer_of_bad (h : 24 ≤ port.toNat ∨ chassis = 0 ∨ 2 ≤ answer.toNat) :
    exec (.consultAnswer port chassis num answer) s = .next (s.replied (.consultAnswer port chassis num answer) .badArgument []) := by
  show execConsultAnswer port chassis num answer s = _
  unfold execConsultAnswer
  rcases h with outside | zero | unnamed
  · rw [portOf_eq_none outside]
    cases answerOf answer <;> exact State.opened_refuse_done s _ _
  · cases portOf port with
    | none => cases answerOf answer <;> exact State.opened_refuse_done s _ _
    | some p =>
      cases answerOf answer with
      | none => exact State.opened_refuse_done s _ _
      | some acc => simp only [zero, if_true, State.opened_refuse_done]
  · rw [answerOf_eq_none unnamed]
    cases portOf port <;> exact State.opened_refuse_done s _ _

theorem exec_consultAnswer_of_late {acc : Bool} (h : port.toNat = p.val) (nonzero : chassis ≠ 0) (named : answerOf answer = some acc)
    (state : (s.port p).state ≠ .consult) : exec (.consultAnswer port chassis num answer) s =
      .next (s.replied (.consultAnswer port chassis num answer) .tooLate []) := by
  show execConsultAnswer port chassis num answer s = _
  rw [execConsultAnswer, portOf_eq_some h, named]
  simp only [if_neg nonzero, state, if_true, ne_eq, not_false_eq_true, State.opened_refuse_done]

theorem exec_consultAnswer_of_other {acc : Bool} (h : port.toNat = p.val) (nonzero : chassis ≠ 0) (named : answerOf answer = some acc)
    (state : (s.port p).state = .consult) (other : (s.port p).neighbour ≠ some { chassis := chassis, portNum := num }) :
    exec (.consultAnswer port chassis num answer) s =
      .next (s.replied (.consultAnswer port chassis num answer) .notMatching []) := by
  show execConsultAnswer port chassis num answer s = _
  rw [execConsultAnswer, portOf_eq_some h, named]
  simp only [if_neg nonzero, state, other, if_true, if_false, ne_eq, not_true_eq_false, not_false_eq_true, State.opened_refuse_done]

theorem exec_consultAnswer_of_taken {acc : Bool} (h : port.toNat = p.val) (nonzero : chassis ≠ 0) (named : answerOf answer = some acc)
    (state : (s.port p).state = .consult) (same : (s.port p).neighbour = some { chassis := chassis, portNum := num }) :
    exec (.consultAnswer port chassis num answer) s =
      (((s.put p (s.held p)).takeAnswer p acc).accept (.consultAnswer port chassis num answer) []).done := by
  show execConsultAnswer port chassis num answer s = _
  rw [execConsultAnswer, portOf_eq_some h, named]
  simp only [if_neg nonzero, state, same, ne_eq, not_true_eq_false, if_false]
  rw [State.opened_eq_put]

/-- A port whose consult the host has accepted, before it goes on (R110). -/
def State.acceptedPort (s : State) (p : PortIx) : Local := (s.held p).modPort fun x => { x with accepted := true }

theorem State.put_takeAnswer_accept (s : State) (p : PortIx) :
    (s.put p (s.held p)).takeAnswer p true = (s.put p (s.acceptedPort p)).byMode p := by
  rw [State.takeAnswer, if_pos rfl, State.put_modPort]
  rfl

theorem State.put_byMode_verify (h : k.port.mode = .verify) :
    (s.put p k).byMode p = s.put p (k.transition p s.settings .verified id) := by
  rw [State.byMode, State.put_port, if_pos h, State.enterVerified, State.put_transition]

theorem State.put_byMode_step (h : k.port.mode = .step) : (s.put p k).byMode p = s.put p (k.enterPaused p s.settings .peerWait) := by
  rw [State.byMode, State.put_port, if_neg (by simp [h]), State.toPeerWait, State.put_port, if_pos h, State.put_enterPaused]

theorem State.put_byMode_waits (verify : k.port.mode ≠ .verify) (step : k.port.mode ≠ .step)
    (waits : (k.enterPeerWait p s.settings).port.peerReady = false) :
    (s.put p k).byMode p = s.put p (k.enterPeerWait p s.settings) := by
  rw [State.byMode, State.put_port, if_neg verify, State.put_toPeerWait_of_auto step, State.put_enterPeerWait_waits waits]

end Answer

/-- Settles O43: the refusals in their order, then one way on by mode, or the fault of a rejection. -/
theorem consultAnswerTakenOrRefused : Obligations.ConsultAnswerTakenOrRefused := by
  intro port chassis num answer s
  refine ⟨fun bad => exec_consultAnswer_of_bad bad, ?_⟩
  intro p hp nonzero low x kept
  have yes : (0 : Byte).toNat < 2 := by decide
  obtain ⟨acc, named⟩ : ∃ acc, answerOf answer = some acc := by
    obtain rfl | rfl : answer = 0 ∨ answer = 1 := by bv_omega
    · exact ⟨true, rfl⟩
    · exact ⟨false, rfl⟩
  refine ⟨fun late => exec_consultAnswer_of_late hp nonzero named late,
    fun consult other => exec_consultAnswer_of_other hp nonzero named consult other, fun consult same => ?_⟩
  have state : (s.port p).state = .consult := consult
  have kept_of : ∀ {t : State} {k j : Local} {z : PortState} {pending fault timer}, k.Arrives j z pending fault timer →
      { k.port with accepted := x.accepted } = x → Became p (s.accept (.consultAnswer port chassis num answer) []) j t → kept t := by
    intro t k j z pending fault timer arrives from_x became
    have field : ∀ {α : Type} (f : Port → α), f { k.port with accepted := x.accepted } = f x := fun f => congrArg f from_x
    refine ⟨became.toOnlyPort, ?_⟩
    rw [became.port]
    exact ⟨arrives.course.snapshot.trans (field Port.snapshot), arrives.course.neighbour.trans (field Port.neighbour),
      arrives.course.verdict.trans (field Port.verdict), arrives.course.map.trans (field Port.map),
      arrives.course.mapClass.trans (field Port.mapClass), arrives.course.width.trans (field Port.width),
      arrives.course.mode.trans (field Port.mode)⟩
  have manual : (s.acceptedPort p).port.state ≠ .manual := by show (s.port p).state ≠ _; rw [state]; decide
  have tune : (s.acceptedPort p).port.state ≠ .tune := by show (s.port p).state ≠ _; rw [state]; decide
  have await : (s.acceptedPort p).port.state ≠ .awaitSlot := by show (s.port p).state ≠ _; rw [state]; decide
  refine ⟨?_, ?_, ?_, ?_, ?_⟩
  · rintro rfl verify
    have runs := exec_consultAnswer_of_taken hp nonzero (answer := 0) (acc := true) rfl state same
    rw [State.put_takeAnswer_accept] at runs
    obtain ⟨t, runs, became⟩ := became_of_accept runs (State.put_byMode_verify (k := s.acceptedPort p) verify)
    have arrives := Local.transition_arrives (z := .verified) stages_id (by decide) (s.acceptedPort p) p s.settings
    refine ⟨t, runs, kept_of arrives rfl became, ?_⟩
    rw [became.port]
    exact ⟨arrives.state, arrives.course.accepted, arrives.stageTimer⟩
  · rintro rfl step
    have runs := exec_consultAnswer_of_taken hp nonzero (answer := 0) (acc := true) rfl state same
    rw [State.put_takeAnswer_accept] at runs
    obtain ⟨t, runs, became⟩ := became_of_accept runs (State.put_byMode_step (k := s.acceptedPort p) step)
    have arrives := (s.acceptedPort p).enterPaused_arrives p s.settings .peerWait
    refine ⟨t, runs, kept_of arrives rfl became, ?_⟩
    rw [became.port]
    refine ⟨arrives.state, arrives.pending, arrives.course.accepted, arrives.stageTimer, fun still => ?_⟩
    rw [became.reports, Local.enterPaused_told (k := s.acceptedPort p) still, Local.enterPaused_kept,
      show (s.acceptedPort p).port.state = .consult from state]
    rfl
  · rintro rfl auto behind
    have runs := exec_consultAnswer_of_taken hp nonzero (answer := 0) (acc := true) rfl state same
    rw [State.put_takeAnswer_accept] at runs
    have mode : (s.acceptedPort p).port.mode = .auto := auto
    obtain ⟨t, runs, became⟩ := became_of_accept runs (State.put_byMode_waits (k := s.acceptedPort p) (by simp [mode]) (by simp [mode])
      (Local.enterPeerWait_behind (k := s.acceptedPort p) behind))
    have arrives := (s.acceptedPort p).enterPeerWait_arrives p s.settings
    refine ⟨t, runs, kept_of arrives rfl became, ?_⟩
    rw [became.port]
    exact ⟨arrives.state, arrives.course.accepted, arrives.stageTimer⟩
  · rintro rfl auto there full
    have runs := exec_consultAnswer_of_taken hp nonzero (answer := 0) (acc := true) rfl state same
    rw [State.put_takeAnswer_accept] at runs
    have mode : (s.acceptedPort p).port.mode = .auto := auto
    obtain ⟨t, runs, became⟩ := became_of_accept (k := ((s.acceptedPort p).enterPeerWait p s.settings).enterAwaitSlot p s.settings) runs
      (by rw [State.byMode, State.put_port, if_neg (by simp [mode]), State.put_toPeerWait_of_auto (by simp [mode]),
        State.put_enterPeerWait_joins (k := s.acceptedPort p) there manual tune await (by simp [mode]) full])
    have waits := (s.acceptedPort p).enterPeerWait_arrives p s.settings
    have arrives := waits.trans (Local.enterAwaitSlot_arrives _ p s.settings)
    have counters := Local.enterAwaitSlot_counters ((s.acceptedPort p).enterPeerWait p s.settings) p s.settings
    rw [waits.cycle, Local.enterPeerWait_counters] at counters
    refine ⟨t, runs, kept_of arrives rfl became, ?_⟩
    rw [became.port, became.esu, Local.peerWait_awaitSlot_esu tune await]
    refine ⟨arrives.state, arrives.course.accepted, arrives.stageTimer, rfl, counters, fun still fits => ?_⟩
    rw [became.reports, Local.enterAwaitSlot_told (Local.enterPeerWait_still _ p _),
      Local.enterAwaitSlot_kept _ _ _ (by rw [Local.enterPeerWait_counters]; exact fits), Local.enterPeerWait_kept,
      Local.enterPeerWait_told (k := s.acceptedPort p) still, waits.state, waits.cycle, waits.attempts,
      show (s.acceptedPort p).port.state = .consult from state]
    rfl
  · rintro rfl
    have runs := exec_consultAnswer_of_taken hp nonzero (answer := 1) (acc := false) rfl state same
    have faults : (s.put p (s.held p)).takeAnswer p false = s.put p ((s.held p).enterFaulted p s.settings .rejected) := by
      rw [State.takeAnswer, if_neg (by decide)]
      exact State.put_enterFaulted _ tune
    obtain ⟨t, runs, became⟩ := became_of_accept runs faults
    have arrives := (s.held p).enterFaulted_arrives p s.settings .rejected
    refine ⟨t, runs, kept_of arrives rfl became, ?_⟩
    rw [became.port]
    refine ⟨arrives.state, arrives.fault, arrives.course.accepted, arrives.stageTimer, Local.enterFaulted_counters _ p _ _,
      fun quiet fits => ?_⟩
    rw [became.reports, Local.enterFaulted_told (k := s.held p) (fun l => (quiet l).1) (fun l => (quiet l).2),
      Local.enterFaulted_kept _ _ _ _ fits, show (s.held p).port.state = .consult from state]
    rfl

/-! ### LANE_INJECT -/

section Inject

variable {lane kind count : Byte} {i : InjectKind}

theorem injectKindOf_eq_none {b : Byte} (h : 2 ≤ b.toNat) : injectKindOf b = none := named_eq_none h

theorem injectKindOf_code (i : InjectKind) : injectKindOf i.code = some i := by cases i <;> rfl

theorem portLaneOf_eq_some (h : port.toNat = p.val) (h' : lane.toNat = l.val) : portLaneOf port lane = some (p, l) := by
  simp [portLaneOf, portOf_eq_some h, laneOf_eq_some_iff.2 h']

theorem exec_laneInject_of_bad (h : 24 ≤ port.toNat ∨ 8 ≤ lane.toNat ∨ 2 ≤ kind.toNat ∨ count = 0) :
    exec (.laneInject port lane kind count) s = .next (s.replied (.laneInject port lane kind count) .badArgument []) := by
  show execLaneInject port lane kind count s = _
  unfold execLaneInject
  cases target : portLaneOf port lane with
  | none => cases injectKindOf kind <;> exact State.opened_refuse_done s _ _
  | some m =>
    rcases h with outside | outside | unnamed | zero
    · rw [portLaneOf_eq_none (.inl outside)] at target; cases target
    · rw [portLaneOf_eq_none (.inr outside)] at target; cases target
    · rw [injectKindOf_eq_none unnamed]; exact State.opened_refuse_done s _ _
    · cases injectKindOf kind with
      | none => exact State.opened_refuse_done s _ _
      | some i => simp only [zero, if_true, State.opened_refuse_done]

theorem exec_laneInject_of_named (h : portLaneOf port lane = some (p, l)) (named : kind = i.code) (nonzero : count ≠ 0) :
    exec (.laneInject port lane kind count) s = State.done
      (if (s.port p).state ≠ .manual then s.opened.refuse (.laneInject port lane kind count) .wrongState
       else if (s.lane p l).control.source ≠ i.source then s.opened.refuse (.laneInject port lane kind count) .badArgument
       else (s.opened.modLane p l fun y => { y with injection := some { kind := i, remaining := count.toNat } }).accept
         (.laneInject port lane kind count) [i.code, count]) := by
  show execLaneInject port lane kind count s = _
  rw [execLaneInject, h, named, injectKindOf_code]
  simp only [if_neg nonzero]

end Inject

/-- Settles O47: the refusals in the order of R31, then the pending injection. -/
theorem laneInjectJudgedInOrder : Obligations.LaneInjectJudgedInOrder := by
  intro port lane kind count s
  refine ⟨fun bad => exec_laneInject_of_bad bad, ?_⟩
  intro p l i hp hl named nonzero needed
  have runs := exec_laneInject_of_named (s := s) (portLaneOf_eq_some hp hl) named nonzero
  have source : i.source = needed := by cases i <;> rfl
  rw [source] at runs
  refine ⟨fun state => ?_, fun manual other => ?_, fun manual same => ?_⟩
  · rw [runs, if_pos state, State.opened_refuse_done]
  · rw [runs, if_neg (not_not.2 manual), if_pos other, State.opened_refuse_done]
  · rw [runs, if_neg (not_not.2 manual), if_neg (not_not.2 same), ← named]
    exact State.answer_done rfl _ .ok _

end Sys2Proof.Machine
end

section
/-! SUPPORT. PORT_STOP and the block resets of ports (R81, R105, R131). -/

namespace Sys2Proof.Machine

variable {s t u : State} {p q : PortIx} {k j : Local} {l : LanePos} {c : ChanIx} {port : Byte} {x y z : Port} {i : Instr}
  {body : List Byte}

/-! ### The grant test behind an answer -/

/-- The end of a command that answered a request, as the end of one that had not. -/
theorem Ends.unanswered {m : Mpt} (ends : Ends (u.accept i body) t) (mpt : u.mpt = m) :
    t.mpt = m.answer i .ok body ∧ Ends u (t.setMpt m) := by
  refine ⟨ends.mpt.trans ?_, ⟨ends.ports, ends.plan, ends.esu, mpt.symm, ends.time, ends.settings, ends.identity, ends.countdown,
    ends.freeIx, ends.pending, ends.reports⟩⟩
  rw [← mpt]
  rfl

/-- What follows an aborted sweep, where the answer to a request stands between it and the end of the command. -/
theorem freed_of_accept (slots : s.slots) (tune : (s.port p).state = .tune) (esu : k.esu = s.esu.free c)
    (ends : Ends (((s.put p k).grantTest).accept i body) t) : Freed p c (s.accept i body) t := by
  have mpt : ((s.put p k).grantTest).mpt = s.mpt := (Moves.mpt (w := true) (s.put p k).grantTest_moves).trans rfl
  obtain ⟨answered, before⟩ := ends.unanswered mpt
  obtain ⟨rests, grants⟩ := freed_of_ends slots tune esu before
  refine ⟨fun quiet => ?_, grants⟩
  obtain ⟨only, after⟩ := rests quiet
  exact ⟨⟨only.others, only.plan, answered, only.time, only.settings, only.identity, only.countdown, only.freeIx, only.pending⟩, after⟩

/-- The port that left TUNE is as it left it, whoever is granted its channel. -/
theorem State.grantTest_port_of_tune (slots : s.slots) (tune : (s.port p).state = .tune) (esu : ∀ e ∈ k.esu.queue, e ∈ s.esu.queue) :
    ((s.put p k).grantTest).port p = k.port := by
  rw [State.grantTest_aside, State.put_port]
  intro e he
  rw [State.put_esu] at he
  exact slots.aside tune e (esu e he)

/-! ### A port stopped -/

/-- A port stopped (R81). -/
def Local.stop (k : Local) (p : PortIx) (g : Settings) : Local :=
  if k.port.state = .idle then k else k.transition p g .idle Port.stopped

theorem State.put_stopPort (s : State) (p : PortIx) (k : Local) : (s.put p k).stopPort p = s.put p (k.stop p s.settings) := by
  rw [State.stopPort, State.put_port, Local.stop]
  split
  · rfl
  · exact State.put_transition s p k .idle Port.stopped

theorem Local.stop_of_ne (g : Settings) (h : k.port.state ≠ .idle) : k.stop p g = k.transition p g .idle Port.stopped := if_neg h

theorem lanesKept_stopped : LanesKept Port.stopped := fun _ _ => rfl

theorem Local.stop_esu_queue (k : Local) (p : PortIx) (g : Settings) : ∀ e ∈ (k.stop p g).esu.queue, e ∈ k.esu.queue := by
  unfold Local.stop
  split
  · exact fun _ => id
  · rw [Local.transition_esu]; exact k.undoneEsu_queue p

/-- A lane taken back hunts no more (R17). -/
theorem Lane.takeBack_hunt {w : Lane} (h : w.owner = .switch) : w.takeBack.monitor.hunt = none := by
  rw [Lane.takeBack, if_pos h]

theorem Port.undoneLane_hunt (h : (x.lane l).owner = .switch) : (x.undoneLane l).monitor.hunt = none := by
  unfold Port.undoneLane
  split
  · exact Lane.takeBack_hunt h
  · exact Lane.takeBack_hunt h

theorem Port.undoneLane_patternLock (h : x.nearEnd l = true) : (x.undoneLane l).patternLock = .searching := by
  rw [Port.undoneLane, if_pos h]
  rfl

/-- What a stop leaves in a lane. -/
structure Lane.Stopped (x : Port) (l : LanePos) (w : Lane) : Prop where
  off : w.rx.state = .off
  owner : w.owner = .part
  autoLoop : w.autoLoop = false
  hunt : (x.lane l).owner = .switch → w.monitor.hunt = none
  patternLock : x.nearEnd l = true → w.patternLock = .searching
  control : w.control = (x.lane l).control
  eq : w.eq = (x.lane l).eq
  counters : w.counters = (x.lane l).counters

theorem Local.stop_lane (g : Settings) (h : k.port.state ≠ .idle) (l : LanePos) : Lane.Stopped k.port l ((k.stop p g).port.lane l) := by
  rw [Local.stop_of_ne g h]
  refine ⟨?_, Local.transition_owner.trans k.left_owner, Local.transition_still lanesKept_stopped (.inl ⟨by decide, by decide⟩) l,
    fun switched => ?_, fun near => ?_, Local.transition_control.trans k.left_control, Local.transition_eq.trans k.left_eq,
    Local.transition_laneCounters.trans k.left_laneCounters⟩
  · rw [Local.transition_rx]
    rfl
  · rw [Local.transition_monitor, lanesKept_stopped, (k.left_lane p l).monitor]
    exact Port.undoneLane_hunt switched
  · rw [Local.transition_patternLock, lanesKept_stopped]
    show ((k.left p).lane l).patternLock = _
    rw [(k.left_lane p l).patternLock]
    exact Port.undoneLane_patternLock near

theorem Local.stop_told (g : Settings) (h : k.port.state ≠ .idle) (still : k.port.Still) : (k.stop p g).told =
    k.told ++ portReports p [.portState k.port.state .idle none none k.port.cycle 0] := by
  rw [Local.stop_of_ne g h, Local.transition_told lanesKept_stopped still (.inl ⟨by decide, by decide⟩)]
  simp [Port.stopped, portReports]

/-! ### The requests -/

theorem exec_portStop_of_none (h : 24 ≤ port.toNat) :
    exec (.portStop port) s = .next (s.replied (.portStop port) .badArgument []) := by
  show execPortStop port s = _
  rw [execPortStop, portOf_eq_none h, State.opened_refuse_done]

theorem exec_portStop_of_some (h : port.toNat = p.val) : exec (.portStop port) s =
    (((s.put p ((s.held p).stop p s.settings)).afterAbort (s.port p).state).accept (.portStop port) []).done := by
  show execPortStop port s = _
  rw [execPortStop, portOf_eq_some h]
  simp only []
  rw [State.opened_eq_put, State.put_stopPort]

/-- The record a stop leaves. -/
structure Port.Halted (x y : Port) : Prop where
  state : y.state = .idle
  pending : y.pending = none
  fault : y.fault = none
  channel : y.channel = none
  handover : y.handover = none
  neighbour : y.neighbour = none
  verdict : y.verdict = none
  accepted : y.accepted = false
  map : ∀ l : LanePos, y.map[l] = { remote := none, polarity := .normal, logical := none }
  mapClass : y.mapClass = none
  width : y.width = none
  qualify : y.qualify = none
  attempts : y.attempts = 0
  stageTimer : y.stageTimer = none
  cleanRun : y.cleanRun = none
  snapshot : y.snapshot = x.snapshot
  mode : y.mode = x.mode
  cycle : y.cycle = x.cycle
  unstable : y.unstable = x.unstable
  counters : y.counters = x.counters

theorem Local.stop_halted (g : Settings) (h : k.port.state ≠ .idle) : k.port.Halted (k.stop p g).port := by
  rw [Local.stop_of_ne g h]
  constructor
  case map =>
    intro l
    rw [Local.transition_map]
    exact Vector.getElem_replicate l.isLt
  case stageTimer => rw [Local.transition_stageTimer k p g _ (by decide)]; rfl
  all_goals simp [Port.stopped]

/-- Settles O42: the stop of a port, and the grant test where it leaves TUNE. -/
theorem portStopClearsAndReleases : Obligations.PortStopClearsAndReleases := by
  intro port s
  refine ⟨fun outside => exec_portStop_of_none outside, ?_⟩
  intro p hp x
  have runs := exec_portStop_of_some (s := s) hp
  refine ⟨fun idle => ?_, fun active slots => ?_⟩
  · have idle' : (s.port p).state = .idle := idle
    have same : (s.held p).stop p s.settings = s.held p := if_pos idle
    rw [runs, State.afterAbort_of_ne (by rw [idle']; decide), same, ← State.opened_eq_put, State.opened_accept_done]
  have halted := Local.stop_halted (k := s.held p) (p := p) s.settings active
  have lanes := Local.stop_lane (k := s.held p) (p := p) s.settings active
  have esu : ((s.held p).stop p s.settings).esu = (s.held p).undoneEsu p := by
    rw [Local.stop_of_ne _ active, Local.transition_esu]
  obtain ⟨t, run, ends⟩ := State.done_ends (((s.put p ((s.held p).stop p s.settings)).afterAbort (s.port p).state).accept
    (.portStop port) [])
  have stopped : t.port p = ((s.held p).stop p s.settings).port := by
    rw [ends.ports]
    show ((s.put p ((s.held p).stop p s.settings)).afterAbort (s.port p).state).port p = _
    by_cases tune : (s.port p).state = .tune
    · rw [State.afterAbort, if_pos tune]
      exact State.grantTest_port_of_tune (slots.resolve_left fun other => other tune) tune (Local.stop_esu_queue _ _ _)
    · rw [State.afterAbort_of_ne tune, State.put_port]
  refine ⟨t, runs.trans run, ?_⟩
  rw [stopped]
  refine ⟨halted.state, halted.pending, halted.fault, halted.channel, halted.handover, halted.neighbour, halted.verdict,
    halted.accepted, halted.map, halted.mapClass, halted.width, halted.qualify, halted.attempts, halted.stageTimer, halted.cleanRun,
    halted.snapshot, halted.mode, halted.cycle, halted.unstable, halted.counters, fun l => ?_, fun c tune channel => ?_, fun other => ?_⟩
  · rw [State.lane, stopped]
    have lane := lanes l
    exact ⟨lane.off, lane.owner, lane.autoLoop, lane.hunt, lane.patternLock, lane.control, lane.eq, lane.counters⟩
  · have slots := slots.resolve_left fun other => other tune
    rw [State.afterAbort, if_pos tune] at ends
    refine freed_of_accept slots tune ?_ ends
    rw [esu]
    exact Local.undoneEsu_of_channel slots tune channel tune rfl rfl
  · rw [State.afterAbort_of_ne other] at ends
    refine ⟨(State.put_only (s.accept (.portStop port) []) p _).ends ends, ?_, fun still => ?_⟩
    · rw [ends.esu]
      show ((s.held p).stop p s.settings).esu = _
      rw [esu]
      by_cases await : (s.port p).state = .awaitSlot
      · rw [Local.undoneEsu_of_awaitSlot await, if_pos await]
        rfl
      · rw [Local.undoneEsu_of_ne other await, if_neg await]
        rfl
    · have told := Local.stop_told (k := s.held p) (p := p) s.settings active still
      have kept : ((s.held p).stop p s.settings).kept = [] := by rw [Local.stop_of_ne _ active, Local.transition_kept]; rfl
      rw [ends.reports]
      show ((s.reports.enterAll s.time.clock ((s.held p).stop p s.settings).told).enterAll s.time.clock
        ((s.held p).stop p s.settings).kept) = _
      rw [told, kept]
      rfl

/-! ### The block reset of a port (R105) -/

/-- A port after its block reset: IDLE as after power-on, its control records and equalization settings kept. -/
structure Port.Cleared (x y : Port) : Prop where
  state : y.state = .idle
  mode : y.mode = .auto
  snapshot : y.snapshot = none
  pending : y.pending = none
  cycle : y.cycle = .initial
  attempts : y.attempts = 0
  unstable : y.unstable = 0
  channel : y.channel = none
  fault : y.fault = none
  stageTimer : y.stageTimer = none
  cleanRun : y.cleanRun = none
  handover : y.handover = none
  counters : ∀ n : Fin 3, y.counters[n] = { live := 0, snap := 0, mark := false }
  lanes : ∀ l, (y.lane l).control = (x.lane l).control ∧ (y.lane l).eq = (x.lane l).eq ∧
    (y.lane l).monitor = { errors := 0, history := [], hunt := none } ∧
    ∀ n : Fin 7, (y.lane l).counters[n] = { live := 0, snap := 0, mark := false }

/-- The block reset of a port, before the grant test. -/
def Local.reset (k : Local) (p : PortIx) (g : Settings) : Local := (k.stop p g).modPort Port.blockReset

theorem State.put_resetPort (s : State) (p : PortIx) (k : Local) : (s.put p k).resetPort p = s.put p (k.reset p s.settings) := by
  rw [State.resetPort, State.put_stopPort, State.put_modPort]
  rfl

theorem Port.blockReset_lane (x : Port) (l : LanePos) :
    x.blockReset.lane l = { x.lane l with monitor := .cleared, counters := Vector.replicate 7 .zero } := by
  rw [Port.blockReset, Port.mapLanes_lane]
  rfl

/-- A block reset clears a port that is IDLE and holds the fields of that state. -/
theorem Port.blockReset_cleared (state : y.state = .idle) (pending : y.pending = none) (channel : y.channel = none)
    (fault : y.fault = none) (timer : y.stageTimer = none) (clean : y.cleanRun = none) (handover : y.handover = none)
    (lanes : ∀ l, (y.lane l).control = (x.lane l).control ∧ (y.lane l).eq = (x.lane l).eq) : x.Cleared y.blockReset := by
  refine ⟨state, rfl, rfl, pending, rfl, rfl, rfl, channel, fault, timer, clean, handover,
    fun n => Vector.getElem_replicate n.isLt, fun l => ?_⟩
  rw [Port.blockReset_lane]
  exact ⟨(lanes l).1, (lanes l).2, rfl, fun n => Vector.getElem_replicate n.isLt⟩

theorem Local.reset_cleared (g : Settings) (h : k.port.stageFields) : k.port.Cleared (k.reset p g).port := by
  show k.port.Cleared (k.stop p g).port.blockReset
  by_cases idle : k.port.state = .idle
  · have none_of : ∀ {α : Type} {o : Option α} {P : Prop}, (o ≠ none → P) → ¬P → o = none := fun gives not =>
      not_not.1 fun held => not (gives held)
    have other : ∀ z : PortState, z ≠ .idle → k.port.state ≠ z := fun z hz same => hz (same.symm.trans idle)
    rw [Local.stop, if_pos idle]
    refine Port.blockReset_cleared idle (none_of h.pending (other _ (by decide))) (none_of h.channel (other _ (by decide)))
      (none_of h.fault (other _ (by decide))) (none_of h.stageTimer ?_) (none_of h.cleanRun (other _ (by decide)))
      (none_of h.handover (other _ (by decide))) fun l => ⟨rfl, rfl⟩
    rw [idle]; decide
  · have halted := Local.stop_halted (p := p) g idle
    exact Port.blockReset_cleared halted.state halted.pending halted.channel halted.fault halted.stageTimer halted.cleanRun
      halted.handover fun l => ⟨(Local.stop_lane g idle l).control, (Local.stop_lane g idle l).eq⟩

theorem exec_portBlockReset_of_none (h : 24 ≤ port.toNat) :
    exec (.portBlockReset port) s = .next (s.replied (.portBlockReset port) .badArgument []) := by
  show execPortBlockReset port s = _
  rw [execPortBlockReset, portOf_eq_none h, State.opened_refuse_done]

theorem exec_portBlockReset_of_some (h : port.toNat = p.val) : exec (.portBlockReset port) s =
    (((s.put p ((s.held p).reset p s.settings)).afterAbort (s.port p).state).accept (.portBlockReset port) []).done := by
  show execPortBlockReset port s = _
  rw [execPortBlockReset, portOf_eq_some h]
  simp only []
  rw [State.opened_eq_put, State.put_resetPort]

/-! ### ALL_PORTS -/

theorem State.resetPort_eq (s : State) (p : PortIx) : s.resetPort p = s.put p ((s.whole p).reset p s.settings) := by
  have whole := State.put_resetPort s p (s.whole p)
  rwa [State.put_whole] at whole

theorem State.resetPort_port_of_ne (h : q ≠ p) : (s.resetPort p).port q = s.port q := by
  rw [State.resetPort_eq, State.put_port_of_ne h]

theorem State.resetPort_cleared (h : (s.port p).stageFields) : (s.port p).Cleared ((s.resetPort p).port p) := by
  rw [State.resetPort_eq, State.put_port]
  exact Local.reset_cleared (k := s.whole p) s.settings h

/-- Ports reset one after another: each is cleared, the others are as they were. -/
theorem State.resetPorts (ps : List PortIx) (once : ps.Nodup) (s : State) (stages : ∀ p ∈ ps, (s.port p).stageFields) :
    (∀ p ∈ ps, (s.port p).Cleared ((ps.foldl State.resetPort s).port p)) ∧
      ∀ p, p ∉ ps → (ps.foldl State.resetPort s).port p = s.port p := by
  induction ps generalizing s with
  | nil => exact ⟨nofun, fun _ _ => rfl⟩
  | cons a ps ih =>
    obtain ⟨fresh, once⟩ := List.nodup_cons.1 once
    have apart : ∀ p ∈ ps, (s.resetPort a).port p = s.port p := fun p hp =>
      State.resetPort_port_of_ne fun same => fresh (same ▸ hp)
    obtain ⟨cleared, rest⟩ := ih once (s.resetPort a) fun p hp => by
      rw [apart p hp]; exact stages p (List.mem_cons_of_mem _ hp)
    rw [List.foldl_cons]
    refine ⟨fun p hp => ?_, fun p hp => ?_⟩
    · rcases List.mem_cons.1 hp with rfl | hp
      · rw [rest p fresh]
        exact State.resetPort_cleared (stages p (List.mem_cons_self))
      · rw [← apart p hp]
        exact cleared p hp
    · rw [List.mem_cons, not_or] at hp
      rw [rest p hp.2, State.resetPort_port_of_ne hp.1]

theorem State.resetPorts_slots (ps : List PortIx) (h : s.slots) : (ps.foldl State.resetPort s).slots := by
  induction ps generalizing s with
  | nil => exact h
  | cons p ps ih => exact ih (State.resetPort_slots h p)

/-- With every port IDLE no port waits and no channel is busy (R117, R119). -/
theorem State.slots.empty (h : s.slots) (idle : ∀ p, (s.port p).state = .idle) :
    s.esu.queue = [] ∧ ∀ c : ChanIx, s.esu.channels[c] = none := by
  refine ⟨List.eq_nil_iff_forall_not_mem.2 fun e he => ?_, fun c => ?_⟩
  · have waits := (h.queued e.port).2 ⟨e, he, rfl⟩
    rw [idle] at waits; cases waits
  · cases busy : s.esu.channels[c] with
    | none => rfl
    | some w =>
      have tune := ((h.tuned w.port c).2 ⟨w, busy, rfl⟩).1
      rw [idle] at tune; cases tune

/-- Settles O44: the block reset of one port, and of every port with the ESU left empty. -/
theorem portBlockResetsClearPorts : Obligations.PortBlockResetsClearPorts := by
  intro s cleared
  have cleared_of : ∀ {p : PortIx} {t : State} {y : Port}, (s.port p).Cleared y → t.port p = y → cleared p t := by
    rintro p t y h rfl
    exact ⟨h.state, h.mode, h.snapshot, h.pending, h.cycle, h.attempts, h.unstable, h.channel, h.fault, h.stageTimer, h.cleanRun,
      h.handover, h.counters, h.lanes⟩
  refine ⟨fun port outside => exec_portBlockReset_of_none outside, fun port p hp stages slots => ?_, fun slots stages => ?_⟩
  · have runs := exec_portBlockReset_of_some (s := s) hp
    obtain ⟨t, run, ends⟩ := State.done_ends (((s.put p ((s.held p).reset p s.settings)).afterAbort (s.port p).state).accept
      (.portBlockReset port) [])
    have reset : t.port p = ((s.held p).reset p s.settings).port := by
      rw [ends.ports]
      show ((s.put p ((s.held p).reset p s.settings)).afterAbort (s.port p).state).port p = _
      by_cases tune : (s.port p).state = .tune
      · rw [State.afterAbort, if_pos tune]
        exact State.grantTest_port_of_tune (slots.resolve_left fun other => other tune) tune (Local.stop_esu_queue _ _ _)
      · rw [State.afterAbort_of_ne tune, State.put_port]
    refine ⟨t, runs.trans run, cleared_of (Local.reset_cleared (k := s.held p) s.settings stages) reset, fun other => ?_,
      fun c tune channel => ?_, fun active => ?_⟩
    · rw [State.afterAbort_of_ne other] at ends
      exact (State.put_only (s.accept (.portBlockReset port) []) p _).ends ends
    · have slots := slots.resolve_left fun other => other tune
      have active : (s.held p).port.state ≠ .idle := by show (s.port p).state ≠ _; rw [tune]; decide
      rw [State.afterAbort, if_pos tune] at ends
      refine freed_of_accept slots tune ?_ ends
      show ((s.held p).stop p s.settings).esu = _
      rw [Local.stop_of_ne _ active, Local.transition_esu]
      exact Local.undoneEsu_of_channel slots tune channel tune rfl rfl
    · have halted := Local.stop_halted (k := s.held p) (p := p) s.settings active
      refine ⟨?_, ?_, ?_, ?_, fun l => ?_⟩
      · rw [reset]; exact halted.neighbour
      · rw [reset]; exact halted.mapClass
      · rw [reset]; exact halted.width
      · rw [reset]; exact halted.qualify
      · have lane := Local.stop_lane (k := s.held p) (p := p) s.settings active l
        rw [State.lane, reset]
        show (((((s.held p).stop p s.settings).port).blockReset).lane l).rx.state = _ ∧
          (((((s.held p).stop p s.settings).port).blockReset).lane l).owner = _
        rw [Port.blockReset_lane]
        exact ⟨lane.off, lane.owner⟩
  · obtain ⟨ports, _⟩ := State.resetPorts allPorts allPorts_nodup s.opened fun p _ => stages p
    obtain ⟨queue, channels⟩ := (State.resetPorts_slots allPorts (s := s.opened) (State.slots_of_view slots rfl)).empty fun p =>
      (ports p (mem_allPorts p)).state
    have moves : Moves true s.opened (allPorts.foldl State.resetPort s.opened) :=
      Moves.foldl allPorts (fun t p => t.resetPort_moves p) s.opened
    have rests : (allPorts.foldl State.resetPort s.opened).grantTest = allPorts.foldl State.resetPort s.opened :=
      State.grantTest_of_resting (.inl queue)
    have runs : exec .allPortsBlockReset s = ((allPorts.foldl State.resetPort s.opened).accept .allPortsBlockReset []).done := by
      show execAllPortsBlockReset s = _
      rw [execAllPortsBlockReset, rests]
    generalize allPorts.foldl State.resetPort s.opened = v at *
    obtain ⟨t, run, ends⟩ := State.done_ends (v.accept .allPortsBlockReset [])
    refine ⟨t, runs.trans run, fun p => cleared_of (ports p (mem_allPorts p)) (ends.ports p), ?_, fun c => ?_, ends.plan.trans moves.plan,
      ends.settings.trans moves.settings, ends.identity.trans moves.identity, ends.time.trans moves.time, ?_⟩
    · rw [ends.esu]; exact queue
    · rw [ends.esu]; exact channels c
    · exact ends.mpt.trans (congrArg (fun m : Mpt => m.answer .allPortsBlockReset .ok []) moves.mpt)

end Sys2Proof.Machine
end

section
/-! SUPPORT. The ESU block reset (R132): the ports sent back, the queue they rejoin, and the grants that follow. -/

namespace Sys2Proof.Machine

variable {s t u w : State} {p q : PortIx} {k j : Local} {l : LanePos} {c : ChanIx} {x y z : Port} {n : Nat} {Q : List QueueEntry}

/-! ### A port sent back (R132) -/

/-- What a port keeps while it is sent back and granted again: attempts, counters, class, mode, map, width, equalization. -/
structure Port.Tried (x y : Port) : Prop where
  attempts : y.attempts = x.attempts
  counters : y.counters = x.counters
  cycle : y.cycle = x.cycle
  mode : y.mode = x.mode
  map : y.map = x.map
  width : y.width = x.width
  eq : ∀ l, (y.lane l).eq = (x.lane l).eq

theorem Port.Tried.refl (x : Port) : x.Tried x := ⟨rfl, rfl, rfl, rfl, rfl, rfl, fun _ => rfl⟩

theorem Port.Tried.trans (h : x.Tried y) (k : y.Tried z) : x.Tried z :=
  ⟨k.attempts.trans h.attempts, k.counters.trans h.counters, k.cycle.trans h.cycle, k.mode.trans h.mode, k.map.trans h.map,
    k.width.trans h.width, fun l => (k.eq l).trans (h.eq l)⟩

theorem Local.Arrives.tried {pending : Option PendingStage} {fault : Option FaultReason} {timer : Option StageTimer} {z : PortState}
    (h : k.Arrives j z pending fault timer) (counters : j.port.counters = k.port.counters) : k.port.Tried j.port :=
  ⟨h.attempts, counters, h.cycle, h.course.mode, h.course.map, h.course.width, h.eq⟩

/-- With every channel free no sweep is aborted. -/
theorem Local.undoneEsu_of_unserved (tune : k.port.state = .tune) (free : ∀ c : ChanIx, k.esu.channels[c] = none) :
    k.undoneEsu p = k.esu := by
  have none_served : k.sweepOf = none := by
    rw [Local.sweepOf]
    cases k.port.channel with
    | none => rfl
    | some c => rw [Option.bind_some, free c]; rfl
  rw [Local.undoneEsu_of_tune tune, none_served]
  rfl

/-- A port sent back: in STEP mode PAUSED before AWAIT_SLOT, else in AWAIT_SLOT. -/
structure Port.SentBack (x y : Port) : Prop where
  tried : x.Tried y
  channel : y.channel = none
  paused : x.mode = .step → y.state = .paused ∧ y.pending = some .awaitSlot
  waits : x.mode ≠ .step → y.state = .awaitSlot

theorem State.sendBack_port (tune : (s.port p).state = .tune) (free : ∀ c : ChanIx, s.esu.channels[c] = none) :
    (s.port p).SentBack ((s.sendBack p).port p) ∧ (s.sendBack p).esu = s.esu ∧ ∀ q, q ≠ p → (s.sendBack p).port q = s.port q := by
  by_cases step : (s.port p).mode = .step
  · have sent : s.sendBack p = s.put p ((s.whole p).enterPaused p s.settings .awaitSlot) := by
      have whole := State.put_enterPaused s p (s.whole p) .awaitSlot
      rw [State.put_whole] at whole
      rw [State.sendBack, if_pos step, whole]
    have arrives := (s.whole p).enterPaused_arrives p s.settings .awaitSlot
    rw [sent]
    refine ⟨?_, ?_, fun q hq => State.put_port_of_ne hq⟩
    · rw [State.put_port]
      exact ⟨arrives.tried (Local.enterPaused_counters _ p _ _), arrives.channel, fun _ => ⟨arrives.state, arrives.pending⟩,
        fun other => absurd step other⟩
    · rw [State.put_esu, Local.enterPaused_esu]
      exact Local.undoneEsu_of_unserved tune free
  · have sent : s.sendBack p = s.put p ((s.whole p).transition p s.settings .awaitSlot id) := by
      have whole := State.put_transition s p (s.whole p) .awaitSlot id
      rw [State.put_whole] at whole
      rw [State.sendBack, if_neg step, whole]
    have arrives := Local.transition_arrives (z := .awaitSlot) stages_id (by decide) (s.whole p) p s.settings
    rw [sent]
    refine ⟨?_, ?_, fun q hq => State.put_port_of_ne hq⟩
    · rw [State.put_port]
      exact ⟨arrives.tried (Local.transition_counters_of_stages stages_id _ p _ _), arrives.channel, fun same => absurd same step,
        fun _ => arrives.state⟩
    · rw [State.put_esu, Local.transition_esu]
      exact Local.undoneEsu_of_unserved tune free

theorem State.sendBacks (ps : List PortIx) (once : ps.Nodup) (s : State) (tune : ∀ p ∈ ps, (s.port p).state = .tune)
    (free : ∀ c : ChanIx, s.esu.channels[c] = none) : (∀ p ∈ ps, (s.port p).SentBack ((ps.foldl State.sendBack s).port p)) ∧
      (∀ p, p ∉ ps → (ps.foldl State.sendBack s).port p = s.port p) ∧ (ps.foldl State.sendBack s).esu = s.esu := by
  induction ps generalizing s with
  | nil => exact ⟨nofun, fun _ _ => rfl, rfl⟩
  | cons a ps ih =>
    obtain ⟨fresh, once⟩ := List.nodup_cons.1 once
    obtain ⟨sent, esu, others⟩ := State.sendBack_port (tune a List.mem_cons_self) free
    have apart : ∀ p ∈ ps, (s.sendBack a).port p = s.port p := fun p hp => others p fun same => fresh (same ▸ hp)
    obtain ⟨back, rest, last⟩ := ih once (s.sendBack a)
      (fun p hp => by rw [apart p hp]; exact tune p (List.mem_cons_of_mem _ hp)) (by rw [esu]; exact free)
    rw [List.foldl_cons]
    refine ⟨fun p hp => ?_, fun p hp => ?_, last.trans esu⟩
    · rcases List.mem_cons.1 hp with rfl | hp
      · rw [rest p fresh]; exact sent
      · rw [← apart p hp]; exact back p hp
    · rw [List.mem_cons, not_or] at hp
      rw [rest p hp.2, others p hp.1]

/-! ### Grants in a row (R121) -/

/-- From a state whose queue is Q and whose channels are all free, n grants have been made. -/
structure Granting (w : State) (Q : List QueueEntry) (n : Nat) (u : State) : Prop where
  queue : u.esu.queue = Q.drop n
  settings : u.settings = w.settings
  served : ∀ (c : ChanIx) (e : QueueEntry), c.val < n → Q[c.val]? = some e →
    (u.port e.port).state = .tune ∧ (u.port e.port).channel = some c ∧ u.esu.channels[c] ≠ none
  free : ∀ c : ChanIx, n ≤ c.val ∨ Q.length ≤ c.val → u.esu.channels[c] = none
  waits : ∀ e ∈ Q.drop n, u.port e.port = w.port e.port
  aside : ∀ p, (∀ e ∈ Q, e.port ≠ p) → u.port p = w.port p
  tried : ∀ p, (w.port p).Tried (u.port p)

theorem Esu.busy_le (e : Esu) : e.busy ≤ 4 := by
  rw [Esu.busy]
  exact (List.length_filter_le _ _).trans (by simp)

theorem Local.granted_tried (k : Local) (p : PortIx) (clock : Word) (g : Settings) (c : ChanIx) :
    k.port.Tried (k.granted p clock g c).port := by
  constructor <;> simp [Local.granted]
  intro l
  exact Local.left_eq

/-- One grant more. -/
theorem Granting.step (h : Granting w Q n u) (limit : w.settings.sweepLimit = 4) (once : (Q.map QueueEntry.port).Nodup)
    (await : ∀ e ∈ Q, (w.port e.port).state = .awaitSlot) (few : n < 4) : Granting w Q (n + 1) u.grant := by
  cases left : Q.drop n with
  | nil =>
    have short : Q.length ≤ n := List.drop_eq_nil_iff.1 left
    have rests : u.grant = u := State.grant_of_resting (.inl (h.queue.trans left))
    rw [rests]
    refine ⟨?_, h.settings, fun c e hc he => ?_, fun c hc => h.free c ?_, fun e he => ?_, h.aside, h.tried⟩
    · rw [h.queue, left, List.drop_eq_nil_iff.2 (by omega)]
    · have inside : c.val < Q.length := (List.getElem?_eq_some_iff.1 he).1
      exact h.served c e (by omega) he
    · omega
    · rw [List.drop_eq_nil_iff.2 (by omega)] at he
      cases he
  | cons e rest =>
    have inside : n < Q.length := by
      by_contra outside
      rw [List.drop_eq_nil_iff.2 (by omega)] at left
      cases left
    obtain ⟨here, after⟩ := List.cons_eq_cons.1 ((List.drop_eq_getElem_cons inside).symm.trans left)
    have entry : Q[n]? = some e := List.getElem?_eq_some_iff.2 ⟨inside, here⟩
    have member : e ∈ Q := List.mem_of_getElem? entry
    have apart : ∀ (m : Nat) (d : QueueEntry), Q[m]? = some d → m ≠ n → d.port ≠ e.port := fun m d hd other same => by
      obtain ⟨hm, rfl⟩ := List.getElem?_eq_some_iff.1 hd
      refine other ((List.Nodup.getElem_inj_iff once (hi := by simpa using hm) (hj := by simpa using inside)).1 ?_)
      rw [List.getElem_map, List.getElem_map, same, here]
    have others : ∀ d ∈ rest, d.port ≠ e.port := fun d hd => by
      rw [← after] at hd
      obtain ⟨m, hm, rfl⟩ := List.mem_iff_getElem.1 hd
      refine apart (n + 1 + m) _ ?_ (by omega)
      rw [List.getElem_drop]
      exact List.getElem?_eq_getElem _
    have state : (u.port e.port).state = .awaitSlot := by
      rw [h.waits e (by rw [left]; exact List.mem_cons_self)]
      exact await e member
    have free : u.esu.channels[(⟨n, few⟩ : ChanIx)] = none := h.free ⟨n, few⟩ (.inl (Nat.le_refl n))
    have room : u.esu.busy < u.settings.sweepLimit := by
      have taken := Esu.busy_set free ((u.whole e.port).sweep e.port u.time.clock ⟨n, few⟩) [] 0
      have most := Esu.busy_le { channels := u.esu.channels.set n (some ((u.whole e.port).sweep e.port u.time.clock ⟨n, few⟩))
                                 queue := [], grants := 0 }
      rw [h.settings, limit]
      simp only at taken
      omega
    have granted := State.grant_of_head (h.queue.trans left) room free fun d hd => by
      obtain ⟨f, hf⟩ : ∃ f, Q[d.val]? = some f := ⟨_, List.getElem?_eq_getElem (Nat.lt_trans hd inside)⟩
      exact (h.served d f hd hf).2.2
    have esu := Local.granted_esu (k := u.whole e.port) (p := e.port) (clock := u.time.clock) (g := u.settings) (c := ⟨n, few⟩)
      (h.queue.trans left) others state
    rw [granted]
    refine ⟨?_, h.settings, fun c d hc hd => ?_, fun c hc => ?_, fun d hd => ?_, fun q hq => ?_, fun q => ?_⟩
    · rw [State.put_esu, esu, after]
    · by_cases same : c.val = n
      · obtain rfl : c = ⟨n, few⟩ := Fin.ext same
        obtain rfl : e = d := Option.some_injective _ (entry.symm.trans hd)
        rw [State.put_port, State.put_esu, esu]
        refine ⟨by simp [Local.granted], by simp [Local.granted], ?_⟩
        exact fun none_there => Option.some_ne_none _ ((Vector.getElem_set_self few).symm.trans none_there)
      · obtain ⟨tune, channel, busy⟩ := h.served c d (by omega) hd
        rw [State.put_port_of_ne (apart c.val d hd same), State.put_esu, esu]
        refine ⟨tune, channel, ?_⟩
        show (u.esu.channels.set n _)[c.val] ≠ none
        rw [Vector.getElem_set_ne few c.isLt fun eq => same eq.symm]
        exact busy
    · rw [State.put_esu, esu]
      show (u.esu.channels.set n _)[c.val] = none
      rw [Vector.getElem_set_ne few c.isLt (by omega)]
      exact h.free c (by omega)
    · rw [after] at hd
      rw [State.put_port_of_ne (others d hd)]
      exact h.waits d (by rw [left]; exact List.mem_cons_of_mem _ hd)
    · rw [State.put_port_of_ne fun same => hq e member same.symm]
      exact h.aside q hq
    · by_cases same : q = e.port
      · rw [same, State.put_port]
        exact (h.tried e.port).trans (Local.granted_tried (u.whole e.port) _ _ _ _)
      · rw [State.put_port_of_ne same]
        exact h.tried q

/-- The grant test from free channels serves the first four of the queue. -/
theorem granting_of_free (queue : w.esu.queue = Q) (free : ∀ c : ChanIx, w.esu.channels[c] = none) (limit : w.settings.sweepLimit = 4)
    (once : (Q.map QueueEntry.port).Nodup) (await : ∀ e ∈ Q, (w.port e.port).state = .awaitSlot) : Granting w Q 4 w.grantTest := by
  have none_yet : Granting w Q 0 w :=
    ⟨queue, rfl, fun c _ hc => absurd hc (Nat.not_lt_zero _), fun c _ => free c, fun _ _ => rfl, fun _ _ => rfl, fun _ => .refl _⟩
  have one := none_yet.step limit once await (by decide)
  have two := one.step limit once await (by decide)
  have three := two.step limit once await (by decide)
  exact three.step limit once await (by decide)

/-! ### The queue the ports rejoin -/

/-- The ports that go back to the queue, of one class, in ascending order. -/
def State.backOf (s : State) (k : CycleClass) : List QueueEntry :=
  (allPorts.filter fun p => decide ((s.port p).state = .tune ∧ (s.port p).mode ≠ .step ∧ (s.port p).cycle = k)).map fun p => ⟨p, k⟩

/-- The entries of a class among those that rejoin (R132). -/
theorem State.returning_filter (h : ∀ p ∈ s.tuning, (s.port p).Tried (t.port p)) (k : CycleClass) :
    (t.returning s.tuning).filter (fun e => decide (e.cycle = k)) = s.backOf k := by
  have modes : s.tuning.filter (fun p => decide ((t.port p).mode ≠ .step)) =
      s.tuning.filter fun p => decide ((s.port p).mode ≠ .step) :=
    List.filter_congr fun p hp => by rw [(h p hp).mode]
  have cycles : (s.tuning.filter fun p => decide ((s.port p).mode ≠ .step)).map
        (fun p => ({ port := p, cycle := (t.port p).cycle } : QueueEntry)) =
      (s.tuning.filter fun p => decide ((s.port p).mode ≠ .step)).map fun p => ({ port := p, cycle := (s.port p).cycle } : QueueEntry) :=
    List.map_congr_left fun p hp => by rw [(h p (List.mem_filter.1 hp).1).cycle]
  rw [State.returning, modes, cycles, List.filter_map, State.tuning, List.filter_filter, List.filter_filter, State.backOf]
  have same : allPorts.filter (fun p => ((fun e : QueueEntry => decide (e.cycle = k)) ∘ fun p =>
        ({ port := p, cycle := (s.port p).cycle } : QueueEntry)) p && decide ((s.port p).mode ≠ .step) &&
        decide ((s.port p).state = .tune)) =
      allPorts.filter fun p => decide ((s.port p).state = .tune ∧ (s.port p).mode ≠ .step ∧ (s.port p).cycle = k) := by
    refine List.filter_congr fun p _ => ?_
    rw [Bool.eq_iff_iff]
    simp only [Function.comp_apply, Bool.and_eq_true, decide_eq_true_eq]
    tauto
  rw [same]
  refine List.map_congr_left fun p hp => ?_
  have matching := (List.mem_filter.1 hp).2
  simp only [decide_eq_true_eq] at matching
  rw [matching.2.2]

/-- What the ESU block reset does before it grants. -/
structure Rejoined (s w : State) : Prop where
  queue : w.esu.queue = s.backOf .retrain ++ s.esu.queue.filter (fun e => decide (e.cycle = .retrain)) ++ s.backOf .initial ++
    s.esu.queue.filter fun e => decide (e.cycle = .initial)
  free : ∀ c : ChanIx, w.esu.channels[c] = none
  limit : w.settings.sweepLimit = 4
  once : (w.esu.queue.map QueueEntry.port).Nodup
  await : ∀ e ∈ w.esu.queue, (w.port e.port).state = .awaitSlot
  sent : ∀ p, (s.port p).state = .tune → (s.port p).SentBack (w.port p)
  others : ∀ p, (s.port p).state ≠ .tune → w.port p = s.port p
  queued : ∀ p, (∃ e ∈ w.esu.queue, e.port = p) ↔
    (s.port p).state = .tune ∧ (s.port p).mode ≠ .step ∨ (s.port p).state = .awaitSlot

/-- The queue rejoined by the ports sent back, and the limit at 4 (R132). -/
def State.rejoin (s t : State) : State :=
  (t.setEsu { t.esu with queue := queueReturn (t.returning s.tuning) t.esu.queue }).setSettings { t.settings with sweepLimit := 4 }

theorem State.rejoin_rejoined (slots : s.slots) (sent : ∀ p ∈ s.tuning, (s.port p).SentBack (t.port p))
    (others : ∀ p, p ∉ s.tuning → t.port p = s.port p) (esu : t.esu = { s.esu with channels := Vector.replicate 4 none }) :
    Rejoined s (s.rejoin t) := by
  have perm : (queueReturn (t.returning s.tuning) t.esu.queue).Perm (t.returning s.tuning ++ s.esu.queue) := by
    rw [esu]; exact queueReturn_perm _ _
  have returned : ∀ p, (∃ e ∈ t.returning s.tuning, e.port = p) ↔ (s.port p).state = .tune ∧ (s.port p).mode ≠ .step := fun p => by
    simp only [State.returning, List.mem_map, List.mem_filter, decide_eq_true_eq, exists_exists_and_eq_and, exists_eq_right,
      s.mem_tuning]
    exact and_congr_right fun tune => by rw [(sent p ((s.mem_tuning p).2 tune)).tried.mode]
  have queued : ∀ p, (∃ e ∈ queueReturn (t.returning s.tuning) t.esu.queue, e.port = p) ↔
      (s.port p).state = .tune ∧ (s.port p).mode ≠ .step ∨ (s.port p).state = .awaitSlot := fun p => by
    simp only [perm.mem_iff, List.mem_append, or_and_right, exists_or]
    rw [returned, slots.queued]
  refine ⟨?_, fun c => ?_, rfl, ?_, fun e he => ?_, fun p tune => sent p ((s.mem_tuning p).2 tune),
    fun p other => others p fun tune => other ((s.mem_tuning p).1 tune), queued⟩
  · show queueReturn (t.returning s.tuning) t.esu.queue = _
    have tried : ∀ p ∈ s.tuning, (s.port p).Tried (t.port p) := fun p hp => (sent p hp).tried
    rw [queueReturn, State.returning_filter tried, State.returning_filter tried, esu]
  · show t.esu.channels[c] = none
    rw [esu]
    exact Vector.getElem_replicate c.isLt
  · show ((queueReturn (t.returning s.tuning) t.esu.queue).map QueueEntry.port).Nodup
    rw [(perm.map _).nodup_iff, List.map_append, List.nodup_append]
    refine ⟨?_, slots.once, fun p hp q hq same => ?_⟩
    · rw [State.returning, List.map_map]
      exact (s.tuning_nodup.filter _).map fun _ _ eq => eq
    · obtain ⟨e, he, rfl⟩ := List.mem_map.1 hp
      obtain ⟨d, hd, rfl⟩ := List.mem_map.1 hq
      have waits := (slots.queued d.port).2 ⟨d, hd, rfl⟩
      have tune := ((returned e.port).1 ⟨e, he, rfl⟩).1
      rw [same, waits] at tune
      cases tune
  · show (t.port e.port).state = .awaitSlot
    rcases (queued e.port).1 ⟨e, he, rfl⟩ with ⟨tune, mode⟩ | await
    · exact (sent e.port ((s.mem_tuning _).2 tune)).waits mode
    · rw [others e.port fun tune => by rw [(s.mem_tuning _).1 tune] at await; cases await]
      exact await
theorem State.esuReset_rejoins (slots : s.slots) : ∃ w : State, Rejoined s w ∧ s.esuReset = w.grantTest := by
  obtain ⟨sent, others, esu⟩ := State.sendBacks s.tuning s.tuning_nodup
    (s.setEsu { s.esu with channels := Vector.replicate 4 none }) (fun p hp => (s.mem_tuning p).1 hp)
    fun c => Vector.getElem_replicate c.isLt
  exact ⟨_, State.rejoin_rejoined slots sent others esu, rfl⟩


/-- What a port that rejoined keeps, whether it was sent back or not. -/
theorem Rejoined.tried (h : Rejoined s w) (p : PortIx) : (s.port p).Tried (w.port p) := by
  by_cases tune : (s.port p).state = .tune
  · exact (h.sent p tune).tried
  · rw [h.others p tune]; exact .refl _

/-- Settles O45: the ports of TUNE sent back to their classes, then up to four grants in a row. -/
theorem esuBlockResetSendsPortsBack : Obligations.EsuBlockResetSendsPortsBack := by
  intro s slots back old queue
  obtain ⟨w, joined, runs⟩ := State.esuReset_rejoins (s := s.opened) (State.slots_of_view slots rfl)
  have granting := granting_of_free (w := w) rfl joined.free joined.limit joined.once joined.await
  have queue_eq : w.esu.queue = queue := joined.queue
  obtain ⟨v, moves, reset⟩ := State.esuReset_eq (w := true) s.opened
  have after := (v.setSettings { v.settings with sweepLimit := 4 }).grantTest_moves (w := true)
  rw [← reset] at after
  rw [← runs] at granting
  have run : exec .esuBlockReset s = ((s.opened.esuReset).accept .esuBlockReset []).done := rfl
  generalize s.opened.esuReset = u at *
  obtain ⟨t, ran, ends⟩ := State.done_ends (u.accept .esuBlockReset [])
  have port : ∀ p, t.port p = u.port p := ends.ports
  have esu : t.esu = u.esu := ends.esu
  have kept : ∀ p, (s.port p).Tried (t.port p) := fun p => by
    rw [port]; exact (joined.tried p).trans (granting.tried p)
  have outside : ∀ p, ¬((s.port p).state = .tune ∧ (s.port p).mode ≠ .step ∨ (s.port p).state = .awaitSlot) →
      t.port p = w.port p := fun p not => by
    rw [port]
    exact granting.aside p fun e he same => not ((joined.queued p).1 ⟨e, he, same⟩)
  have mpt : u.mpt = s.mpt := after.mpt.trans moves.mpt
  refine ⟨t, run.trans ran, ?_, ends.plan.trans (after.plan.trans moves.plan), ends.identity.trans (after.identity.trans moves.identity),
    ends.time.trans (after.time.trans moves.time), ends.mpt.trans (congrArg (fun m : Mpt => m.answer .esuBlockReset .ok []) mpt),
    fun p tune await => ?_, fun p => ?_, fun p tune step => ?_, fun p waits => ?_, ?_, fun c => ?_⟩
  · have settings : v.settings = s.settings := moves.settings
    rw [ends.settings]
    show u.settings = _
    rw [after.settings, State.setSettings_settings, settings]
  · rw [outside p fun either => either.elim (fun both => tune both.1) await]
    exact joined.others p tune
  · have tried := kept p
    exact ⟨tried.attempts, tried.counters, tried.cycle, tried.map, tried.width, tried.eq⟩
  · have sent := joined.sent p tune
    rw [outside p fun either => either.elim (fun both => both.2 step) fun await => by rw [tune] at await; cases await]
    exact ⟨(sent.paused step).1, (sent.paused step).2, sent.channel⟩
  · obtain ⟨e, he, rfl⟩ := (joined.queued p).2 waits
    obtain ⟨m, hm, rfl⟩ := List.mem_iff_getElem.1 he
    rw [port]
    by_cases early : m < 4
    · exact .inl (granting.served ⟨m, early⟩ _ early (List.getElem?_eq_getElem hm)).1
    · refine .inr ?_
      rw [granting.waits _ ?_]
      · exact joined.await _ he
      · refine List.mem_iff_getElem.2 ⟨m - 4, by rw [List.length_drop]; omega, ?_⟩
        rw [List.getElem_drop]
        congr 1
        omega
  · rw [esu, granting.queue, queue_eq]
  · have served := granting.served c
    have free := granting.free c
    rw [queue_eq] at served free
    cases entry : queue[c.val]? with
    | none => rw [esu]; exact free (.inr (List.getElem?_eq_none_iff.1 entry))
    | some e =>
      obtain ⟨tune, channel, _⟩ := served e c.isLt entry
      dsimp only
      rw [port]
      exact ⟨tune, channel⟩

end Sys2Proof.Machine
end

section
/-! SUPPORT. The expiries of a port's stage timer (R60, R63, R90, R112, R136), and the derivation as an operation on what one port's
operations change (R64, R72). -/

namespace Sys2Proof.Machine

variable {s u : State} {p : PortIx} {k j : Local} {l : LanePos} {n : Snapshot} {x : Port} {g : Settings}

/-! ### CONSULT (R106) -/

/-- What the entry into CONSULT writes (R106). -/
def Port.consults (g : Settings) (x : Port) : Port := { x with accepted := false, stageTimer := secondsTimer g.consult }

/-- The entry into CONSULT. -/
def Local.enterConsult (k : Local) (p : PortIx) (g : Settings) (n : Snapshot) : Local :=
  (k.tell (portReports p [k.port.consultDetail n])).transition p g .consult (Port.consults g)

theorem State.put_enterConsult (s : State) (p : PortIx) (k : Local) (n : Snapshot) :
    (s.put p k).enterConsult p n = s.put p (k.enterConsult p s.settings n) := by
  rw [State.enterConsult, State.put_port, State.put_postPort, State.put_settings, State.put_transition]
  rfl

@[simp] theorem Local.enterConsult_esu (k : Local) (p : PortIx) (g : Settings) (n : Snapshot) :
    (k.enterConsult p g n).esu = k.undoneEsu p := by rw [Local.enterConsult, Local.transition_esu, Local.undoneEsu_tell]

@[simp] theorem Local.enterConsult_counters (k : Local) (p : PortIx) (g : Settings) (n : Snapshot) :
    (k.enterConsult p g n).port.counters = k.port.counters := by
  rw [Local.enterConsult, Local.transition_counters, Port.consults, Local.left_counters, Local.tell_port]

/-! ### The derivation (R64) -/

/-- What the derivation found, written (R65, R66). -/
def Local.derived (k : Local) (d : Derived) : Local := k.modPort fun x => { x with neighbour := d.neighbour, verdict := d.verdict }

/-- The map, class and width, written (R72). -/
def Local.mapWritten (k : Local) (m : Vector MapEntry 8 × MapClass × Width) : Local :=
  k.modPort fun x => { x with map := m.1, mapClass := some m.2.1, width := some m.2.2 }

theorem State.put_derivation_error {r : FaultReason} (snapshot : k.port.snapshot = some n) (tune : k.port.state ≠ .tune)
    (found : (derive n k.port.usables).outcome = .error r) :
    (s.put p k).derivation p = s.put p ((k.derived (derive n k.port.usables)).enterFaulted p s.settings r) := by
  rw [State.derivation, State.put_port, snapshot]
  dsimp only
  rw [found, State.put_modPort]
  exact State.put_enterFaulted (k := k.derived (derive n k.port.usables)) r tune

theorem State.put_derivation_ok {m : Vector MapEntry 8 × MapClass × Width} (snapshot : k.port.snapshot = some n)
    (found : (derive n k.port.usables).outcome = .ok m) : (s.put p k).derivation p =
      (s.put p (k.derived (derive n k.port.usables))).decide8 p n (derive n k.port.usables).verdict m := by
  rw [State.derivation, State.put_port, snapshot]
  dsimp only
  rw [found, State.put_modPort]
  rfl

theorem State.put_decide8_asks {v : Option Verdict} {m : Vector MapEntry 8 × MapClass × Width} (asks : n.entry.kind = .ask ∨ v = some .mismatch) :
    (s.put p k).decide8 p n v m = s.put p ((k.mapWritten m).enterConsult p s.settings n) := by
  rw [State.decide8, State.put_modPort]
  exact (if_pos asks).trans (State.put_enterConsult s p (k.mapWritten m) n)

theorem State.put_decide8_goes {v : Option Verdict} {m : Vector MapEntry 8 × MapClass × Width}
    (goes : ¬(n.entry.kind = .ask ∨ v = some .mismatch)) :
    (s.put p k).decide8 p n v m = (s.put p (k.mapWritten m)).byMode p := by
  rw [State.decide8, State.put_modPort]
  exact if_neg goes

/-! ### Discovery's end -/

theorem Port.usables_eq_nil (h : ∀ l, x.usable l = false) : x.usables = [] := by
  simp [Port.usables, h]

theorem Port.usables_ne_nil (h : x.usable l = true) (last : (x.lane l).rx.lastStable ≠ none) : x.usables ≠ [] := by
  obtain ⟨i, stable⟩ := Option.ne_none_iff_exists'.1 last
  refine List.ne_nil_of_mem (a := (l, i)) ?_
  rw [Port.usables, List.mem_filterMap]
  exact ⟨l, mem_allLanes l, by rw [if_pos h, stable]; rfl⟩

theorem Port.cabled_of (h : x.snapshot = some n) : x.cabled = decide (n.entry.kind ≠ .unused) := by
  rw [Port.cabled, h, Option.any_some]

theorem State.put_discoveryExpiry_noCable (snapshot : k.port.snapshot = some n) (kind : n.entry.kind ≠ .unused)
    (tune : k.port.state ≠ .tune) (none_ : k.port.usables = []) :
    (s.put p k).discoveryExpiry p = s.put p (k.enterFaulted p s.settings .noCable) := by
  rw [State.discoveryExpiry, State.put_port, Port.cabled_of snapshot, if_pos (decide_eq_true kind), if_pos none_,
    State.put_enterFaulted _ tune]

theorem State.put_discoveryExpiry_derives (snapshot : k.port.snapshot = some n) (kind : n.entry.kind ≠ .unused)
    (some_ : k.port.usables ≠ []) : (s.put p k).discoveryExpiry p = (s.put p k).derivation p := by
  rw [State.discoveryExpiry, State.put_port, Port.cabled_of snapshot, if_pos (decide_eq_true kind), if_neg some_]

theorem State.put_discoveryExpiry_unexpected (snapshot : k.port.snapshot = some n) (kind : n.entry.kind = .unused)
    (tune : k.port.state ≠ .tune) (heard : k.port.heardLock = true) :
    (s.put p k).discoveryExpiry p = s.put p (k.enterFaulted p s.settings .unexpectedCable) := by
  rw [State.discoveryExpiry, State.put_port, Port.cabled_of snapshot, if_neg (by simp [kind]), if_pos heard,
    State.put_enterFaulted _ tune]

theorem State.put_discoveryExpiry_dark (snapshot : k.port.snapshot = some n) (kind : n.entry.kind = .unused)
    (silent : k.port.heardLock = false) :
    (s.put p k).discoveryExpiry p = s.put p (k.transition p s.settings .dark id) := by
  rw [State.discoveryExpiry, State.put_port, Port.cabled_of snapshot, if_neg (by simp [kind]), if_neg (by simp [silent]),
    State.put_transition]

/-! ### The expiries of a timer that runs -/

section Running

variable (timed : (s.port p).timed = true)
include timed

theorem exec_discoveryTimerExpiry_of_runs (state : (s.port p).state = .discover) :
    exec (.discoveryTimerExpiry p) s = ((s.put p (s.held p)).discoveryExpiry p).done := by
  show execDiscoveryTimerExpiry p s = _
  rw [execDiscoveryTimerExpiry, if_pos ⟨state, timed⟩, State.opened_eq_put s p]

theorem exec_consultTimerExpiry_of_runs (state : (s.port p).state = .consult) :
    exec (.consultTimerExpiry p) s = ((s.put p (s.held p)).enterFaulted p .consultTimeout).done := by
  show execConsultTimerExpiry p s = _
  rw [execConsultTimerExpiry, if_pos ⟨state, timed⟩, State.opened_eq_put s p]

theorem exec_farEndWaitExpiry_of_runs (state : (s.port p).state.waitsFarEnd = true) :
    exec (.farEndWaitExpiry p) s = ((s.put p (s.held p)).enterFaulted p .farEndStall).done := by
  show execFarEndWaitExpiry p s = _
  rw [execFarEndWaitExpiry, if_pos ⟨state, timed⟩, State.opened_eq_put s p]

end Running

/-- Settles O51: each expiry enters FAULTED with its reason, or takes discovery's port to the stage that its derivation leads to. -/
theorem stageTimersEndTheirStages : Obligations.StageTimersEndTheirStages := by
  intro p u n s x faulted same timer runs snapshot
  have timed : (s.port p).timed = true := by
    rw [Port.timed, show (s.port p).stageTimer = some u from timer, Option.any_some, runs]; rfl
  have faulted_of : ∀ {t : State} {k : Local} {r : FaultReason}, Became p s (k.enterFaulted p s.settings r) t →
      { k.port with neighbour := x.neighbour, verdict := x.verdict } = x → x.state ≠ .tune → x.state ≠ .awaitSlot → k.esu = s.esu →
      k.told = [] → k.kept = [] → faulted r t := by
    intro t k r became from_x tune await esu told kept
    have field : ∀ {α : Type} (f : Port → α), f { k.port with neighbour := x.neighbour, verdict := x.verdict } = f x :=
      fun f => congrArg f from_x
    have state : k.port.state = x.state := field Port.state
    have counters : k.port.counters = x.counters := field Port.counters
    have arrives := k.enterFaulted_arrives p s.settings r
    have counted := k.enterFaulted_counters p s.settings r
    simp only [counters] at counted
    refine ⟨became.toOnlyPort, ?_, ?_⟩
    · rw [became.esu, Local.enterFaulted_esu, Local.undoneEsu_of_ne (by rw [state]; exact tune) (by rw [state]; exact await), esu]
    rw [became.port]
    refine ⟨arrives.state, arrives.fault, arrives.stageTimer, counted, arrives.course.snapshot.trans (field Port.snapshot),
      arrives.course.map.trans (field Port.map), arrives.course.mapClass.trans (field Port.mapClass),
      arrives.course.width.trans (field Port.width), arrives.course.accepted.trans (field Port.accepted),
      arrives.attempts.trans (field Port.attempts), arrives.cycle.trans (field Port.cycle),
      arrives.course.unstable.trans (field Port.unstable), fun still fits => ?_⟩
    have lanes : ∀ l, k.port.lane l = s.lane p l := fun l => field (·.lane l)
    rw [became.reports, Local.enterFaulted_told (fun l => by rw [lanes]; exact (still l).1) (fun l => by rw [lanes]; exact (still l).2),
      Local.enterFaulted_kept _ _ _ _ (by simp only [counters]; exact fits), told, kept, state, arrives.course.neighbour,
      show k.port.cycle = x.cycle from field Port.cycle, show k.port.attempts = x.attempts from field Port.attempts]
    rfl
  have ends : ∀ {c : Instr} {v : State} {r : FaultReason}, exec c s = v.done → v = s.put p ((s.held p).enterFaulted p s.settings r) →
      x.state ≠ .tune → x.state ≠ .awaitSlot → ∃ t, exec c s = .next t ∧ faulted r t ∧ same t ∧
        (t.port p).qualify = x.qualify.map fun q => { q with begun := false } := by
    intro c v r ends put tune await
    obtain ⟨t, runs, became⟩ := became_of_done ends put
    have arrives := (s.held p).enterFaulted_arrives p s.settings r
    refine ⟨t, runs, faulted_of became rfl tune await rfl rfl rfl, ?_⟩
    show ((t.port p).neighbour = x.neighbour ∧ (t.port p).verdict = x.verdict) ∧ _
    rw [became.port]
    exact ⟨⟨arrives.course.neighbour, arrives.course.verdict⟩, Local.enterFaulted_qualify _ p _ r⟩
  refine ⟨?_, ?_, ?_, ?_⟩
  · intro discover kind
    have state : (s.held p).port.state = .discover := discover
    have tune : (s.held p).port.state ≠ .tune := by rw [state]; decide
    have await : (s.held p).port.state ≠ .awaitSlot := by rw [state]; decide
    have runs := exec_discoveryTimerExpiry_of_runs timed discover
    refine ⟨fun unusable => ?_, ?_⟩
    · obtain ⟨t, runs, fault, kept, _⟩ := ends runs
        (State.put_discoveryExpiry_noCable (k := s.held p) snapshot kind tune (Port.usables_eq_nil unusable)) tune await
      exact ⟨t, runs, fault, kept⟩
    rintro ⟨l, usable, last⟩ d
    rw [State.put_discoveryExpiry_derives (k := s.held p) snapshot kind (Port.usables_ne_nil usable last)] at runs
    refine ⟨fun r found => ?_, fun m c w found disc => ?_⟩
    · obtain ⟨t, runs, became⟩ := became_of_done runs (State.put_derivation_error (k := s.held p) snapshot tune found)
      have arrives := ((s.held p).derived d).enterFaulted_arrives p s.settings r
      refine ⟨t, runs, faulted_of became rfl tune await rfl rfl rfl, ?_⟩
      rw [became.port]
      exact ⟨arrives.course.neighbour, arrives.course.verdict⟩
    · rw [State.put_derivation_ok (k := s.held p) snapshot found] at runs
      let k := ((s.held p).derived d).mapWritten (m, c, w)
      have stays : k.undoneEsu p = s.esu := Local.undoneEsu_of_ne tune await
      have goes_of : ∀ {t : State} {j : Local} {z : PortState} {pending fault timer'}, k.Arrives j z pending fault timer' →
          Became p s j t → j.esu = k.undoneEsu p → j.port.counters = k.port.counters →
          OnlyPort p s t ∧ t.esu = s.esu ∧ (t.port p).neighbour = d.neighbour ∧ (t.port p).verdict = d.verdict ∧ (t.port p).map = m ∧
            (t.port p).mapClass = some c ∧ (t.port p).width = some w ∧ (t.port p).snapshot = some n ∧
            (t.port p).counters = x.counters := by
        intro t j z pending fault timer' arrives became esu counters
        rw [became.port, became.esu, esu]
        exact ⟨became.toOnlyPort, stays, arrives.course.neighbour, arrives.course.verdict, arrives.course.map, arrives.course.mapClass,
          arrives.course.width, arrives.course.snapshot.trans snapshot, counters⟩
      by_cases asks : n.entry.kind = .ask ∨ d.verdict = some .mismatch
      · obtain ⟨t, runs, became⟩ := became_of_done runs (State.put_decide8_asks asks)
        have timer : (k.enterConsult p s.settings n).port.stageTimer = _ := Local.transition_stageTimer _ p s.settings _ (by decide)
        refine ⟨t, runs, became.toOnlyPort, ?_⟩
        rw [became.port, became.esu, Local.enterConsult_esu, Local.enterConsult_counters, if_pos asks]
        simp only [Local.enterConsult, Local.transition_neighbour, Local.transition_verdict, Local.transition_map,
          Local.transition_mapClass, Local.transition_width, Local.transition_snapshot, Local.transition_state,
          Local.transition_accepted, Port.consults, Local.left_neighbour, Local.left_verdict, Local.left_map, Local.left_mapClass,
          Local.left_width, Local.left_snapshot]
        exact ⟨stays, rfl, rfl, rfl, rfl, rfl, snapshot, rfl, trivial, timer, trivial⟩
      replace runs := runs.trans (congrArg State.done (State.put_decide8_goes (k := (s.held p).derived d) asks))
      by_cases verify : x.mode = .verify
      · obtain ⟨t, runs, became⟩ := became_of_done runs (State.put_byMode_verify (k := k) verify)
        have arrives := Local.transition_arrives (z := .verified) stages_id (by decide) k p s.settings
        obtain ⟨only, esu, neighbour, verdict, map, mapClass, width, snap, counters⟩ := goes_of arrives became Local.transition_esu
          (Local.transition_counters_of_stages stages_id k p _ _)
        refine ⟨t, runs, only, esu, neighbour, verdict, map, mapClass, width, snap, counters, ?_⟩
        rw [if_neg asks, if_pos verify, became.port]
        exact ⟨arrives.state, arrives.stageTimer⟩
      by_cases step : x.mode = .step
      · obtain ⟨t, runs, became⟩ := became_of_done runs (State.put_byMode_step (k := k) step)
        have arrives := k.enterPaused_arrives p s.settings .peerWait
        obtain ⟨only, esu, neighbour, verdict, map, mapClass, width, snap, counters⟩ :=
          goes_of arrives became (Local.enterPaused_esu ..) (Local.enterPaused_counters ..)
        refine ⟨t, runs, only, esu, neighbour, verdict, map, mapClass, width, snap, counters, ?_⟩
        rw [if_neg asks, if_neg verify, if_pos step, became.port]
        exact ⟨arrives.state, arrives.pending⟩
      · have behind : k.port.peerBehind := .inl (.inl fun l f far => by rw [disc l f far]; exact List.mem_singleton_self _)
        obtain ⟨t, runs, became⟩ := became_of_done runs
          (State.put_byMode_waits (k := k) verify step (Local.enterPeerWait_behind behind))
        have arrives := k.enterPeerWait_arrives p s.settings
        obtain ⟨only, esu, neighbour, verdict, map, mapClass, width, snap, counters⟩ :=
          goes_of arrives became (Local.enterPeerWait_esu ..) (Local.enterPeerWait_counters ..)
        refine ⟨t, runs, only, esu, neighbour, verdict, map, mapClass, width, snap, counters, ?_⟩
        rw [if_neg asks, if_neg verify, if_neg step, became.port]
        exact ⟨arrives.state, arrives.stageTimer⟩
  · intro discover kind
    have state : (s.held p).port.state = .discover := discover
    have tune : (s.held p).port.state ≠ .tune := by rw [state]; decide
    have await : (s.held p).port.state ≠ .awaitSlot := by rw [state]; decide
    have runs := exec_discoveryTimerExpiry_of_runs timed discover
    refine ⟨fun heard => ?_, fun silent => ?_⟩
    · obtain ⟨t, runs, fault, kept, _⟩ := ends runs
        (State.put_discoveryExpiry_unexpected (k := s.held p) snapshot kind tune (Port.heardLock_eq_true.2 heard)) tune await
      exact ⟨t, runs, fault, kept⟩
    · have quiet : (s.held p).port.heardLock = false := by
        rw [Bool.eq_false_iff, Ne, Port.heardLock_eq_true]
        rintro ⟨l, free, heard⟩
        exact heard.elim (silent l free).1 (silent l free).2
      obtain ⟨t, runs, became⟩ := became_of_done runs (State.put_discoveryExpiry_dark snapshot kind quiet)
      have arrives := Local.transition_arrives (z := .dark) stages_id (by decide) (s.held p) p s.settings
      refine ⟨t, runs, became.toOnlyPort, ?_⟩
      show _ ∧ ((t.port p).neighbour = x.neighbour ∧ (t.port p).verdict = x.verdict) ∧ _
      rw [became.port]
      exact ⟨arrives.state, ⟨arrives.course.neighbour, arrives.course.verdict⟩, arrives.stageTimer,
        arrives.course.snapshot.trans snapshot, Local.transition_counters_of_stages stages_id _ p _ _⟩
  · intro consult
    have state : (s.held p).port.state = .consult := consult
    have tune : (s.held p).port.state ≠ .tune := by rw [state]; decide
    obtain ⟨t, runs, fault, kept, _⟩ := ends (exec_consultTimerExpiry_of_runs timed consult)
      (State.put_enterFaulted _ tune) tune (by rw [show x.state = _ from consult]; decide)
    exact ⟨t, runs, fault, kept⟩
  · intro waits
    have tune : x.state ≠ .tune := by rcases waits with h | h | h <;> rw [h] <;> decide
    have await : x.state ≠ .awaitSlot := by rcases waits with h | h | h <;> rw [h] <;> decide
    have far : (s.port p).state.waitsFarEnd = true := by
      rcases waits with h | h | h <;> rw [show (s.port p).state = _ from h] <;> rfl
    obtain ⟨t, runs, fault, kept, qualify⟩ := ends (exec_farEndWaitExpiry_of_runs timed far) (State.put_enterFaulted _ tune) tune await
    exact ⟨t, runs, fault, kept, fun q had => by rw [qualify, had]; rfl⟩

end Sys2Proof.Machine
end

section
/-! SUPPORT. A port that leaves its state for good, the grant test following where it left TUNE (R94, R131), and the events of a lane as
its port takes them (R10, R11, R85, R95, R96, R113, R114). -/

namespace Sys2Proof.Machine

variable {s t u : State} {p q : PortIx} {k j : Local} {l : LanePos} {c d : ChanIx} {e : Esu} {x : Port} {v : LaneEvent} {y : Detail}

/-! ### What one grant posts -/

theorem lanesKept_channel (c : ChanIx) : LanesKept fun x => { x with channel := some c } := fun _ _ => rfl

theorem Local.granted_told {clock : Word} {g : Settings} (still : k.port.Still) : (k.granted p clock g c).told =
    k.told ++ portReports p [.portState k.port.state .tune none none k.port.cycle k.port.attempts] := by
  have served : (k.setEsu { channels := k.esu.channels.set c (some (k.sweep p clock c)), queue := k.esu.queue.tail
                            grants := k.esu.grants + 1 }).port.Still := still
  rw [Local.granted, Local.transition_told (lanesKept_channel c) served (.inl ⟨by decide, by decide⟩)]
  simp [portReports]

theorem Local.granted_kept {clock : Word} {g : Settings} : (k.granted p clock g c).kept = k.kept := Local.transition_kept

/-- Where some channel is free, one is the lowest. -/
theorem Esu.exists_lowest (h : e.channels[c] = none) :
    ∃ d : ChanIx, e.channels[d] = none ∧ ∀ b : ChanIx, b < d → e.channels[b] ≠ none := by
  obtain ⟨d, free, lowest⟩ := WellFounded.has_min (wellFounded_lt (α := ChanIx)) {b | e.channels[b] = none} ⟨c, h⟩
  exact ⟨d, free, fun b before busy => lowest b busy before⟩

/-! ### A port leaves its state -/

/-- What one port's operations have changed so far leaves its state, its channel and the ESU as the command found them. -/
structure Local.Stands (s : State) (p : PortIx) (k : Local) : Prop where
  esu : k.esu = s.esu
  state : k.port.state = (s.port p).state
  channel : k.port.channel = (s.port p).channel

/-- The end of a command by which a port has left its state, and where that was TUNE the grant test has followed (R131). -/
structure Departs (p : PortIx) (s : State) (j : Local) (t : State) : Prop where
  port : t.port p = j.port
  became : (s.port p).state ≠ .tune → Became p s j t
  freed : ∀ c, (s.port p).state = .tune → (s.port p).channel = some c → Freed p c s t
  unwaited : (s.port p).state = .tune → s.esu.queue = [] → t.reports = s.reports.enterAll s.time.clock (j.told ++ j.kept)
  granted : ∀ (c : ChanIx) (e : QueueEntry) (q : List QueueEntry), (s.port p).state = .tune → (s.port p).channel = some c →
    s.esu.queue = e :: q → s.settings.sweepLimit = s.esu.busy → (∀ k, (s.lane e.port k).autoLoop = false) →
    t.reports = s.reports.enterAll s.time.clock (j.told ++
      portReports e.port [.portState .awaitSlot .tune none none (s.port e.port).cycle (s.port e.port).attempts] ++ j.kept)

theorem Departs.lane (h : Departs p s j t) (l : LanePos) : t.lane p l = j.port.lane l := by rw [State.lane, h.port]

/-- The reports of a grant that follows an aborted sweep. -/
theorem State.freed_reports (slots : s.slots) (tune : (s.port p).state = .tune) (channel : (s.port p).channel = some c)
    (esu : k.esu = s.esu.free c) {x : QueueEntry} {xs : List QueueEntry} (queue : s.esu.queue = x :: xs)
    (limit : s.settings.sweepLimit = s.esu.busy) (still : ∀ k, (s.lane x.port k).autoLoop = false)
    (ends : Ends ((s.put p k).grantTest) t) : t.reports = s.reports.enterAll s.time.clock (k.told ++
      portReports x.port [.portState .awaitSlot .tune none none (s.port x.port).cycle (s.port x.port).attempts] ++ k.kept) := by
  obtain ⟨w, busy, _⟩ := (slots.tuned p c).1 ⟨tune, channel⟩
  have freed : (s.esu.free c).channels[c] = none := Vector.getElem_set_self c.isLt
  obtain ⟨d, free, lowest⟩ := Esu.exists_lowest freed
  obtain ⟨other, j, hj, granted, _⟩ := State.freed_grants (k := k) slots tune esu queue
    ((Esu.busy_free busy).trans limit.symm) free lowest
  have here : ((s.put p k).whole x.port).port = s.port x.port := State.put_port_of_ne other
  have still' : ((s.put p k).whole x.port).port.Still := by rw [here]; exact still
  have told : j.told = portReports x.port [.portState .awaitSlot .tune none none (s.port x.port).cycle (s.port x.port).attempts] := by
    rw [hj, Local.granted_told still', here, (slots.head queue).1]
    rfl
  have kept : j.kept = k.kept := by rw [hj, Local.granted_kept]; rfl
  rw [granted] at ends
  rw [ends.reports]
  show ((s.reports.enterAll s.time.clock k.told).enterAll s.time.clock j.told).enterAll s.time.clock j.kept = _
  rw [told, kept, State.enterAll_append, State.enterAll_append, List.append_assoc]

/-- A command that takes a port out of its state, and tests for a grant where that was TUNE. -/
theorem departs_of_done {i : Instr} (stands : k.Stands s p) (slots : (s.port p).state ≠ .tune ∨ s.slots) (esu : j.esu = k.undoneEsu p)
    (runs : exec i s = u.done) (ends : u = (s.put p j).afterAbort (s.port p).state) : ∃ t, exec i s = .next t ∧ Departs p s j t := by
  by_cases tune : (s.port p).state = .tune
  · have slots := slots.resolve_left fun other => other tune
    rw [State.afterAbort, if_pos tune] at ends
    obtain ⟨t, run, after⟩ := u.done_ends
    rw [ends] at after
    have free : ∀ {c}, (s.port p).channel = some c → j.esu = s.esu.free c := fun channel =>
      esu.trans (Local.undoneEsu_of_channel slots tune channel (stands.state.trans tune) stands.channel stands.esu)
    have fewer : ∀ e ∈ j.esu.queue, e ∈ s.esu.queue := fun e he => by
      rw [esu] at he
      exact stands.esu ▸ k.undoneEsu_queue p e he
    refine ⟨t, runs.trans run, ?_, fun other => absurd tune other, fun c _ channel => freed_of_ends slots tune (free channel) after,
      fun _ empty => ?_, fun c x xs _ channel queue limit still =>
        State.freed_reports slots tune channel (free channel) queue limit still after⟩
    · rw [after.ports, State.grantTest_port_of_tune slots tune fewer]
    · have none_waits : j.esu.queue = [] := List.eq_nil_iff_forall_not_mem.2 fun e he => by
        have := fewer e he
        rw [empty] at this
        cases this
      rw [State.put_grantTest (.inl none_waits)] at after
      rw [after.reports]
      exact State.enterAll_append ..
  · rw [State.afterAbort_of_ne tune] at ends
    obtain ⟨t, run, became⟩ := became_of_done runs ends
    exact ⟨t, run, became.port, fun _ => became, fun _ h => absurd h tune, fun h => absurd h tune, fun _ _ _ h => absurd h tune⟩

/-- The ESU a port leaves that was not in TUNE. -/
theorem Departs.esu_of_stands (h : Departs p s j t) (stands : k.Stands s p) (esu : j.esu = k.undoneEsu p)
    (tune : (s.port p).state ≠ .tune) : t.esu =
      { s.esu with queue := if (s.port p).state = .awaitSlot then s.esu.queue.filter (fun e => decide (e.port ≠ p)) else s.esu.queue } := by
  rw [(h.became tune).esu, esu]
  by_cases await : (s.port p).state = .awaitSlot
  · rw [Local.undoneEsu_of_awaitSlot (stands.state.trans await), if_pos await, stands.esu]
  · rw [Local.undoneEsu_of_ne (stands.state ▸ tune) (stands.state ▸ await), if_neg await, stands.esu]

/-- The entry into DISCOVER from any state. -/
theorem State.put_enterDiscover_test (aside : k.port.state = .tune → ∀ e ∈ k.esu.queue, e.port ≠ p)
    (h : (k.enterDiscover p s.settings (s.plan.resolve p)).port.Searching (s.plan.resolve p)) :
    (s.put p k).enterDiscover p = (s.put p (k.enterDiscover p s.settings (s.plan.resolve p))).afterAbort k.port.state := by
  by_cases tune : k.port.state = .tune
  · rw [State.put_enterDiscover_tune tune (aside tune) h, State.afterAbort, if_pos tune]
  · rw [State.put_enterDiscover tune h, State.afterAbort_of_ne tune]

/-- A command by which a port goes back to DISCOVER and stays there. -/
theorem departs_into_discover {i : Instr} (stands : k.Stands s p) (slots : (s.port p).state ≠ .tune ∨ s.slots)
    (h : (k.enterDiscover p s.settings (s.plan.resolve p)).port.Searching (s.plan.resolve p))
    (runs : exec i s = u.done) (ends : u = (s.put p k).enterDiscover p) :
    ∃ t, exec i s = .next t ∧ Departs p s (k.enterDiscover p s.settings (s.plan.resolve p)) t := by
  refine departs_of_done stands slots Local.enterDiscover_esu runs (ends.trans ?_)
  rw [State.put_enterDiscover_test (fun tune => ?_) h, stands.state]
  have tune' : (s.port p).state = .tune := stands.state ▸ tune
  rw [stands.esu]
  exact (slots.resolve_left fun other => other tune').aside tune'

/-- A command by which a port faults. -/
theorem departs_into_faulted {i : Instr} {r : FaultReason} (stands : k.Stands s p) (slots : (s.port p).state ≠ .tune ∨ s.slots)
    (runs : exec i s = u.done) (ends : u = (s.put p k).enterFaulted p r) :
    ∃ t, exec i s = .next t ∧ Departs p s (k.enterFaulted p s.settings r) t := by
  refine departs_of_done stands slots (Local.enterFaulted_esu ..) runs (ends.trans ?_)
  rw [State.put_enterFaulted_test, stands.state]

/-! ### The events of a lane (R10, R11, R29) -/

/-- The lane engine's own report of an event (R10, R11). -/
def LaneEvent.report (p : PortIx) (l : LanePos) : LaneEvent → Option Report
  | .identityChanged a b => some { port := some p, lane := some l, detail := .identityChanged a b }
  | _ => none

theorem State.put_reportChange (s : State) (p : PortIx) (k : Local) (l : LanePos) (v : LaneEvent) :
    (s.put p k).reportChange p l v = s.put p (k.tell (v.report p l).toList) := by
  cases v with
  | identityChanged a b => exact State.put_postLane s p k l _
  | _ => rw [show ∀ o : Option Report, o = none → o.toList = [] from fun _ h => h ▸ rfl, Local.tell_nil] <;> rfl

theorem State.put_reportChanges (s : State) (p : PortIx) (k : Local) (l : LanePos) (vs : List LaneEvent) :
    vs.foldl (fun t v => t.reportChange p l v) (s.put p k) = s.put p (k.tell (vs.filterMap (LaneEvent.report p l))) := by
  induction vs generalizing k with
  | nil => rw [List.filterMap_nil, Local.tell_nil]; rfl
  | cons v vs ih =>
    rw [List.foldl_cons, State.put_reportChange, ih, Local.tell_tell]
    cases own : v.report p l <;> simp [own]

theorem State.put_loopCheck (s : State) (p : PortIx) (k : Local) (l : LanePos) : (s.put p k).loopCheck p l =
    if (k.port.lane l).autoLoop = true ∧ ((k.judgeLoop p s.settings l).port.lane l).autoLoop = false
    then (s.put p (k.judgeLoop p s.settings l)).discoveryTest p else s.put p (k.judgeLoop p s.settings l) := by
  rw [State.loopCheck, State.put_judgeLoop, State.put_lane, State.put_lane]

theorem State.put_loopCheck_of_settled (h : k.port.loopHolds l = (k.port.lane l).autoLoop) : (s.put p k).loopCheck p l = s.put p k := by
  rw [State.put_loopCheck, Local.judgeLoop_of_eq h, if_neg fun both => by rw [both.1] at both; cases both.2]

/-- The events of a lane whose loop stays as it is. -/
theorem State.put_handEvents (h : k.port.loopHolds l = (k.port.lane l).autoLoop) (vs : List LaneEvent) :
    (s.put p k).handEvents p l vs =
      vs.foldl (fun t v => t.laneEvent p l v) (s.put p (k.tell (vs.filterMap (LaneEvent.report p l)))) := by
  rw [State.handEvents, State.put_reportChanges, State.put_loopCheck_of_settled (k := k.tell _) h]

/-- A lane event sends its port back to DISCOVER, with a report: a consult is withdrawn (R113), or a lane the port relies on fell silent
or changed its identity (R85, R95, R96, R157). -/
inductive Port.Loses (x : Port) (l : LanePos) : LaneEvent → Detail → Prop
  | withdrawnSilent : x.state = .consult → x.found l = true → x.Loses l .silent (.consultWithdrawn .silent x.neighbour)
  | withdrawnOneWay : x.state = .consult → x.found l = true → x.Loses l .oneWay (.consultWithdrawn .oneWay x.neighbour)
  | withdrawnChanged (a b : Identity) : x.state = .consult → x.counted l = true →
      x.Loses l (.identityChanged a b) (.consultWithdrawn .identityChanged x.neighbour)
  | foundSilent : x.state = .verified → x.found l = true → x.Loses l .silent .laneSilent
  | foundChanged (a b : Identity) : x.state = .verified → x.found l = true →
      x.Loses l (.identityChanged a b) (.neighbourChanged a b)
  | mappedSilent : x.state ∈ [PortState.peerWait, .awaitSlot, .tune, .qualify, .handover, .paused] → x.mapped l = true →
      x.Loses l .silent .laneSilent
  | mappedChanged (a b : Identity) : x.state ∈ [PortState.peerWait, .awaitSlot, .tune, .qualify, .handover, .paused] →
      x.mapped l = true → x.Loses l (.identityChanged a b) (.neighbourChanged a b)
  | huntChanged (a b : Identity) : x.state = .active → (x.lane l).monitor.hunt.isSome = true →
      x.Loses l (.identityChanged a b) (.neighbourChanged a b)

theorem State.laneEvent_of_stage (state : (u.port p).state ∈ [PortState.peerWait, .awaitSlot, .tune, .qualify, .handover, .paused])
    (mapped : (u.port p).mapped l = true) (v : LaneEvent) : u.laneEvent p l v = u.lostEvent p l v := by
  simp only [List.mem_cons, List.not_mem_nil, or_false] at state
  unfold State.laneEvent
  rcases state with h | h | h | h | h | h <;> rw [h] <;> exact if_pos mapped

theorem State.put_laneEvent_of_loses (h : k.port.Loses l v y) : (s.put p k).laneEvent p l v =
    (s.put p (k.tell [{ port := some p, lane := some l, detail := y }])).enterDiscover p := by
  have port := State.put_port s p k
  rw [← State.put_postLane]
  cases h with
  | withdrawnSilent state found => simp only [State.laneEvent, port, state, State.consultEvent, found, if_true, State.withdraw]
  | withdrawnOneWay state found => simp only [State.laneEvent, port, state, State.consultEvent, found, if_true, State.withdraw]
  | withdrawnChanged a b state counted => simp only [State.laneEvent, port, state, State.consultEvent, counted, if_true, State.withdraw]
  | foundSilent state found => simp only [State.laneEvent, port, state, found, if_true, State.lostEvent]
  | foundChanged a b state found => simp only [State.laneEvent, port, state, found, if_true, State.lostEvent]
  | mappedSilent state mapped => rw [State.laneEvent_of_stage (port ▸ state) (port ▸ mapped)]; rfl
  | mappedChanged a b state mapped => rw [State.laneEvent_of_stage (port ▸ state) (port ▸ mapped)]; rfl
  | huntChanged a b state hunt => simp only [State.laneEvent, port, state, State.put_lane, hunt, if_true, State.huntEvent]

/-- In these states a port takes no lane event. -/
theorem State.laneEvent_of_deaf (h : (u.port p).state = .idle ∨ (u.port p).state = .manual ∨ (u.port p).state = .faulted)
    (v : LaneEvent) : u.laneEvent p l v = u := by
  unfold State.laneEvent
  rcases h with h | h | h <;> rw [h]

theorem State.laneEvents_of_deaf (h : (u.port p).state = .idle ∨ (u.port p).state = .manual ∨ (u.port p).state = .faulted)
    (vs : List LaneEvent) : vs.foldl (fun t v => t.laneEvent p l v) u = u := by
  induction vs with
  | nil => rfl
  | cons v vs ih => rw [List.foldl_cons, State.laneEvent_of_deaf h, ih]

end Sys2Proof.Machine
end

section
/-! SUPPORT. The expiry of a lane's silence timer (R9, R85, R95, R113, R114, R131). -/

namespace Sys2Proof.Machine

variable {s t u : State} {p : PortIx} {k j : Local} {l m : LanePos} {x w y : Port} {n : Snapshot} {g : Settings} {f : Lane → Lane}

/-- What holds of one lane changed and of the others as they were holds of all. -/
theorem Port.modLane_all {P : LanePos → Lane → Prop} (here : P l (f (x.lane l))) (others : ∀ m, m ≠ l → P m (x.lane m)) (m : LanePos) :
    P m ((x.modLane l f).lane m) := by
  rw [Port.lane_modLane]
  split_ifs with same
  · exact same ▸ here
  · exact others m same

theorem Port.lane_modLane_self (x : Port) (l : LanePos) (f : Lane → Lane) : (x.modLane l f).lane l = f (x.lane l) := by
  rw [Port.lane_modLane, if_pos rfl]

theorem Port.lane_modLane_of_ne (x : Port) (f : Lane → Lane) (h : m ≠ l) : (x.modLane l f).lane m = x.lane m := by
  rw [Port.lane_modLane, if_neg h]

/-- Coming into DISCOVER keeps mode, unstable count and counters, whatever has happened to the lanes before. -/
theorem Port.rediscovered.back (h : w.rediscovered y n g) (mode : w.mode = x.mode) (unstable : w.unstable = x.unstable)
    (counters : w.counters = x.counters) : x.rediscovered y n g :=
  ⟨h.state, h.snapshot, h.stageTimer, h.found, h.map, h.stages, h.counts, h.kept.1.trans mode, h.kept.2.1.trans unstable,
    h.kept.2.2.trans counters⟩

/-- A lane that has fallen silent stays so in DISCOVER, its last stable identity kept. -/
theorem Local.enterDiscover_silent (inside : l.val < 4) (manual : k.port.state ≠ .manual) (silent : (k.port.lane l).rx.state = .silent) :
    ((k.enterDiscover p g n).port.lane l).rx.state = .silent ∧
      ((k.enterDiscover p g n).port.lane l).rx.lastStable = (k.port.lane l).rx.lastStable := by
  have undone : (k.port.undoneLane l).rx.state = .silent ∧ (k.port.undoneLane l).rx.lastStable = (k.port.lane l).rx.lastStable := by
    rw [Port.undoneLane, if_neg (by simp [Port.nearEnd_of_not_manual manual l])]
    show (k.port.lane l).takeBack.rx.state = _ ∧ (k.port.lane l).takeBack.rx.lastStable = _
    unfold Lane.takeBack
    split
    · exact ⟨rfl, rfl⟩
    · exact ⟨silent, rfl⟩
  have listens : Port.listens { (k.left p).toDiscover n g with state := .discover } l = true :=
    Port.listens_of_lt nofun (Nat.lt_of_lt_of_le inside (Port.four_le_L _))
  rw [Local.enterDiscover, Local.transition_rx_state (lanesKept_toDiscover n g), listens,
    Lane.listen_rx_of_on (by rw [undone.1]; decide)]
  exact undone

theorem Local.enterDiscover_eq (l : LanePos) : ((k.enterDiscover p g n).port.lane l).eq = (k.port.lane l).eq :=
  Local.transition_eq.trans Local.left_eq

/-! ### The expiry -/

/-- The receive record of a lane as the expiry leaves it. -/
def Local.expired (k : Local) (l : LanePos) : Local :=
  k.modPort (·.modLane l fun y => { y with rx := (k.port.lane l).rx.expire.1 })

theorem exec_silenceTimerExpiry_of_timed (h : (s.lane p l).rx.timed = true) : exec (.silenceTimerExpiry p l) s =
    ((s.put p ((s.held p).expired l)).handEvents p l (s.lane p l).rx.expire.2).done := by
  show execSilenceTimerExpiry p l s = _
  rw [execSilenceTimerExpiry, if_pos h, State.opened_eq_put s p, State.silence, State.put_lane, State.put_modLane]
  rfl

theorem Receiver.expire_loopSeen {r : Receiver} (h : r.loopSeen = false) : r.expire.1.loopSeen = false := by
  unfold Receiver.expire
  cases r.state with
  | off => exact h
  | silent => exact h
  | locked => rfl
  | stable => rfl

/-- The loops of a port on which nothing loops and nothing is asked stay as they are. -/
theorem Port.loops_settled (still : x.Still) (h : x.state ≠ .discover ∧ x.state ≠ .faulted ∨ x.Unasked) (l : LanePos) :
    x.loopHolds l = (x.lane l).autoLoop := (Port.loopHolds_eq_false (h.imp_right fun a => a l)).trans (still l).symm

section Lost

variable {d : Detail}

/-- A lane that was LOCKED falls silent, on a port that relies on it. -/
theorem exec_silenceTimerExpiry_of_loses (timed : (s.lane p l).rx.timed = true)
    (locked : (s.lane p l).rx.state = .locked ∨ (s.lane p l).rx.state = .stable) (inside : l.val < 4)
    (kind : (s.plan.resolve p).entry.kind ≠ .unused) (quiet : ∀ k, (s.lane p k).autoLoop = false ∧ (s.lane p k).rx.loopSeen = false)
    (slots : (s.port p).state ≠ .tune ∨ s.slots) (loses : ∀ f, ((s.port p).modLane l f).Loses l .silent d) :
    ∃ t, exec (.silenceTimerExpiry p l) s = .next t ∧ Departs p s ((((s.held p).expired l).tell
      [{ port := some p, lane := some l, detail := d }]).enterDiscover p s.settings (s.plan.resolve p)) t := by
  have fallen := Receiver.expire_of_locked locked
  have silent : (((s.held p).expired l).port.lane l).rx.state = .silent := by
    rw [Local.expired, Local.modPort_port, Port.lane_modLane_self, show ((s.held p).port.lane l).rx.expire = _ from fallen]
    rfl
  have still : ((s.held p).expired l).port.Still := Port.modLane_all (P := fun _ z => z.autoLoop = false) (quiet l).1
    fun m _ => (quiet m).1
  have unasked : ((s.held p).expired l).port.Unasked := Port.modLane_all (P := fun _ z => z.rx.loopSeen = false)
    (Receiver.expire_loopSeen (quiet l).2) fun m _ => (quiet m).2
  have runs := exec_silenceTimerExpiry_of_timed timed
  rw [fallen, State.put_handEvents (Port.loops_settled still (.inr unasked) l)] at runs
  refine departs_into_discover (k := ((s.held p).expired l).tell [{ port := some p, lane := some l, detail := d }]) ⟨rfl, rfl, rfl⟩ slots
    (Local.enterDiscover_searching inside (by rw [Local.tell_port, silent]; decide) (.inl kind)) runs ?_
  rw [List.foldl_cons, List.foldl_nil]
  have lost : (((s.held p).expired l).tell []).port.Loses l .silent d := loses fun y => { y with rx := (s.lane p l).rx.expire.1 }
  exact (State.put_laneEvent_of_loses lost).trans (by rw [Local.tell_nil])

end Lost

/-- What the port and its lanes hold once it has come back to DISCOVER by a lane's silence. -/
theorem Departs.silenced {d : Detail} (locked : (s.lane p l).rx.state = .locked ∨ (s.lane p l).rx.state = .stable) (inside : l.val < 4)
    (manual : (s.port p).state ≠ .manual) (quiet : ∀ k, (s.lane p k).autoLoop = false ∧ (s.lane p k).rx.loopSeen = false)
    (h : Departs p s ((((s.held p).expired l).tell
      [{ port := some p, lane := some l, detail := d }]).enterDiscover p s.settings (s.plan.resolve p)) t) :
    (s.port p).rediscovered (t.port p) (s.plan.resolve p) s.settings ∧ (t.lane p l).rx.state = .silent ∧
      (t.lane p l).rx.lastStable = (s.lane p l).rx.lastStable ∧ (∀ k, (t.lane p k).eq = (s.lane p k).eq) ∧
      ((((s.held p).expired l).tell [{ port := some p, lane := some l, detail := d }]).enterDiscover p s.settings
          (s.plan.resolve p)).told = { port := some p, lane := some l, detail := d } ::
        portReports p [.portState (s.port p).state .discover none none .initial 0] := by
  have fallen := Receiver.expire_of_locked locked
  have rx : (((s.held p).expired l).port.lane l).rx = (s.lane p l).rx.expire.1 := by
    rw [Local.expired, Local.modPort_port, Port.lane_modLane_self]
    rfl
  have still : ((s.held p).expired l).port.Still := Port.modLane_all (P := fun _ z => z.autoLoop = false) (quiet l).1
    fun m _ => (quiet m).1
  have unasked : ((s.held p).expired l).port.Unasked := Port.modLane_all (P := fun _ z => z.rx.loopSeen = false)
    (Receiver.expire_loopSeen (quiet l).2) fun m _ => (quiet m).2
  have lane := Local.enterDiscover_silent (k := ((s.held p).expired l).tell [{ port := some p, lane := some l, detail := d }]) (p := p)
    (g := s.settings) (n := s.plan.resolve p) inside manual (by rw [Local.tell_port, rx, fallen]; rfl)
  refine ⟨?_, ?_, ?_, fun m => ?_, ?_⟩
  · rw [h.port]
    have timer := Local.enterDiscover_stageTimer (k := ((s.held p).expired l).tell [{ port := some p, lane := some l, detail := d }])
      (p := p) (g := s.settings) (n := s.plan.resolve p) unasked
    exact (Local.enterDiscover_rediscovered timer).back rfl rfl rfl
  · rw [h.lane]; exact lane.1
  · rw [h.lane, lane.2, Local.tell_port, rx, fallen]; rfl
  · rw [h.lane, Local.enterDiscover_eq]
    exact Port.modLane_all (P := fun m z => z.eq = (s.lane p m).eq) rfl (fun _ _ => rfl) m
  · exact Local.enterDiscover_told still unasked

/-- Settles O50: the expiry moves the receive record alone in MANUAL, and elsewhere sends the port that relied on the lane back to
DISCOVER. -/
theorem silenceSendsPortBack : Obligations.SilenceSendsPortBack := by
  intro p l s x y on running silence
  have timed : (s.lane p l).rx.timed = true := by
    rw [Receiver.timed, decide_eq_true (show (s.lane p l).rx.state ≠ .off from on),
      show (s.lane p l).rx.suspended = false from running, Option.isSome_iff_ne_none.2 silence]
    rfl
  refine ⟨fun manual still => ?_, ?_, ?_⟩
  · have quiet : ((s.held p).expired l).port.loopHolds l = (((s.held p).expired l).port.lane l).autoLoop := by
      have manual' : ((s.held p).expired l).port.state = .manual := manual
      rw [Port.loopHolds_eq_false (.inl (by rw [manual']; exact ⟨by decide, by decide⟩)), Local.expired, Local.modPort_port,
        Port.lane_modLane_self]
      exact still.symm
    have none_told : y.rx.expire.2.filterMap (LaneEvent.report p l) = [] := by
      rcases RxState.listening on with silent | locked
      · rw [Receiver.expire_of_silent silent]; rfl
      · rw [Receiver.expire_of_locked locked]; rfl
    rw [exec_silenceTimerExpiry_of_timed timed, State.put_handEvents quiet, none_told, Local.tell_nil,
      State.laneEvents_of_deaf (by rw [State.put_port]; exact .inr (.inl manual)), Local.expired, ← State.put_modLane,
      ← State.opened_eq_put]
    exact State.done_of_none rfl
  · intro relied locked inside kind quiet
    have tune : (s.port p).state ≠ .tune := by
      rintro tune
      rcases relied with ⟨stage, _⟩ | ⟨verified | consult, _⟩
      · rw [show x.state = .tune from tune] at stage; revert stage; decide
      · cases tune.symm.trans verified
      · cases tune.symm.trans consult
    have manual : (s.port p).state ≠ .manual := by
      rintro manual
      rcases relied with ⟨stage, _⟩ | ⟨verified | consult, _⟩
      · rw [show x.state = .manual from manual] at stage; revert stage; decide
      · cases manual.symm.trans verified
      · cases manual.symm.trans consult
    have loses : ∀ f, ((s.port p).modLane l f).Loses l .silent
        (if x.state = .consult then .consultWithdrawn .silent x.neighbour else .laneSilent) := fun f => by
      rcases relied with ⟨stage, mapped⟩ | ⟨verified | consult, found⟩
      · rw [if_neg (by rintro consult; rw [consult] at stage; revert stage; decide)]
        refine .mappedSilent ?_ (Option.isSome_iff_ne_none.2 mapped)
        revert stage
        show x.state ∈ _ → x.state ∈ _
        cases x.state <;> decide
      · rw [if_neg (by rw [verified]; decide)]
        exact .foundSilent verified (Option.isSome_iff_ne_none.2 found)
      · rw [if_pos consult]
        exact .withdrawnSilent consult (Option.isSome_iff_ne_none.2 found)
    obtain ⟨t, runs, departs⟩ := exec_silenceTimerExpiry_of_loses timed locked inside kind quiet (.inl tune) loses
    obtain ⟨came, silent, stable, _, told⟩ := departs.silenced locked inside manual quiet
    have became := departs.became tune
    refine ⟨t, runs, became.toOnlyPort, ?_, came, silent, stable, ?_⟩
    · exact departs.esu_of_stands (k := ((s.held p).expired l).tell _) ⟨rfl, rfl, rfl⟩ Local.enterDiscover_esu tune
    · rw [became.reports, told, Local.enterDiscover_kept]
      exact congrArg _ (List.append_nil _)
  · intro c tune channel slots mapped locked inside kind quiet
    have state : (s.port p).state = .tune := tune
    have loses : ∀ f, ((s.port p).modLane l f).Loses l .silent .laneSilent := fun f => by
      refine .mappedSilent ?_ (Option.isSome_iff_ne_none.2 mapped)
      show x.state ∈ _
      rw [tune]; decide
    obtain ⟨t, runs, departs⟩ := exec_silenceTimerExpiry_of_loses timed locked inside kind quiet (.inr slots) loses
    obtain ⟨came, silent, stable, eq, told⟩ := departs.silenced locked inside (by rw [state]; decide) quiet
    rw [state] at told
    refine ⟨t, runs, came, silent, stable, eq, departs.freed c tune channel, fun empty => ?_, fun e q queue limit still => ?_⟩
    · rw [departs.unwaited tune empty, told, Local.enterDiscover_kept]
      exact congrArg _ (List.append_nil _)
    · rw [departs.granted c e q tune channel queue limit still, told, Local.enterDiscover_kept]
      exact congrArg _ (List.append_nil _)

end Sys2Proof.Machine
end

section
/-! SUPPORT. LANE_CONTROL (R25, R18, R22, R26, R27, R29, R31): what storing the record does to the lane. -/

namespace Sys2Proof.Machine

variable {s t u : State} {p : PortIx} {k j : Local} {l m : LanePos} {x w : Port} {g : Settings} {c : Control} {r : RawControl}
  {port lane : Byte} {y z : Lane}

/-! ### Judging the record (R25) -/

theorem judgeControl_eq_none (h : 3 < r.source.toNat ∨ 1 < r.check.toNat ∨ 1 < r.near.toNat ∨ 1 < r.far.toNat ∨ 2 < r.invert.toNat ∨
    1 < r.excluded.toNat ∨ r.near = 1 ∧ r.far = 1) : judgeControl r = none := by
  have bad : ∀ {b : Byte}, 1 < b.toNat → boolOf b = none := fun h => named_eq_none h
  have yes : boolOf 1 = some true := rfl
  unfold judgeControl
  rcases h with h | h | h | h | h | h | ⟨near, far⟩
  · simp [named_eq_none (xs := [TxSource.beacon, .prbs, .pattern, .quiet]) h]
  · simp [bad h]
  · simp [bad h]
  · simp [bad h]
  · simp [named_eq_none (xs := [InvertOverride.auto, .forceNormal, .forceInvert]) h]
  · simp [bad h]
  · simp only [near, far, yes, Option.bind_eq_bind, Option.bind_some, Bool.and_self, if_true, Option.bind_fun_none]

theorem boolOf_boolByte (b : Bool) : boolOf (boolByte b) = some b := by cases b <;> rfl

theorem judgeControl_eq_some (source : r.source = c.source.code) (pattern : r.pattern = c.pattern)
    (loopReq : r.flags.getLsbD 0 = c.sendLoopReq) (hold : r.flags.getLsbD 1 = c.sendHold) (check : r.check = boolByte c.checkPrbs)
    (near : r.near = boolByte c.near) (far : r.far = boolByte c.far) (invert : r.invert = c.invert.code)
    (excluded : r.excluded = boolByte c.excluded) (one : ¬(c.near = true ∧ c.far = true)) : judgeControl r = some c := by
  have named_source : named [.beacon, .prbs, .pattern, .quiet] c.source.code = some c.source := by cases c.source <;> rfl
  have named_invert : named [.auto, .forceNormal, .forceInvert] c.invert.code = some c.invert := by cases c.invert <;> rfl
  unfold judgeControl
  simp only [source, check, near, far, invert, excluded, named_source, named_invert, boolOf_boolByte, pattern, loopReq, hold,
    Option.bind_eq_bind, Option.bind_some]
  rw [if_neg (by simpa using one)]
  rfl

theorem exec_laneControl_of_bad (h : 24 ≤ port.toNat ∨ 8 ≤ lane.toNat ∨ judgeControl r = none) :
    exec (.laneControl port lane r) s = .next (s.replied (.laneControl port lane r) .badArgument []) := by
  show execLaneControl port lane r s = _
  unfold execLaneControl
  cases judged : judgeControl r with
  | none => cases portLaneOf port lane <;> exact State.opened_refuse_done s _ _
  | some c =>
    rw [portLaneOf_eq_none (h.imp_right fun h => h.resolve_right (by simp [judged]))]
    exact State.opened_refuse_done s _ _

theorem exec_laneControl_of_judged (h : portLaneOf port lane = some (p, l)) (judged : judgeControl r = some c) :
    exec (.laneControl port lane r) s = (((s.put p (s.held p)).storeControl p l c).accept (.laneControl port lane r) c.bytes).done := by
  show execLaneControl port lane r s = _
  rw [execLaneControl, h, judged]
  simp only []
  rw [State.opened_eq_put s p]

/-! ### The lane with its new record -/

/-- The lane has left a near-end loopback by the new record (R27). -/
def Port.leavesNear (x : Port) (l : LanePos) (c : Control) : Prop :=
  x.state = .manual ∧ (x.lane l).control.near = true ∧ (x.lane l).control.excluded = false ∧ (c.near = false ∨ c.excluded = true)

/-- A lane with a new record and its handover correction, before its loops and its content follow (R18, R25, R27, R31). -/
structure Port.Stores (x : Port) (l : LanePos) (c : Control) (z : Lane) : Prop where
  control : z.control = c
  injection : z.injection = if (x.lane l).control.source = c.source then (x.lane l).injection else none
  owner : z.owner = (x.lane l).owner
  eq : z.eq = (x.lane l).eq
  monitor : z.monitor = (x.lane l).monitor
  counters : z.counters = (x.lane l).counters
  gen : z.gen = (x.lane l).gen
  autoLoop : z.autoLoop = (x.lane l).autoLoop
  tap : z.tap = if (x.lane l).owner = .switch
    then (x.lane l).tap.map fun h => { h with correction := c.invert.apply x.map[l].polarity } else (x.lane l).tap
  left : x.leavesNear l c → z.patternLock = .searching ∧ z.rx = (x.lane l).rx.restart
  stays : ¬x.leavesNear l c → z.patternLock = (x.lane l).patternLock ∧ z.rx = (x.lane l).rx
  checker : z.checker = (x.lane l).checker ∨ z.checker = (x.lane l).checker.strayed

theorem Lane.retap_eq (y : Lane) (f : Polarity) : y.retap f =
    { y with tap := if y.owner = .switch then y.tap.map fun h => { h with correction := f } else y.tap } := by
  unfold Lane.retap
  split <;> rfl

theorem Port.leavesNear_iff : (x.nearEnd l && !(x.modLane l fun y => y.setControl c).nearEnd l) = true ↔ x.leavesNear l c := by
  have control : ((x.modLane l fun y => y.setControl c).lane l).control = c := by rw [Port.lane_modLane_self]; rfl
  have state : (x.modLane l fun y => y.setControl c).state = x.state := rfl
  simp only [Port.nearEnd, control, state, Port.leavesNear, Bool.and_eq_true, decide_eq_true_eq, Bool.not_eq_true', Bool.and_eq_false_iff,
    decide_eq_false_iff_not]
  grind

theorem Port.modLane_modLane (x : Port) (l : LanePos) (f h : Lane → Lane) : (x.modLane l f).modLane l h = x.modLane l fun y => h (f y) := by
  have lanes : (x.lanes.set l (f (x.lane l))).set l (h ((x.modLane l f).lane l)) = x.lanes.set l (h (f (x.lane l))) := by
    rw [Port.lane_modLane_self]; exact Vector.set_set _ _
  exact congrArg (fun v => ({ x with lanes := v } : Port)) lanes

/-- What a change of near-end loopback does to the lane's record, receiver and checker (R27). -/
structure Port.Turns (x : Port) (l : LanePos) (c : Control) (y z : Lane) : Prop where
  kept : { z with rx := y.rx, patternLock := y.patternLock, checker := y.checker } = y
  left : x.leavesNear l c → z.patternLock = .searching ∧ z.rx = y.rx.restart
  stays : ¬x.leavesNear l c → z.patternLock = y.patternLock ∧ z.rx = y.rx
  checker : z.checker = y.checker ∨ z.checker = y.checker.strayed

theorem Port.turnNearEnd_eq (x : Port) (l : LanePos) (c : Control) : ∃ f : Lane → Lane,
    x.turnNearEnd (x.modLane l fun y => y.setControl c) l = x.modLane l (fun y => f (y.setControl c)) ∧
      ∀ y, x.Turns l c y (f y) := by
  by_cases leaves : x.leavesNear l c
  · refine ⟨Lane.leaveNearEnd, ?_, fun y => ⟨rfl, fun _ => ⟨rfl, rfl⟩, fun not => absurd leaves not, .inr rfl⟩⟩
    rw [Port.turnNearEnd, if_pos (Port.leavesNear_iff.2 leaves), Port.modLane_modLane]
  rw [Port.turnNearEnd, if_neg (mt Port.leavesNear_iff.1 leaves)]
  split
  · exact ⟨fun y => { y with checker := y.checker.strayed }, Port.modLane_modLane .., fun y =>
      ⟨rfl, fun yes => absurd yes leaves, fun _ => ⟨rfl, rfl⟩, .inr rfl⟩⟩
  · exact ⟨id, rfl, fun y => ⟨rfl, fun yes => absurd yes leaves, fun _ => ⟨rfl, rfl⟩, .inl rfl⟩⟩

/-- What storing the record does: one lane's own changes, and no other field of the port. -/
theorem Port.storeControl_eq (x : Port) (l : LanePos) (c : Control) : ∃ f : Lane → Lane,
    x.storeControl l c = x.modLane l f ∧ x.Stores l c (f (x.lane l)) := by
  obtain ⟨f, turned, turns⟩ := x.turnNearEnd_eq l c
  have turn := turns ((x.lane l).setControl c)
  have field : ∀ {α : Type} (h : Lane → α), h { f ((x.lane l).setControl c) with
      rx := ((x.lane l).setControl c).rx, patternLock := ((x.lane l).setControl c).patternLock
      checker := ((x.lane l).setControl c).checker } = h ((x.lane l).setControl c) := fun h => congrArg h turn.kept
  have control : (f ((x.lane l).setControl c)).control = c := field Lane.control
  refine ⟨fun y => (f (y.setControl c)).retap (c.invert.apply x.map[l].polarity), ?_, ?_⟩
  · rw [Port.storeControl, turned]
    rw [Port.modLane_modLane, Port.handoverCorrection, Port.lane_modLane_self, control]
    rfl
  · show x.Stores l c ((f ((x.lane l).setControl c)).retap (c.invert.apply x.map[l].polarity))
    rw [Lane.retap_eq]
    refine ⟨control, field Lane.injection, field Lane.owner, field Lane.eq, field Lane.monitor, field Lane.counters, field Lane.gen,
      field Lane.autoLoop, ?_, turn.left, turn.stays, turn.checker⟩
    show (if (f ((x.lane l).setControl c)).owner = .switch then _ else _) = _
    rw [show (f ((x.lane l).setControl c)).owner = (x.lane l).owner from field Lane.owner,
      show (f ((x.lane l).setControl c)).tap = (x.lane l).tap from field Lane.tap]

/-! ### Loops and content follow (R20, R22, R29) -/

theorem Port.modLane_self (x : Port) (l : LanePos) (f : Lane → Lane) (h : f (x.lane l) = x.lane l) : x.modLane l f = x := by
  have same : x.lanes.set l (f (x.lane l)) = x.lanes := by rw [h]; exact Vector.set_getElem_self l.isLt
  exact congrArg (fun v => ({ x with lanes := v } : Port)) same

/-- Outside DISCOVER, or where it moves nothing, the judging of a lane's loop sets its mark and nothing else (R29, R30). -/
theorem Port.judgeLoop_eq (h : x.state ≠ .discover ∨ x.loopHolds l = (x.lane l).autoLoop) (g : Settings) :
    x.judgeLoop g l = x.modLane l fun y => { y with autoLoop := x.loopHolds l } := by
  by_cases same : x.loopHolds l = (x.lane l).autoLoop
  · rw [Port.judgeLoop, if_pos same]
    exact (x.modLane_self l _ (by rw [same])).symm
  have h := h.resolve_right same
  have kept : ∀ b, (x.modLane l fun y => { y with autoLoop := b }).state ≠ .discover := fun _ => h
  rw [Port.judgeLoop, if_neg same]
  split
  · next holds => rw [Port.loopEntered, if_neg (kept true), holds]
  · next fails => rw [Port.loopLeft, if_neg fun both => kept false both.1, eq_false_of_ne_true fails]

theorem State.discoveryTest_of_state (h : (u.port p).state ≠ .discover) : u.discoveryTest p = u := by
  rw [State.discoveryTest, if_neg fun all => h all.1]

theorem State.put_loopCheck_plain (h : k.port.state ≠ .discover ∨ k.port.loopHolds l = (k.port.lane l).autoLoop) :
    (s.put p k).loopCheck p l = s.put p (k.judgeLoop p s.settings l) := by
  rcases h with other | settled
  · rw [State.put_loopCheck]
    split
    · refine State.discoveryTest_of_state ?_
      rw [State.put_port, Local.judgeLoop, Local.modPort_port, Local.tell_port, Port.judgeLoop_eq (.inl other)]
      exact other
    · rfl
  · rw [State.put_loopCheck_of_settled settled, Local.judgeLoop_of_eq settled]

theorem State.put_syncPort (s : State) (p : PortIx) (k : Local) : (s.put p k).syncPort p = s.put p (k.modPort Port.sync) :=
  State.put_modPort s p k Port.sync

/-- The port once the record is stored and loops, content and checkers have followed. -/
def Local.storeControl (k : Local) (p : PortIx) (g : Settings) (l : LanePos) (c : Control) : Local :=
  ((k.modPort (·.storeControl l c)).judgeLoop p g l).modPort Port.sync

theorem Port.sync_lane (x : Port) (l : LanePos) : x.sync.lane l =
    { x.lane l with gen := (x.lane l).nextGen (x.content l), block := if x.content l = .prbs then (x.lane l).block else none
                    checker := (x.lane l).checker.follow (x.counts l) (x.nearEnd l) (x.content l) (x.lock l) (x.checkCorrection l) } := by
  rw [Port.sync, Port.mapLanes_lane]

/-- Storing the record, before what an exclusion set or cleared does to the port. -/
theorem State.put_storeControl (h : k.port.state ≠ .discover ∨
      c.excluded = (k.port.lane l).control.excluded ∧ (k.port.lane l).autoLoop = false ∧ (k.port.lane l).rx.loopSeen = false) :
    (s.put p k).storeControl p l c =
      (if c.excluded && !(k.port.lane l).control.excluded then (s.put p (k.storeControl p s.settings l c)).afterExclude p l
       else if (k.port.lane l).control.excluded && !c.excluded then (s.put p (k.storeControl p s.settings l c)).afterInclude p
       else s.put p (k.storeControl p s.settings l c)) := by
  obtain ⟨f, stored, stores⟩ := k.port.storeControl_eq l c
  have settled : (k.modPort (·.storeControl l c)).port.state ≠ .discover ∨
      (k.modPort (·.storeControl l c)).port.loopHolds l = ((k.modPort (·.storeControl l c)).port.lane l).autoLoop := by
    rw [Local.modPort_port, stored]
    refine h.imp id fun ⟨_, still, deaf⟩ => ?_
    rw [Port.loopHolds_eq_false (.inr ?_), Port.lane_modLane_self, stores.autoLoop, still]
    rw [Port.lane_modLane_self]
    by_cases leaves : k.port.leavesNear l c
    · rw [(stores.left leaves).2]; rfl
    · rw [(stores.stays leaves).2, deaf]
  rw [State.storeControl, State.put_lane, State.put_modPort, State.put_loopCheck_plain settled, State.put_syncPort]
  rfl

/-- A port with one lane replaced. -/
def Port.putLane (x : Port) (l : LanePos) (z : Lane) : Port := x.modLane l fun _ => z

@[simp] theorem Port.putLane_lane (x : Port) (l : LanePos) (z : Lane) : (x.putLane l z).lane l = z := Port.lane_modLane_self ..

theorem Port.putLane_lane_of_ne (x : Port) (z : Lane) (h : m ≠ l) : (x.putLane l z).lane m = x.lane m :=
  Port.lane_modLane_of_ne _ _ h

/-- The port once a record is stored: the lane's own changes, its loop mark by the conditions of R29, and content and checkers after
them. -/
structure Local.Controlled (k j : Local) (l : LanePos) (c : Control) (z : Lane) (b : Bool) : Prop where
  stores : k.port.Stores l c z
  loops : b = true ↔ k.port.state = .faulted ∧ (∃ n, k.port.snapshot = some n ∧ n.entry.loop = true) ∧ c.excluded = false ∧
    (k.port.lane l).rx.loopSeen = true
  port : j.port = (k.port.putLane l { z with autoLoop := b }).sync
  esu : j.esu = k.esu
  kept : j.kept = k.kept
  told : (k.port.lane l).autoLoop = false → k.port.state ≠ .faulted → j.told = k.told

theorem Local.storeControl_controlled (g : Settings) (h : k.port.state ≠ .discover ∨ (k.port.lane l).autoLoop = false ∧
    (k.port.lane l).rx.loopSeen = false) : ∃ z b, k.Controlled (k.storeControl p g l c) l c z b := by
  obtain ⟨f, stored, stores⟩ := k.port.storeControl_eq l c
  have loops : (k.port.modLane l f).loopHolds l = true ↔ k.port.state = .faulted ∧
      (∃ n, k.port.snapshot = some n ∧ n.entry.loop = true) ∧ c.excluded = false ∧ (k.port.lane l).rx.loopSeen = true := by
    have seen : k.port.state = .manual ∨ (f (k.port.lane l)).rx = (k.port.lane l).rx := by
      by_cases leaves : k.port.leavesNear l c
      · exact .inl leaves.1
      · exact .inr (stores.stays leaves).2
    have state : (k.port.modLane l f).state = k.port.state := rfl
    have snapshot : (k.port.modLane l f).snapshot = k.port.snapshot := rfl
    rw [Port.loopHolds, Port.lane_modLane_self, stores.control, state, snapshot]
    rcases seen with manual | same
    · simp [manual]
    · rw [same]
      rcases h with other | ⟨-, deaf⟩
      · cases k.port.snapshot <;> simp [other, and_assoc]
      · simp [deaf]
  have settled : (k.port.modLane l f).state ≠ .discover ∨
      (k.port.modLane l f).loopHolds l = ((k.port.modLane l f).lane l).autoLoop := by
    by_cases other : k.port.state = .discover
    · refine .inr ?_
      have fails : (k.port.modLane l f).loopHolds l = false := by
        rw [Bool.eq_false_iff, Ne, loops, other]; simp
      rw [fails, Port.lane_modLane_self, stores.autoLoop]
      exact (h.resolve_left fun not => not other).1.symm
    · exact .inl other
  refine ⟨f (k.port.lane l), (k.port.modLane l f).loopHolds l, stores, loops, ?_, rfl, rfl, fun still other => ?_⟩
  · rw [Local.storeControl, Local.modPort_port, Local.judgeLoop, Local.modPort_port, Local.tell_port, Local.modPort_port, stored,
      Port.judgeLoop_eq settled, Port.modLane_modLane]
    have same : (k.port.modLane l fun y => { f y with autoLoop := (k.port.modLane l f).loopHolds l }) =
        k.port.putLane l { f (k.port.lane l) with autoLoop := (k.port.modLane l f).loopHolds l } := rfl
    rw [same]
  · have fails : (k.port.modLane l f).loopHolds l = ((k.port.modLane l f).lane l).autoLoop := by
      rw [Port.lane_modLane_self, stores.autoLoop, still, Bool.eq_false_iff, Ne, loops]
      exact fun all => other all.1
    show k.told ++ (k.port.storeControl l c).loopReport p l = _
    rw [stored, Port.loopReport, if_pos fails, List.append_nil]

end Sys2Proof.Machine
end

section
/-! SUPPORT. LANE_CONTROL (R25): what follows from a record stored, and the statement about the request. -/

namespace Sys2Proof.Machine

variable {s t u : State} {p : PortIx} {k j : Local} {l m : LanePos} {x w : Port} {g : Settings} {c : Control} {r : RawControl}
  {port pos : Byte} {y z : Lane} {b : Bool}

/-! ### MANUAL (R21, R22, R24) -/

theorem Port.content_of_manual (manual : x.state = .manual) (h : x.content l = .prbs) : (x.lane l).control.source = .prbs := by
  unfold Port.content at h
  split_ifs at h
  rw [Port.stateContent, manual] at h
  cases source : (x.lane l).control.source with
  | prbs => rfl
  | _ => simp [source] at h

theorem Port.content_of_source (manual : x.state = .manual) (owner : (x.lane l).owner = .part)
    (excluded : (x.lane l).control.excluded = false) (far : (x.lane l).control.far = false) (still : (x.lane l).autoLoop = false)
    (source : (x.lane l).control.source = .prbs) : x.content l = .prbs := by
  simp [Port.content, Port.listens, Port.manualFar, Port.stateContent, manual, owner, excluded, far, still, source]

theorem Port.counts_of_manual (manual : x.state = .manual) : x.counts l = (x.lane l).control.checkPrbs := by
  simp [Port.counts, Port.windowBegun, manual]

theorem Port.checkCorrection_of_manual (manual : x.state = .manual) : x.checkCorrection l =
    (x.lane l).control.invert.apply (((x.lane l).rx.lastStable.map Identity.polarity).getD .normal) := by
  rw [Port.checkCorrection, if_neg fun both => both.1 manual]
  cases (x.lane l).rx.lastStable <;> rfl

theorem Checker.strayed_off_iff {h : Checker} : h.strayed = .off ↔ h = .off := by cases h <;> simp [Checker.strayed]

/-- A checker that counts on is waiting where it was off. -/
theorem Checker.follow_of_off {near : Bool} {content : Content} {lock : PatternLock} {correction : Polarity} :
    Checker.follow .off true near content lock correction = .waiting := rfl

/-- A block in hand under a check correction keeps its one correction only where that is the same (R24). -/
theorem Checker.follow_of_block {start : BlockStart} {searching near : Bool} {o : Option Polarity} {content : Content}
    {lock : PatternLock} {correction : Polarity} : Checker.follow (.block start searching o) true near content lock correction =
      .block (start.placed near content) (searching || decide (lock = .searching)) (if o = some correction then o else none) := rfl

/-! ### What follows from an exclusion (R59, R62, R88, R113) -/

theorem State.afterExclude_of_ne (h : (u.port p).state ≠ .consult) : u.afterExclude p l = u := by
  rw [State.afterExclude, if_neg fun both => h both.1]

theorem State.afterInclude_of_ne (discover : (u.port p).state ≠ .discover) (dark : (u.port p).state ≠ .dark) : u.afterInclude p = u := by
  rw [State.afterInclude, if_neg fun both => discover both.1, State.darkTest, if_neg]
  rintro ⟨h | h, _⟩
  · exact dark h
  · exact discover h.1

theorem Local.Controlled.record (h : k.Controlled j l c z b) : { j.port with lanes := k.port.lanes } = k.port := by rw [h.port]; rfl

theorem Local.Controlled.field {α : Type} (h : k.Controlled j l c z b) (f : Port → α) :
    f { j.port with lanes := k.port.lanes } = f k.port := congrArg f h.record

theorem Local.Controlled.state (h : k.Controlled j l c z b) : j.port.state = k.port.state := by rw [h.port]; rfl

section Controlled

variable (h : k.Controlled j l c z b)
include h

theorem Local.Controlled.lane : j.port.lane l =
    { z with
      autoLoop := b
      gen := z.nextGen ((k.port.putLane l { z with autoLoop := b }).content l)
      block := if (k.port.putLane l { z with autoLoop := b }).content l = .prbs then z.block else none
      checker := z.checker.follow ((k.port.putLane l { z with autoLoop := b }).counts l)
        ((k.port.putLane l { z with autoLoop := b }).nearEnd l) ((k.port.putLane l { z with autoLoop := b }).content l)
        ((k.port.putLane l { z with autoLoop := b }).lock l) ((k.port.putLane l { z with autoLoop := b }).checkCorrection l) } := by
  rw [h.port, Port.sync_lane, Port.putLane_lane]
  rfl

theorem Local.Controlled.other (other : m ≠ l) : { j.port.lane m with
    gen := (k.port.lane m).gen, block := (k.port.lane m).block, checker := (k.port.lane m).checker } = k.port.lane m := by
  rw [h.port, Port.sync_lane, Port.putLane_lane_of_ne _ _ other]

theorem Local.Controlled.lastStable : z.rx.lastStable = (k.port.lane l).rx.lastStable := by
  by_cases left : k.port.leavesNear l c
  · rw [(h.stores.left left).2]; rfl
  · rw [(h.stores.stays left).2]

theorem Local.Controlled.restarted (left : k.port.leavesNear l c) : z.patternLock = .searching ∧ z.rx.state = .silent ∧
    z.rx.goodRun = 0 ∧ z.rx.badRun = 0 ∧ z.rx.stabRun = 0 ∧ z.rx.far = none ∧ z.rx.lastStable = (k.port.lane l).rx.lastStable := by
  obtain ⟨lock, rx⟩ := h.stores.left left
  rw [rx]
  exact ⟨lock, rfl, rfl, rfl, rfl, rfl, rfl⟩

theorem Local.Controlled.unlooped (other : k.port.state ≠ .faulted) : b = false := by
  rw [Bool.eq_false_iff, Ne, h.loops]
  exact fun all => other all.1

theorem Local.Controlled.loopSeen (quiet : (k.port.lane l).rx.loopSeen = false) : z.rx.loopSeen = false := by
  by_cases left : k.port.leavesNear l c
  · rw [(h.stores.left left).2]; rfl
  · rw [(h.stores.stays left).2, quiet]

theorem Local.Controlled.still (other : k.port.state ≠ .faulted) (still : k.port.Still) : j.port.Still := fun m => by
  by_cases here : m = l
  · subst here
    rw [h.lane]
    exact h.unlooped other
  · exact (congrArg Lane.autoLoop (h.other here)).trans (still m)

theorem Local.Controlled.unasked (unasked : k.port.Unasked) : j.port.Unasked := fun m => by
  by_cases here : m = l
  · subst here
    rw [h.lane]
    exact h.loopSeen (unasked m)
  · exact (congrArg (fun y : Lane => y.rx.loopSeen) (h.other here)).trans (unasked m)

variable (manual : k.port.state = .manual)
include manual

theorem Local.Controlled.gen_begins (owner : (k.port.lane l).owner = .part) (idle : (k.port.lane l).gen = none) (prbs : c.source = .prbs)
    (far : c.far = false) (free : c.excluded = false) : (j.port.lane l).gen = some 0 := by
  have content : (k.port.putLane l { z with autoLoop := b }).content l = .prbs := by
    refine Port.content_of_source manual ?_ ?_ ?_ ?_ ?_ <;> rw [Port.putLane_lane]
    · exact h.stores.owner.trans owner
    · exact (congrArg Control.excluded h.stores.control).trans free
    · exact (congrArg Control.far h.stores.control).trans far
    · exact h.unlooped (by rw [manual]; decide)
    · exact (congrArg Control.source h.stores.control).trans prbs
  rw [h.lane]
  show z.nextGen _ = _
  rw [content, Lane.nextGen, if_pos rfl, h.stores.gen, idle]
  rfl

theorem Local.Controlled.gen_absent (other : c.source ≠ .prbs) : (j.port.lane l).gen = none := by
  rw [h.lane]
  refine if_neg fun prbs => other ?_
  have source := Port.content_of_manual (x := k.port.putLane l { z with autoLoop := b }) manual prbs
  rw [Port.putLane_lane] at source
  exact (congrArg Control.source h.stores.control).symm.trans source

theorem Local.Controlled.counts : (k.port.putLane l { z with autoLoop := b }).counts l = c.checkPrbs := by
  rw [Port.counts_of_manual (x := k.port.putLane l { z with autoLoop := b }) manual, Port.putLane_lane]
  exact congrArg Control.checkPrbs h.stores.control

theorem Local.Controlled.checker_manual : (j.port.lane l).checker =
    if c.checkPrbs = false then .off else if (k.port.lane l).checker = .off then .waiting else (j.port.lane l).checker := by
  rw [h.lane]
  show z.checker.follow ((k.port.putLane l { z with autoLoop := b }).counts l) _ _ _ _ = _
  rw [h.counts manual]
  split
  · next unchecked => rw [unchecked]; rfl
  · next checks =>
    split
    · next off =>
      have off' : z.checker = .off := by
        rcases h.stores.checker with same | strayed
        · exact same.trans off
        · exact strayed.trans (Checker.strayed_off_iff.2 off)
      rw [off', eq_true_of_ne_false checks, Checker.follow_of_off]
    · rfl

theorem Local.Controlled.checker_block {start : BlockStart} {searching : Bool} {o : Option Polarity} (checks : c.checkPrbs = true)
    (held : (k.port.lane l).checker = .block start searching o) : ∃ st' b', (j.port.lane l).checker = .block st' b'
      (if o = some (c.invert.apply (((k.port.lane l).rx.lastStable.map Identity.polarity).getD .normal)) then o else none) := by
  have correction : (k.port.putLane l { z with autoLoop := b }).checkCorrection l =
      c.invert.apply (((k.port.lane l).rx.lastStable.map Identity.polarity).getD .normal) := by
    rw [Port.checkCorrection_of_manual (x := k.port.putLane l { z with autoLoop := b }) manual, Port.putLane_lane]
    show z.control.invert.apply ((z.rx.lastStable.map Identity.polarity).getD .normal) = _
    rw [h.stores.control, h.lastStable]
  obtain ⟨start', block⟩ : ∃ start', z.checker = .block start' searching o := by
    rcases h.stores.checker with same | strayed
    · exact ⟨start, same.trans held⟩
    · exact ⟨.astride, strayed.trans (congrArg Checker.strayed held)⟩
  rw [h.lane]
  show ∃ st' b', z.checker.follow ((k.port.putLane l { z with autoLoop := b }).counts l) _ _ _ _ = _
  rw [h.counts manual, checks, correction, block, Checker.follow_of_block]
  exact ⟨_, _, rfl⟩

end Controlled

theorem Local.enterFaulted_control (k : Local) (p : PortIx) (g : Settings) (r : FaultReason) (l : LanePos) :
    ((k.enterFaulted p g r).port.lane l).control = (k.port.lane l).control :=
  (Local.transition_control (k := k.tell _)).trans Local.left_control

/-- Storing a record, where no exclusion set or cleared moves the port. -/
theorem State.put_storeControl_stays (h : k.port.state ∉ [PortState.discover, .dark, .consult] ∨
      c.excluded = (k.port.lane l).control.excluded ∧ (k.port.lane l).autoLoop = false ∧ (k.port.lane l).rx.loopSeen = false) :
    (s.put p k).storeControl p l c = s.put p (k.storeControl p s.settings l c) := by
  have calm : k.port.state ≠ .discover ∨
      c.excluded = (k.port.lane l).control.excluded ∧ (k.port.lane l).autoLoop = false ∧ (k.port.lane l).rx.loopSeen = false :=
    h.imp_left fun other discover => other (by rw [discover]; decide)
  obtain ⟨z, b, controlled⟩ := Local.storeControl_controlled (k := k) (p := p) (l := l) (c := c) s.settings (calm.imp_right And.right)
  rw [State.put_storeControl calm]
  rcases h with other | ⟨same, _⟩
  · have not : ∀ a ∈ [PortState.discover, .dark, .consult], (k.storeControl p s.settings l c).port.state ≠ a := fun a ha eq =>
      other (by rw [← controlled.state, eq]; exact ha)
    split
    · rw [State.afterExclude_of_ne (by rw [State.put_port]; exact not _ (by decide))]
    · split
      · rw [State.afterInclude_of_ne (by rw [State.put_port]; exact not _ (by decide)) (by rw [State.put_port]; exact not _ (by decide))]
      · rfl
  · rw [same, Bool.and_not_self, if_neg (by decide), if_neg (by decide)]

/-- Settles O46: the record is stored and acts on its lane, and an exclusion set or cleared moves its port where the rules say. -/
theorem laneControlActsAtOnce : Obligations.LaneControlActsAtOnce := by
  intro port lane r s
  refine ⟨fun bad => exec_laneControl_of_bad ?_, ?_⟩
  · rcases bad with h | h | h
    · exact .inl h
    · exact .inr (.inl h)
    · exact .inr (.inr (judgeControl_eq_none h))
  intro p l c hp hl source pattern loopReq hold check near far invert excluded one x y quiet leaves
  have judged := judgeControl_eq_some source pattern loopReq hold check near far invert excluded one
  have runs := exec_laneControl_of_judged (s := s) (portLaneOf_eq_some hp hl) judged
  refine ⟨fun stays => ?_, ?_, ?_⟩
  · obtain ⟨t, runs, became⟩ := became_of_accept runs (State.put_storeControl_stays (k := s.held p) stays)
    obtain ⟨z, b, controlled⟩ := Local.storeControl_controlled (k := s.held p) (p := p) (l := l) (c := c) s.settings
      (stays.imp (fun other discover => other (by rw [show x.state = .discover from discover]; decide)) And.right)
    have stores := controlled.stores
    have lane := controlled.lane
    refine ⟨t, runs, became.toOnlyPort, became.esu.trans controlled.esu, by rw [became.port]; exact controlled.record,
      fun m other => by rw [became.lane]; exact controlled.other other, ?_⟩
    rw [became.lane]
    refine ⟨by rw [lane]; exact stores.control, by rw [lane]; exact stores.injection, fun left => by rw [lane]; exact controlled.restarted left,
      fun not => by rw [lane]; exact stores.stays not, ?_, by rw [lane]; exact controlled.loops, by rw [lane]; exact stores.owner,
      by rw [lane]; exact stores.eq, by rw [lane]; exact stores.monitor, by rw [lane]; exact stores.counters,
      fun manual owner idle prbs far free => controlled.gen_begins manual owner idle prbs far free,
      fun other manual => controlled.gen_absent manual other, controlled.checker_manual, fun manual checks start searching o held => ?_,
      fun still other => ?_⟩
    · rw [lane]
      refine stores.tap.trans ?_
      cases c.invert <;> rfl
    · obtain ⟨st', b', block⟩ := controlled.checker_block manual checks held
      refine ⟨st', b', block.trans (congrArg _ ?_)⟩
      cases c.invert <;> rfl
    · rw [became.reports, controlled.told still other, controlled.kept]
      rfl
  · intro consult found was now quiet inside kind
    have state : (s.held p).port.state = .consult := consult
    obtain ⟨z, b, controlled⟩ := Local.storeControl_controlled (k := s.held p) (p := p) (l := l) (c := c) s.settings
      (.inl (by rw [state]; decide))
    have stores := controlled.stores
    have lane := controlled.lane
    generalize hj : (s.held p).storeControl p s.settings l c = j at *
    have stored : (s.put p (s.held p)).storeControl p l c = (s.put p (j.tell
        [{ port := some p, lane := some l, detail := .consultWithdrawn .excluded x.neighbour }])).enterDiscover p := by
      have found' : ((s.put p j).port p).found l = true := by
        rw [State.put_port, Port.found, show j.port.map = x.map from controlled.field Port.map]
        exact Option.isSome_iff_ne_none.2 found
      have state' : ((s.put p j).port p).state = .consult := by rw [State.put_port, controlled.state]; exact consult
      have neighbour : j.port.neighbour = x.neighbour := controlled.field Port.neighbour
      rw [State.put_storeControl (.inl (by rw [state]; decide)), hj, if_pos (by
        rw [now, show ((s.held p).port.lane l).control.excluded = false from was]; rfl), State.afterExclude, if_pos ⟨state', found'⟩,
        State.withdraw, State.put_port, neighbour, State.put_postLane]
    have state' : j.port.state = .consult := controlled.state.trans state
    have control : (j.port.lane l).control = c := by rw [lane]; exact stores.control
    have still : j.port.Still := controlled.still (by rw [state]; decide) fun m => (quiet m).1
    have unasked : j.port.Unasked := controlled.unasked fun m => (quiet m).2
    have stays : ((j.tell [{ port := some p, lane := some l, detail := .consultWithdrawn .excluded x.neighbour }]).enterDiscover p
        s.settings (s.plan.resolve p)).port.Searching (s.plan.resolve p) :=
      Local.enterDiscover_unusable inside (.inl (by rw [Local.tell_port, control]; exact now)) kind
    obtain ⟨t, runs, became⟩ := became_of_accept runs
      (stored.trans (State.put_enterDiscover (by rw [Local.tell_port, state']; decide) stays))
    have came := Local.enterDiscover_rediscovered (n := s.plan.resolve p) (Local.enterDiscover_stageTimer (p := p) (g := s.settings)
      (k := j.tell [{ port := some p, lane := some l, detail := .consultWithdrawn .excluded x.neighbour }]) unasked)
    refine ⟨t, runs, became.toOnlyPort, ?_⟩
    rw [became.port, became.lane]
    refine ⟨came.state, came.snapshot, came.found.1, came.stageTimer, came.map,
      (Local.transition_control.trans Local.left_control).trans control, ?_⟩
    rw [became.reports, Local.enterDiscover_told (k := j.tell _) still unasked, Local.enterDiscover_kept, Local.tell_told, Local.tell_kept,
      Local.tell_port, controlled.kept, controlled.told (quiet l).1 (by rw [state]; decide), state']
    rfl
  · intro dark was now heard
    have state : (s.held p).port.state = .dark := dark
    obtain ⟨z, b, controlled⟩ := Local.storeControl_controlled (k := s.held p) (p := p) (l := l) (c := c) s.settings
      (.inl (by rw [state]; decide))
    have stores := controlled.stores
    have lane := controlled.lane
    have counters : ((s.held p).storeControl p s.settings l c).port.counters = x.counters :=
      controlled.field Port.counters
    have state' := controlled.state.trans state
    have lock : ((s.held p).storeControl p s.settings l c).port.heardLock = true := by
      refine Port.heardLock_eq_true.2 ⟨l, ?_⟩
      rw [lane]
      refine ⟨(congrArg Control.excluded stores.control).trans now, ?_⟩
      show z.rx.state = _ ∨ z.rx.state = _
      rw [(stores.stays fun leaves => absurd (state.symm.trans leaves.1) (by decide)).2]
      exact heard
    have stored : (s.put p (s.held p)).storeControl p l c =
        s.put p (((s.held p).storeControl p s.settings l c).enterFaulted p s.settings .unexpectedCable) := by
      rw [State.put_storeControl (.inl (by rw [state]; decide)), now, show ((s.held p).port.lane l).control.excluded = true from was,
        if_neg (by decide), if_pos (by decide), State.afterInclude, State.put_port,
        if_neg fun both => absurd (state'.symm.trans both.1) (by decide), State.darkTest, State.put_port, if_pos ⟨.inl state', lock⟩,
        State.put_enterFaulted _ (by rw [state']; decide)]
    obtain ⟨t, runs, became⟩ := became_of_accept runs stored
    have arrives := ((s.held p).storeControl p s.settings l c).enterFaulted_arrives p s.settings .unexpectedCable
    have counted := ((s.held p).storeControl p s.settings l c).enterFaulted_counters p s.settings .unexpectedCable
    simp only [counters] at counted
    refine ⟨t, runs, became.toOnlyPort, ?_⟩
    rw [became.port, became.lane]
    refine ⟨arrives.state, arrives.fault, ?_, counted⟩
    rw [Local.enterFaulted_control, lane]
    exact stores.control

end Sys2Proof.Machine
end

section
/-! SUPPORT. The refutation of the statement about arriving beacons. Where the last lane of a discovery becomes usable it asks for an
unchanged ESU whatever the port's mode, but names the far end's stage for AUTO alone: a port in DISCOVER whose mode is MANUAL, and whose
far end is at WAIT already, goes on through PEER_WAIT into the wait queue and is granted a channel. -/

namespace Sys2Proof.Machine

/-- A beacon of the far port at WAIT, heard on lane 7. -/
def waitBeacon : Beacon :=
  { chassis := 7, portNum := 3, lane := 7, count := .eight, stage := .wait
    flags := { hold := false, retrain := false, remoteFault := false, loopReq := false }, fault := none, tap := none }

/-- A lane on the far lane of its own number: lane 7 LOCKED one beacon before STABLE, the others STABLE, the far end at WAIT on all. -/
def waitHeard (l : LanePos) : Receiver :=
  let i : Identity := { chassis := 7, portNum := 3, lane := l, count := .eight, polarity := .normal }
  { Receiver.fresh with state := if l = 7 then .locked else .stable, goodRun := 4, candidate := some i
                        stabRun := if l = 7 then 3 else 4, lastStable := if l = 7 then none else some i
                        far := some waitBeacon.farEnd }

/-- The snapshot of the port: a NORMAL entry of eight lanes. -/
def normalSnapshot : Snapshot := { entry := { PlanEntry.resetBackground with kind := .normal }, source := .base }

/-- Port 0 in cabled discovery under the mode MANUAL, one beacon before its end. -/
def manualDiscovery : State :=
  State.reset.modPort 0 fun x =>
    Port.mapLanes { x with state := .discover, mode := .manual, snapshot := some normalSnapshot } fun l y => { y with rx := waitHeard l }

/-- The number of grants made once a command has run. -/
def State.grantsAfter (s : State) (c : Instr) : Nat :=
  match exec c s with
  | .next t => t.esu.grants
  | .fault _ | .refused _ => 0

theorem State.grantsAfter_of_next {s t : State} {c : Instr} (h : exec c s = .next t) : s.grantsAfter c = t.esu.grants := by
  rw [State.grantsAfter, h]

theorem manualDiscovery_grants : manualDiscovery.grantsAfter (.beaconArrival 0 7 (waitBeacon.bytes false)) = 1 := by decide +kernel

theorem manualDiscovery_derives : ∃ v, (derive normalSnapshot ((manualDiscovery.port 0).modLane 7 fun z =>
    { z with rx := ((waitHeard 7).good waitBeacon .normal).1 }).usables).outcome = .ok (v, .straight, .full) := ⟨_, rfl⟩

/-- Refutes O48: the port in MANUAL mode that ends its discovery in AWAIT_SLOT, and so in TUNE, changes the ESU. -/
theorem not_beaconArrivalReachesReceiver : ¬ Obligations.BeaconArrivalReachesReceiver := by
  intro h
  obtain ⟨-, -, hears⟩ := h 0 7 (waitBeacon.bytes false) manualDiscovery
  obtain ⟨-, outcomes⟩ := hears (by decide +kernel) (by decide +kernel) (by decide +kernel)
  obtain ⟨-, -, ends, -, -⟩ := outcomes ((waitHeard 7).good waitBeacon .normal).1 ctrBeaconGood
    ((waitHeard 7).good waitBeacon .normal).2 (.inr ⟨waitBeacon, .normal, by decide +kernel, by decide +kernel, rfl⟩)
  obtain ⟨-, completes⟩ := ends (by decide +kernel) normalSnapshot (by decide +kernel) (by decide +kernel) (by decide +kernel)
    (by decide +kernel) (by decide +kernel) (by decide +kernel) (by decide +kernel) (by decide +kernel) (by decide +kernel)
    (.inl (by decide +kernel))
  obtain ⟨v, derives⟩ := manualDiscovery_derives
  obtain ⟨t, runs, -, esu, -⟩ := completes v .straight .full derives fun auto => absurd auto (by decide +kernel)
  have grants := State.grantsAfter_of_next runs
  rw [manualDiscovery_grants, esu] at grants
  exact absurd grants (by decide +kernel)

end Sys2Proof.Machine
end

section
/-! SUPPORT. A good beacon taken in by a lane of a port outside DISCOVER and FAULTED (R2, R7, R28, R29, R33): what it leaves of the lane
and its port, before the port takes the lane's events. -/

namespace Sys2Proof.Machine

variable {s t u : State} {p : PortIx} {k j : Local} {l m : LanePos} {x : Port} {y : Lane} {b : Beacon} {pol : Polarity} {r : Receiver}
  {bytes : List Byte} {g : Settings} {vs : List LaneEvent}

/-! ### The lane -/

/-- A lane in far-end loopback puts on its line what arrives (R28, R29). -/
def Local.echoed (k : Local) (l : LanePos) (bytes : List Byte) : Local :=
  if k.port.content l = .looped then k.modPort (·.modLane l fun y => { y with sent := some bytes }) else k

theorem State.put_loopBack (s : State) (p : PortIx) (k : Local) (l : LanePos) (bytes : List Byte) :
    (s.put p k).loopBack p l bytes = s.put p (k.echoed l bytes) := by
  rw [State.loopBack, State.put_port, Local.echoed]
  split
  · exact State.put_modLane ..
  · rfl

/-- A lane that has taken in a good beacon: counted, its tap request honoured, its receive record moved (R2, R7, R33). -/
def Local.hears (k : Local) (p : PortIx) (l : LanePos) (b : Beacon) (pol : Polarity) : Local :=
  (k.countLane p l ctrBeaconGood 1).modPort (·.modLane l fun y =>
    (if k.port.honoursTaps then y.honour b.tap else y).received ((k.port.lane l).rx.good b pol).1 (k.port.nearEnd l) (k.port.lock l)
      (k.port.correctionAfter l ((k.port.lane l).rx.good b pol).1))

theorem State.put_heardGood (s : State) (p : PortIx) (k : Local) (l : LanePos) (b : Beacon) (pol : Polarity) :
    (s.put p k).heardGood p l b pol = (s.put p (k.hears p l b pol)).handEvents p l ((k.port.lane l).rx.good b pol).2 := by
  rw [State.heardGood]
  simp only [State.put_port, State.put_countLane, State.put_modLane]
  rfl

theorem Lane.honour_eq (y : Lane) (taps : Option Taps) : { y.honour taps with eq := y.eq } = y := by cases taps <;> rfl

/-- What a good beacon leaves of a port outside DISCOVER and FAULTED: its record, its other lanes, and of the lane itself all but what a
receiver moves; with some reports of its own. -/
structure Local.Takes (k j : Local) (l : LanePos) (r : Receiver) (own : List Report) : Prop where
  record : { j.port with lanes := k.port.lanes } = k.port
  others : ∀ m, m ≠ l → j.port.lane m = k.port.lane m
  rx : (j.port.lane l).rx = r
  counters : (j.port.lane l).counters =
    (k.port.lane l).counters.set ctrBeaconGood ((k.port.lane l).counters[ctrBeaconGood].bump 4294967295 1)
  checker : (k.port.lane l).checker = .off → (j.port.lane l).checker = .off
  hunt : (j.port.lane l).monitor.hunt.isSome = (k.port.lane l).monitor.hunt.isSome
  eq : k.port.honoursTaps = false → (j.port.lane l).eq = (k.port.lane l).eq
  owner : (j.port.lane l).owner = (k.port.lane l).owner
  control : (j.port.lane l).control = (k.port.lane l).control
  autoLoop : (j.port.lane l).autoLoop = false
  esu : j.esu = k.esu
  told : (k.port.lane l).autoLoop = false → j.told = k.told ++ own
  kept : (k.port.lane l).counters[ctrBeaconGood].saturates 4294967295 1 = false → j.kept = k.kept

/-- The lane's own operations on its beacon: heard, its changes reported, its loop judged. -/
def Local.takes (k : Local) (p : PortIx) (g : Settings) (l : LanePos) (b : Beacon) (pol : Polarity) : Local :=
  ((k.hears p l b pol).tell (((k.port.lane l).rx.good b pol).2.filterMap (LaneEvent.report p l))).judgeLoop p g l

theorem Checker.interleaved_off {near : Bool} {lock : PatternLock} {c : Polarity} : Checker.interleaved .off near lock c = .off := rfl

theorem Local.takes_lane (h : k.port.state ≠ .discover ∧ k.port.state ≠ .faulted) : ((k.takes p g l b pol).port.lane l) =
    { (if k.port.honoursTaps then ((k.port.lane l).bumped ctrBeaconGood 1).honour b.tap else (k.port.lane l).bumped ctrBeaconGood 1).received
        ((k.port.lane l).rx.good b pol).1 (k.port.nearEnd l) (k.port.lock l)
        (k.port.correctionAfter l ((k.port.lane l).rx.good b pol).1) with autoLoop := false } := by
  have state : (k.hears p l b pol).port.state ≠ .discover ∧ (k.hears p l b pol).port.state ≠ .faulted := h
  rw [Local.takes, Local.judgeLoop, Local.modPort_port, Local.tell_port, Local.tell_port, Port.judgeLoop_eq (.inl state.1),
    Port.lane_modLane_self, Port.loopHolds_eq_false (.inl state), Local.hears, Local.modPort_port, Port.lane_modLane_self,
    Local.countLane, Local.keep_port, Local.modPort_port, Port.lane_modLane_self]

theorem Local.takes_takes (h : k.port.state ≠ .discover ∧ k.port.state ≠ .faulted) :
    k.Takes (k.takes p g l b pol) l ((k.port.lane l).rx.good b pol).1
      (((k.port.lane l).rx.good b pol).2.filterMap (LaneEvent.report p l)) := by
  have lane := Local.takes_lane (p := p) (g := g) (l := l) (b := b) (pol := pol) h
  have state : (k.hears p l b pol).port.state ≠ .discover ∧ (k.hears p l b pol).port.state ≠ .faulted := h
  have port : (k.takes p g l b pol).port = (k.hears p l b pol).port.modLane l fun y =>
      { y with autoLoop := (k.hears p l b pol).port.loopHolds l } := Port.judgeLoop_eq (.inl state.1) g
  have honoured : ∀ {α : Type} (f : Lane → α), (∀ w : Lane, ∀ e, f { w with eq := e } = f w) →
      f (if k.port.honoursTaps then ((k.port.lane l).bumped ctrBeaconGood 1).honour b.tap else (k.port.lane l).bumped ctrBeaconGood 1) =
        f ((k.port.lane l).bumped ctrBeaconGood 1) := fun f same => by
    split
    · rw [← same _ ((k.port.lane l).bumped ctrBeaconGood 1).eq, Lane.honour_eq]
    · rfl
  refine ⟨by rw [port]; rfl, fun m other => ?_, by rw [lane]; rfl, ?_, fun off => ?_, ?_, fun deaf => ?_, ?_, ?_, by rw [lane], rfl,
    fun still => ?_, fun below => ?_⟩
  · rw [port, Port.lane_modLane_of_ne _ _ other]
    exact (Port.lane_modLane_of_ne _ _ other).trans (Port.lane_modLane_of_ne _ _ other)
  · rw [lane]; exact honoured Lane.counters fun _ _ => rfl
  · rw [lane]
    show Checker.interleaved (Lane.checker _) _ _ _ = _
    rw [honoured Lane.checker fun _ _ => rfl, show ((k.port.lane l).bumped ctrBeaconGood 1).checker = .off from off, Checker.interleaved_off]
  · rw [lane]
    show (Option.map _ _).isSome = _
    rw [Option.isSome_map]
    exact honoured (fun w => w.monitor.hunt.isSome) fun _ _ => rfl
  · rw [lane, deaf]; rfl
  · rw [lane]; exact honoured Lane.owner fun _ _ => rfl
  · rw [lane]; exact honoured Lane.control fun _ _ => rfl
  · have same : (k.hears p l b pol).port.loopHolds l = ((k.hears p l b pol).port.lane l).autoLoop := by
      rw [Port.loopHolds_eq_false (.inl state), Local.hears, Local.modPort_port, Port.lane_modLane_self, Local.countLane,
        Local.keep_port, Local.modPort_port, Port.lane_modLane_self]
      exact ((honoured Lane.autoLoop fun _ _ => rfl).trans still).symm
    have same' : ((k.hears p l b pol).tell (((k.port.lane l).rx.good b pol).2.filterMap (LaneEvent.report p l))).port.loopHolds l =
        (((k.hears p l b pol).tell (((k.port.lane l).rx.good b pol).2.filterMap (LaneEvent.report p l))).port.lane l).autoLoop := same
    rw [Local.takes, Local.judgeLoop_of_eq same']
    rfl
  · show k.kept ++ (k.port.lane l).saturation p l ctrBeaconGood 1 = k.kept
    rw [Lane.saturation_of_not below, List.append_nil]

namespace Local.Takes

variable {own : List Report} (h : k.Takes j l r own)
include h

theorem field {α : Type} (f : Port → α) : f { j.port with lanes := k.port.lanes } = f k.port := congrArg f h.record

theorem state : j.port.state = k.port.state := h.field Port.state

theorem mapped : j.port.map = k.port.map := h.field Port.map

/-- What holds of every lane of the port is known once it is known of the lane that heard. -/
theorem all {P : LanePos → Lane → Prop} (here : P l (j.port.lane l)) (others : ∀ m, m ≠ l → P m (k.port.lane m)) (m : LanePos) :
    P m (j.port.lane m) := by
  by_cases same : m = l
  · exact same ▸ here
  · rw [h.others m same]; exact others m same

theorem still (still : k.port.Still) : j.port.Still := h.all (P := fun _ y => y.autoLoop = false) h.autoLoop fun m _ => still m

theorem unasked (unasked : k.port.Unasked) (deaf : r.loopSeen = false) : j.port.Unasked :=
  h.all (P := fun _ y => y.rx.loopSeen = false) (by rw [h.rx]; exact deaf) fun m _ => unasked m

theorem stands (esu : k.esu = s.esu) (port : k.port = s.port p) : j.Stands s p :=
  ⟨h.esu.trans esu, h.state.trans (port ▸ rfl), (h.field Port.channel).trans (port ▸ rfl)⟩

end Local.Takes

theorem State.put_handEvents_plain (h : k.port.state ≠ .discover) (vs : List LaneEvent) : (s.put p k).handEvents p l vs =
    vs.foldl (fun t v => t.laneEvent p l v)
      (s.put p ((k.tell (vs.filterMap (LaneEvent.report p l))).judgeLoop p s.settings l)) := by
  rw [State.handEvents, State.put_reportChanges, State.put_loopCheck_plain (k := k.tell _) (.inl h)]

/-- A good beacon, up to the events its lane hands the port. -/
theorem State.put_heardGood_takes (h : k.port.state ≠ .discover) : (s.put p k).heardGood p l b pol =
    ((k.port.lane l).rx.good b pol).2.foldl (fun t v => t.laneEvent p l v) (s.put p (k.takes p s.settings l b pol)) := by
  rw [State.put_heardGood, State.put_handEvents_plain (k := k.hears p l b pol) h]
  rfl

/-- A lane in loopback holds what it held but for what is on its line. -/
theorem Local.echoed_lane (k : Local) (l m : LanePos) (bytes : List Byte) :
    { (k.echoed l bytes).port.lane m with sent := (k.port.lane m).sent } = k.port.lane m := by
  unfold Local.echoed
  split
  · rw [Local.modPort_port, Port.lane_modLane]
    split_ifs with same
    · rw [same]
    · rfl
  · rfl

theorem Local.echoed_lane_of_ne (k : Local) (bytes : List Byte) (h : m ≠ l) : (k.echoed l bytes).port.lane m = k.port.lane m := by
  unfold Local.echoed
  split
  · exact Port.lane_modLane_of_ne _ _ h
  · rfl

theorem Local.echoed_field {α : Type} (k : Local) (l m : LanePos) (bytes : List Byte) (f : Lane → α) :
    f { (k.echoed l bytes).port.lane m with sent := (k.port.lane m).sent } = f (k.port.lane m) := by rw [Local.echoed_lane]

theorem Local.echoed_record (k : Local) (l : LanePos) (bytes : List Byte) :
    { (k.echoed l bytes).port with lanes := k.port.lanes } = k.port := by
  unfold Local.echoed
  split <;> rfl

theorem Local.echoed_rest (k : Local) (l : LanePos) (bytes : List Byte) :
    (k.echoed l bytes).esu = k.esu ∧ (k.echoed l bytes).told = k.told ∧ (k.echoed l bytes).kept = k.kept := by
  unfold Local.echoed
  split <;> exact ⟨rfl, rfl, rfl⟩

/-- Taking in a beacon that the line may carry back leaves as much as taking it in. -/
theorem Local.Takes.of_echoed {own : List Report} (h : (k.echoed l bytes).Takes j l r own) : k.Takes j l r own := by
  have lane := fun {α : Type} (f : Lane → α) => k.echoed_field l l bytes f
  have record : k.port.honoursTaps = (k.echoed l bytes).port.honoursTaps :=
    (congrArg Port.honoursTaps (k.echoed_record l bytes).symm).trans rfl
  obtain ⟨esu, told, kept⟩ := k.echoed_rest l bytes
  have counters : ((k.echoed l bytes).port.lane l).counters = (k.port.lane l).counters := lane Lane.counters
  refine ⟨(congrArg (fun w : Port => { w with lanes := k.port.lanes }) h.record).trans (k.echoed_record l bytes),
    fun m other => (h.others m other).trans (k.echoed_lane_of_ne bytes other), h.rx, by rw [h.counters, counters],
    fun off => h.checker ((lane Lane.checker).trans off), h.hunt.trans (lane fun w => w.monitor.hunt.isSome),
    fun deaf => (h.eq (record.symm.trans deaf)).trans (lane Lane.eq), h.owner.trans (lane Lane.owner),
    h.control.trans (lane Lane.control), h.autoLoop, h.esu.trans esu, fun still => ?_, fun below => ?_⟩
  · rw [h.told ((lane Lane.autoLoop).trans still), told]
  · rw [h.kept (by rw [counters]; exact below), kept]

end Sys2Proof.Machine
end

section
/-! SUPPORT. A good beacon on a mapped, STABLE lane of a port in its stages: the port reads the far end's stage and flags from it (R89,
R92, R97, R98, R135). -/

namespace Sys2Proof.Machine

variable {s t u : State} {p : PortIx} {k j : Local} {l m : LanePos} {x w : Port} {b : Beacon} {pol : Polarity} {bytes : List Byte}
  {g : Option Stage} {vs : List LaneEvent} {a : Stage}

/-! ### The events of a lane that stays on its identity -/

theorem State.put_receiveGood (s : State) (p : PortIx) (k : Local) (l : LanePos) (b : Beacon) (pol : Polarity) :
    (s.put p k).receiveGood p l b pol = if (((s.put p k).heardGood p l b pol).port p).state = k.port.state
      then ((s.put p k).heardGood p l b pol).farTests p l b k.port.farStage else (s.put p k).heardGood p l b pol := by
  rw [State.receiveGood_eq, State.put_port]

theorem exec_beaconArrival_of_good (receives : (s.port p).receives l = true) (good : classify bytes = .good b pol) :
    exec (.beaconArrival p l bytes) s = ((s.put p ((s.held p).echoed l bytes)).receiveGood p l b pol).done := by
  show execBeaconArrival p l bytes s = _
  rw [execBeaconArrival, if_pos receives, good, State.opened_eq_put s p, State.put_loopBack]
  rfl

theorem Port.receives_of (on : (x.lane l).rx.state ≠ .off) (running : (x.lane l).rx.suspended = false) (near : x.nearEnd l = false) :
    x.receives l = true := by simp [Port.receives, on, running, near]

/-- Events of a lane that moves neither silence nor identity. -/
def LaneEvent.mild (v : LaneEvent) : Prop := v ≠ .silent ∧ ∀ a c, v ≠ .identityChanged a c

theorem Receiver.wayChange_mild (r : Receiver) (fault : Bool) : ∀ v ∈ r.wayChange fault, v.mild := by
  intro v hv
  unfold Receiver.wayChange wayEvent at hv
  split at hv
  · cases hv
  · split at hv <;> rw [List.mem_singleton] at hv <;> subst hv <;> exact ⟨nofun, nofun⟩

theorem LaneEvent.reports_of_mild (h : ∀ v ∈ vs, v.mild) : vs.filterMap (LaneEvent.report p l) = [] := by
  refine List.filterMap_eq_nil_iff.2 fun v hv => ?_
  cases v with
  | identityChanged a c => exact absurd rfl ((h _ hv).2 a c)
  | _ => rfl

/-- A state that none of some events moves is left by all of them. -/
theorem State.laneEvents_eq (h : ∀ v ∈ vs, u.laneEvent p l v = u) : vs.foldl (fun t v => t.laneEvent p l v) u = u := by
  induction vs with
  | nil => rfl
  | cons v vs ih =>
    rw [List.foldl_cons, h v (by simp)]
    exact ih fun w hw => h w (by simp [hw])

theorem State.lostEvent_of_mild (h : LaneEvent.mild v) : u.lostEvent p l v = u := by
  cases v with
  | silent => exact absurd rfl h.1
  | identityChanged a c => exact absurd rfl (h.2 a c)
  | _ => rfl

/-- The states from PEER_WAIT through HANDOVER, and PAUSED. -/
@[reducible] def PortState.staged (z : PortState) : Prop := z ∈ [PortState.peerWait, .awaitSlot, .tune, .qualify, .handover, .paused]

theorem PortState.staged.ne {z o : PortState} (h : z.staged) (other : ¬o.staged) : z ≠ o := fun same => other (same ▸ h)

theorem State.laneEvents_of_stage (state : (u.port p).state.staged) (mapped : (u.port p).mapped l = true) (h : ∀ v ∈ vs, v.mild) :
    vs.foldl (fun t v => t.laneEvent p l v) u = u :=
  State.laneEvents_eq fun v hv => (State.laneEvent_of_stage state mapped v).trans (State.lostEvent_of_mild (h v hv))

theorem State.farTests_of_stage (state : (u.port p).state.staged) (mapped : (u.port p).mapped l = true) :
    u.farTests p l b g = u.farEndEvent p l b g := by
  simp only [PortState.staged, List.mem_cons, List.not_mem_nil, or_false] at state
  unfold State.farTests
  rcases state with h | h | h | h | h | h <;> rw [h] <;> exact if_pos mapped

/-! ### The far end over the lanes it is taken over (R15) -/

theorem Port.lowestStage_congr (h : ∀ m, (w.lane m).farStage = (x.lane m).farStage) (ls : List LanePos) :
    w.lowestStage ls = x.lowestStage ls := by
  induction ls with
  | nil => rfl
  | cons m ms ih =>
    cases ms with
    | nil => exact h m
    | cons o os =>
      show Stage.lower (w.lane m).farStage (w.lowestStage (o :: os)) = Stage.lower (x.lane m).farStage (x.lowestStage (o :: os))
      rw [h m, ih]

theorem Port.farStage_congr (map : w.map = x.map) (mapClass : w.mapClass = x.mapClass) (rx : ∀ m, (w.lane m).rx = (x.lane m).rx) :
    w.farStage = x.farStage := by
  have set : w.farSet = x.farSet := by
    unfold Port.farSet Port.holdsMap
    rw [mapClass, Port.mappedLanes_congr map]
    simp only [rx]
  rw [Port.farStage, set]
  exact Port.lowestStage_congr (fun m => by rw [Lane.farStage, Lane.farStage, rx]) _

theorem Local.echoed_other {α : Type} (k : Local) (l : LanePos) (bytes : List Byte) (f : Port → α)
    (free : ∀ (x : Port) ls, f { x with lanes := ls } = f x) : f (k.echoed l bytes).port = f k.port := by
  rw [← free _ k.port.lanes, Local.echoed_record]

theorem Local.echoed_farStage (k : Local) (l : LanePos) (bytes : List Byte) : (k.echoed l bytes).port.farStage = k.port.farStage :=
  Port.farStage_congr (k.echoed_other l bytes Port.map fun _ _ => rfl) (k.echoed_other l bytes Port.mapClass fun _ _ => rfl)
    fun m => k.echoed_field l m bytes Lane.rx

/-- A good beacon on a mapped lane that stays STABLE: the port's own record is untouched when it reads the far end from it. -/
theorem exec_beaconArrival_of_stage (state : (s.port p).state.staged) (mapped : (s.port p).map[l].logical ≠ none)
    (good : classify bytes = .good b pol) (stable : (s.lane p l).rx.state = .stable) (running : (s.lane p l).rx.suspended = false)
    (last : (s.lane p l).rx.lastStable = some (b.identity pol)) :
    ∃ j, (s.held p).Takes j l ((s.lane p l).rx.good b pol).1 [] ∧
      exec (.beaconArrival p l bytes) s = ((s.put p j).farEndEvent p l b (s.port p).farStage).done := by
  have manual : (s.port p).state ≠ .manual := state.ne (by decide)
  have on : ((s.port p).lane l).rx.state ≠ .off := by rw [show ((s.port p).lane l).rx.state = .stable from stable]; decide
  have calm : ((s.held p).echoed l bytes).port.state ≠ .discover ∧ ((s.held p).echoed l bytes).port.state ≠ .faulted := by
    rw [show ((s.held p).echoed l bytes).port.state = (s.port p).state from (s.held p).echoed_other l bytes Port.state fun _ _ => rfl]
    exact ⟨state.ne (by decide), state.ne (by decide)⟩
  have rx : (((s.held p).echoed l bytes).port.lane l).rx = (s.lane p l).rx := (s.held p).echoed_field l l bytes Lane.rx
  have mild : ∀ v ∈ ((s.lane p l).rx.good b pol).2, v.mild := by
    rw [Receiver.good_of_same stable last]; exact Receiver.wayChange_mild _ _
  have takes := Local.takes_takes (p := p) (g := s.settings) (l := l) (b := b) (pol := pol) calm
  rw [rx, LaneEvent.reports_of_mild mild] at takes
  have took := takes.of_echoed
  generalize hj : ((s.held p).echoed l bytes).takes p s.settings l b pol = j at took
  have state' : ((s.put p j).port p).state.staged := by rw [State.put_port, took.state]; exact state
  have mapped' : ((s.put p j).port p).mapped l = true := by
    rw [State.put_port, Port.mapped, took.mapped]; exact Option.isSome_iff_ne_none.2 mapped
  have heard : (s.put p ((s.held p).echoed l bytes)).heardGood p l b pol = s.put p j := by
    rw [State.put_heardGood_takes calm.1, hj, rx, State.laneEvents_of_stage state' mapped' mild]
  refine ⟨j, took, ?_⟩
  rw [exec_beaconArrival_of_good (Port.receives_of on running (Port.nearEnd_of_not_manual manual l)) good, State.put_receiveGood, heard,
    if_pos (by rw [State.put_port, took.state]; exact ((s.held p).echoed_other l bytes Port.state fun _ _ => rfl).symm),
    State.farTests_of_stage state' mapped', Local.echoed_farStage]
  rfl

/-! ### What each stage does with the far end -/

section Event

variable (none_faulted : b.fault = none)

theorem State.put_farEndEvent_fault (h : b.fault ≠ none) :
    (s.put p k).farEndEvent p l b g = (s.put p k).enterFaulted p .farEndFault := by
  rw [State.farEndEvent, if_pos (Option.isSome_iff_ne_none.2 h)]

include none_faulted

theorem State.put_farEndEvent_disc (stage : b.stage = .disc) (state : k.port.state ∈ [PortState.awaitSlot, .tune, .qualify, .handover] ∨
    k.port.state = .paused ∧ k.port.pending ≠ some .peerWait) : (s.put p k).farEndEvent p l b g = (s.put p k).enterDiscover p := by
  unfold State.farEndEvent
  rw [State.put_port, none_faulted, if_neg (by decide)]
  rcases state with state | ⟨state, pending⟩
  · simp only [List.mem_cons, List.not_mem_nil, or_false] at state
    rcases state with h | h | h | h <;> simp only [h, stage, if_true]
  · simp only [state, stage, ne_eq, pending, not_false_eq_true, and_self, if_true]

theorem State.put_farEndEvent_held (state : k.port.state = .paused) (pending : k.port.pending = some .peerWait) :
    (s.put p k).farEndEvent p l b g = s.put p k := by
  unfold State.farEndEvent
  rw [State.put_port, none_faulted, if_neg (by decide)]
  simp only [state, pending, ne_eq, not_true_eq_false, and_false, if_false]

theorem State.put_farEndEvent_peerWait (state : k.port.state = .peerWait) :
    (s.put p k).farEndEvent p l b g = (s.put p k).peerTest p := by
  unfold State.farEndEvent
  rw [State.put_port, none_faulted, if_neg (by decide)]
  simp only [state]

theorem State.put_farEndEvent_falls (stage : b.stage ≠ .disc) (fell : fellToWait g k.port.farStage = true)
    (state : k.port.state = .handover ∨ k.port.state = .qualify ∧ k.port.windowBegun = true) :
    (s.put p k).farEndEvent p l b g = (s.put p k).failedAttempt p .qualifyFail := by
  unfold State.farEndEvent
  rw [State.put_port, none_faulted, if_neg (by decide)]
  rcases state with state | ⟨state, begun⟩
  · simp only [state, stage, fell, if_true, if_false]
  · simp only [state, stage, fell, begun, if_true, if_false]

theorem State.put_farEndEvent_closed (stage : b.stage ≠ .disc) (state : k.port.state = .qualify) (closed : k.port.windowBegun = false) :
    (s.put p k).farEndEvent p l b g = (s.put p k).windowTest p := by
  unfold State.farEndEvent
  rw [State.put_port, none_faulted, if_neg (by decide)]
  simp only [state, stage, closed, if_false, Bool.false_eq_true]

theorem State.put_farEndEvent_handover (stage : b.stage ≠ .disc) (state : k.port.state = .handover)
    (held : fellToWait g k.port.farStage = false) :
    (s.put p k).farEndEvent p l b g = s.put p (k.modPort (·.readyHeard l (decide (b.stage = .ready)))) := by
  unfold State.farEndEvent
  rw [State.put_port, none_faulted, if_neg (by decide)]
  simp only [state, stage, held, if_false, Bool.false_eq_true]
  exact State.put_modPort ..

end Event

end Sys2Proof.Machine
end

section
/-! SUPPORT. The way into AWAIT_SLOT and a failed attempt as their statements name them (R83, R91, R99), and the far-end stage of a port
as its lanes give it (R15). -/

namespace Sys2Proof.Machine

variable {s t u : State} {p : PortIx} {k j : Local} {l m : LanePos} {x w : Port} {g : Settings} {r : FaultReason} {a : Stage}

/-! ### The way into AWAIT_SLOT -/

theorem Local.toAwaitSlot_of_step (step : k.port.mode = .step) : k.toAwaitSlot p g = k.enterPaused p g .awaitSlot := if_pos step

theorem Local.toAwaitSlot_of_not (auto : k.port.mode ≠ .step) : k.toAwaitSlot p g = k.enterAwaitSlot p g := if_neg auto

theorem Local.toAwaitSlot_arrives (k : Local) (p : PortIx) (g : Settings) :
    ∃ z pending, k.Arrives (k.toAwaitSlot p g) z pending none none := by
  unfold Local.toAwaitSlot
  split
  · exact ⟨_, _, k.enterPaused_arrives p g .awaitSlot⟩
  · exact ⟨_, _, k.enterAwaitSlot_arrives p g⟩

theorem Local.toAwaitSlot_counters (k : Local) (p : PortIx) (g : Settings) : (k.toAwaitSlot p g).port.counters =
    if k.port.mode ≠ .step ∧ k.port.cycle = .initial then k.port.counters.set ctrAttempts (k.port.counters[ctrAttempts].bump 65535 1)
    else k.port.counters := by
  by_cases step : k.port.mode = .step
  · rw [Local.toAwaitSlot_of_step step, if_neg fun both => both.1 step, Local.enterPaused_counters]
  · rw [Local.toAwaitSlot_of_not step, Local.enterAwaitSlot_counters]
    simp only [ne_eq, step, not_false_eq_true, true_and]

theorem Local.toAwaitSlot_qualify (k : Local) (p : PortIx) (g : Settings) : (k.toAwaitSlot p g).port.qualify =
    k.port.qualify.map fun q => { q with begun := false } := by
  unfold Local.toAwaitSlot
  split
  · exact k.enterPaused_qualify p g .awaitSlot
  · exact k.enterAwaitSlot_qualify p g

theorem Local.toAwaitSlot_queued (mode : k.port.mode = (s.port p).mode) (esu : k.esu = s.esu) (tune : k.port.state ≠ .tune)
    (await : k.port.state ≠ .awaitSlot) (port : t.port p = (k.toAwaitSlot p g).port) (left : t.esu = (k.toAwaitSlot p g).esu) :
    Queued p k.port.cycle s t := by
  unfold Queued
  by_cases step : k.port.mode = .step
  · rw [Local.toAwaitSlot_of_step step] at port left
    have arrives := k.enterPaused_arrives p g .awaitSlot
    rw [if_pos (mode ▸ step), port, left, Local.enterPaused_esu, Local.undoneEsu_of_ne tune await]
    exact ⟨arrives.state, arrives.pending, esu⟩
  · rw [Local.toAwaitSlot_of_not step] at port left
    have arrives := k.enterAwaitSlot_arrives p g
    rw [if_neg (mode ▸ step), port, left, Local.enterAwaitSlot_esu, Local.undoneEsu_of_ne tune await, esu]
    exact ⟨arrives.state, arrives.pending, rfl⟩

theorem State.put_toAwaitSlot_rests (esu : k.esu.busy = s.esu.busy) (tune : k.port.state ≠ .tune) (await : k.port.state ≠ .awaitSlot)
    (h : k.port.mode = .step ∨ s.noGrant) : (s.put p k).toAwaitSlot p = s.put p (k.toAwaitSlot p s.settings) := by
  refine State.put_toAwaitSlot (h.imp_right fun full => ?_)
  rw [Local.enterAwaitSlot_esu, Local.undoneEsu_of_ne tune await]
  exact .inr (.inr (esu.symm ▸ full : s.settings.sweepLimit ≤ k.esu.busy))

/-! ### A failed attempt -/

/-- What one port's operations have changed so far leaves the port's course, its attempts and counters, and the ESU. -/
structure Local.Carries (s : State) (p : PortIx) (k : Local) : Prop where
  course : (s.port p).keepsCourse k.port
  attempts : k.port.attempts = (s.port p).attempts
  cycle : k.port.cycle = (s.port p).cycle
  counters : k.port.counters = (s.port p).counters
  esu : k.esu = s.esu

theorem Local.Takes.course {l : LanePos} {r : Receiver} {own : List Report} (h : k.Takes j l r own) : k.port.keepsCourse j.port :=
  ⟨h.field Port.mode, h.field Port.snapshot, h.field Port.neighbour, h.field Port.verdict, h.field Port.accepted, h.field Port.map,
    h.field Port.mapClass, h.field Port.width, h.field Port.unstable⟩

theorem Local.Takes.carries {l : LanePos} {r : Receiver} {own : List Report} (h : (s.held p).Takes j l r own) : j.Carries s p :=
  ⟨h.course, h.field Port.attempts, h.field Port.cycle, h.field Port.counters, h.esu⟩

/-- One more attempt made. -/
def Local.tried (k : Local) : Local := k.modPort fun x => { x with attempts := x.attempts + 1 }

theorem Local.failedAttempt_of_third (third : 2 ≤ k.port.attempts) : k.failedAttempt p g r = k.tried.enterFaulted p g r := if_pos third

theorem Local.failedAttempt_of_early (early : ¬2 ≤ k.port.attempts) : k.failedAttempt p g r = k.tried.toAwaitSlot p g := if_neg early

theorem Local.failedAttempt_qualify (k : Local) (p : PortIx) (g : Settings) (r : FaultReason) :
    (k.failedAttempt p g r).port.qualify = k.port.qualify.map fun q => { q with begun := false } := by
  unfold Local.failedAttempt
  split
  · exact Local.enterFaulted_qualify ..
  · exact Local.toAwaitSlot_qualify ..

theorem State.put_failedAttempt_rests (r : FaultReason) (carries : k.Carries s p) (tune : k.port.state ≠ .tune)
    (await : k.port.state ≠ .awaitSlot) (h : (s.port p).mode = .step ∨ 2 ≤ (s.port p).attempts ∨ s.noGrant) :
    (s.put p k).failedAttempt p r = s.put p (k.failedAttempt p s.settings r) := by
  refine State.put_failedAttempt r tune (h.imp (carries.course.mode.trans ·) (.imp (carries.attempts.symm ▸ ·) fun full => ?_))
  rw [Local.enterAwaitSlot_esu, Local.undoneEsu_of_ne (k := k.modPort fun x => { x with attempts := x.attempts + 1 }) tune await, Local.modPort_esu, carries.esu]
  exact full.resting _

/-- A port that has failed an attempt. -/
theorem Local.failedAttempt_failed (carries : k.Carries s p) (tune : k.port.state ≠ .tune) (await : k.port.state ≠ .awaitSlot)
    (port : t.port p = (k.failedAttempt p g r).port) (left : t.esu = (k.failedAttempt p g r).esu) : FailedAttempt p r s t := by
  have course : (s.port p).keepsCourse k.tried.port := carries.course.trans ⟨rfl, rfl, rfl, rfl, rfl, rfl, rfl, rfl, rfl⟩
  have attempts : k.tried.port.attempts = (s.port p).attempts + 1 := congrArg (· + 1) carries.attempts
  by_cases third : 2 ≤ k.port.attempts
  · rw [Local.failedAttempt_of_third third] at port left
    have arrives := k.tried.enterFaulted_arrives p g r
    refine ⟨by rw [port]; exact course.trans arrives.course, by rw [port, arrives.attempts, attempts],
      by rw [port, arrives.cycle]; exact carries.cycle, by rw [port]; exact arrives.stageTimer, ?_⟩
    rw [if_pos (carries.attempts ▸ third), port, left, Local.enterFaulted_esu, Local.enterFaulted_counters,
      Local.undoneEsu_of_ne (k := k.tried) tune await]
    have counters : k.tried.port.counters = (s.port p).counters := carries.counters
    exact ⟨arrives.state, arrives.fault, carries.esu, by rw [counters]⟩
  · rw [Local.failedAttempt_of_early third] at port left
    obtain ⟨z, pending, arrives⟩ := k.tried.toAwaitSlot_arrives p g
    refine ⟨by rw [port]; exact course.trans arrives.course, by rw [port, arrives.attempts, attempts],
      by rw [port, arrives.cycle]; exact carries.cycle, by rw [port]; exact arrives.stageTimer, ?_⟩
    rw [if_neg (carries.attempts ▸ third)]
    have cycle : k.tried.port.cycle = (s.port p).cycle := carries.cycle
    have counters : k.tried.port.counters = (s.port p).counters := carries.counters
    refine ⟨cycle ▸ Local.toAwaitSlot_queued (k := k.tried) course.mode carries.esu tune await port left, ?_⟩
    rw [port, Local.toAwaitSlot_counters k.tried, course.mode, cycle, counters]

/-! ### The far-end stage over the lanes -/

theorem Stage.lower_eq {a b : Option Stage} {c : Stage} (h : Stage.lower a b = some c) : a = some c ∨ b = some c := by
  cases a with
  | none => cases h
  | some a =>
    cases b with
    | none => cases h
    | some b =>
      rw [Stage.lower, Option.bind_some, Option.map_some] at h
      split at h
      · exact .inl h
      · exact .inr h

/-- The far-end stage of a port is that of one of its lanes. -/
theorem Port.lowestStage_mem {ls : List LanePos} (h : x.lowestStage ls = some a) : ∃ m ∈ ls, (x.lane m).farStage = some a := by
  induction ls with
  | nil => cases h
  | cons m ms ih =>
    cases ms with
    | nil => exact ⟨m, by simp, h⟩
    | cons o os =>
      rcases Stage.lower_eq (show Stage.lower (x.lane m).farStage (x.lowestStage (o :: os)) = some a from h) with here | there
      · exact ⟨m, by simp, here⟩
      · obtain ⟨n, hn, far⟩ := ih there
        exact ⟨n, List.mem_cons_of_mem _ hn, far⟩

theorem Port.farStage_mem (held : x.mapClass ≠ none) (h : x.farStage = some a) :
    ∃ m : LanePos, x.map[m].logical ≠ none ∧ (x.lane m).farStage = some a := by
  rw [Port.farStage, Port.farSet_of_map held] at h
  obtain ⟨m, hm, far⟩ := Port.lowestStage_mem h
  exact ⟨m, Port.mem_mappedLanes.1 hm, far⟩

theorem stageAtLeast_iff {g : Stage} {o : Option Stage} : stageAtLeast g o = true ↔ ∃ c, o = some c ∧ g.rank ≤ c.rank := by
  cases o <;> simp [stageAtLeast]

/-- A map's lanes reach a stage together. -/
theorem Port.farStage_atLeast (held : x.mapClass ≠ none) (here : x.map[l].logical ≠ none) : stageAtLeast a x.farStage = true ↔
    ∀ m : LanePos, x.map[m].logical ≠ none → stageAtLeast a (x.lane m).farStage = true := by
  rw [Port.stageAtLeast_farStage, Port.farSet_of_map held]
  constructor
  · exact fun ⟨_, all⟩ m mapped => all m (Port.mem_mappedLanes.2 mapped)
  · exact fun all => ⟨List.ne_nil_of_mem (Port.mem_mappedLanes.2 here), fun m hm => all m (Port.mem_mappedLanes.1 hm)⟩

theorem Stage.wait_le (h : a ≠ .disc) : Stage.wait.rank ≤ a.rank := by
  cases a with
  | disc => exact absurd rfl h
  | _ => decide

theorem Stage.qual_le : Stage.qual.rank ≤ a.rank ↔ a = .qual ∨ a = .ready := by cases a <;> decide

/-- The stage is WAIT where every mapped lane is at WAIT or beyond, and one at WAIT. -/
theorem Port.farStage_wait (held : x.mapClass ≠ none) (beyond : ∀ m : LanePos, x.map[m].logical ≠ none → ∃ c, (x.lane m).farStage = some c ∧ c ≠ .disc)
    (here : x.map[l].logical ≠ none) (waits : (x.lane l).farStage = some .wait) : x.farStage = some .wait := by
  have low : stageAtLeast .wait x.farStage = true := (Port.farStage_atLeast held here).2 fun m mapped => by
    obtain ⟨c, far, other⟩ := beyond m mapped
    exact stageAtLeast_iff.2 ⟨c, far, Stage.wait_le other⟩
  have high : ¬stageAtLeast .qual x.farStage = true := fun all => by
    have := (Port.farStage_atLeast held here).1 all l here
    rw [waits] at this
    exact absurd this (by decide)
  obtain ⟨c, far, _⟩ := stageAtLeast_iff.1 low
  rw [far] at low high ⊢
  cases c with
  | wait => rfl
  | disc => exact absurd low (by decide)
  | qual => exact absurd rfl high
  | ready => exact absurd rfl high

end Sys2Proof.Machine
end

section
/-! SUPPORT. What the far end's stage and flags do to a port (R89, R92, R97, R98, R135, R146). -/

namespace Sys2Proof.Machine

variable {s t u : State} {p : PortIx} {k j : Local} {l m : LanePos} {x w : Port} {b : Beacon} {pol : Polarity} {bytes : List Byte}
  {r : Receiver} {i : Instr}

theorem Receiver.Heard.deaf {r q : Receiver} (h : r.Heard q b) (deaf : r.loopSeen = false) (asks : b.flags.loopReq = false) :
    q.loopSeen = false := by rw [h.loopSeen, deaf, asks]; rfl

/-- The far end of the lane that heard is the beacon's, that of another lane what it was. -/
theorem Local.Takes.farStage (h : (s.held p).Takes j l r []) (far : r.far = some b.farEnd) (m : LanePos) :
    (j.port.lane m).farStage = if m = l then some b.stage else (s.lane p m).rx.far.map FarEnd.stage := by
  split
  · next same =>
    rw [same, Lane.farStage, h.rx, far]
    rfl
  · next other =>
    rw [h.others m other]
    rfl

theorem Local.Takes.farFault_eq_false (h : (s.held p).Takes j l r []) (far : r.far = some b.farEnd) (none_faulted : b.fault = none)
    (held : (s.port p).mapClass ≠ none)
    (others : ∀ m, (s.port p).map[m].logical ≠ none → m ≠ l → ∀ f, (s.lane p m).rx.far = some f → f.fault = none) :
    j.port.farFault = false := by
  have mapClass : j.port.mapClass = (s.port p).mapClass := h.field Port.mapClass
  rw [Port.farFault, Port.farSet_of_map (by rw [mapClass]; exact held), List.any_eq_false]
  intro m hm
  have mapped : (s.port p).map[m].logical ≠ none := by
    rw [show (s.port p).map = j.port.map from h.mapped.symm]; exact Port.mem_mappedLanes.1 hm
  by_cases same : m = l
  · rw [Lane.farFault, same, h.rx, far]
    show ¬(Option.isSome b.fault) = true
    rw [none_faulted]; decide
  · rw [Lane.farFault, h.others m same]
    cases found : ((s.held p).port.lane m).rx.far with
    | none => decide
    | some f =>
      show ¬(Option.isSome f.fault) = true
      rw [others m mapped same f found]; decide

/-- A port that has come into DISCOVER by the far end, its lanes quiet. -/
theorem Local.Takes.rediscovered (h : (s.held p).Takes j l r []) (unasked : j.port.Unasked) :
    (s.port p).rediscovered (j.enterDiscover p s.settings (s.plan.resolve p)).port (s.plan.resolve p) s.settings :=
  (Local.enterDiscover_rediscovered (Local.enterDiscover_stageTimer unasked)).back (h.field Port.mode) (h.field Port.unstable)
    (h.field Port.counters)

/-- What two boundaries of a READY run leave of a handover record (R92). -/
theorem HandRecord.close_eq (h : HandRecord) :
    (h.closing = false ∧ (∀ e ∈ h.entries, 2 ≤ e.readyRun) →
      h.close = { closing := true, entries := h.entries.map fun e => { e with sent := 0 } }) ∧
    (¬(h.closing = false ∧ ∀ e ∈ h.entries, 2 ≤ e.readyRun) → h.close = h) := by
  have closes : (!h.closing && h.entries.all (fun e => decide (2 ≤ e.readyRun))) = true ↔
      h.closing = false ∧ ∀ e ∈ h.entries, 2 ≤ e.readyRun := by simp
  exact ⟨fun both => if_pos (closes.2 both), fun not => if_neg (mt closes.1 not)⟩

/-- A command after which the port alone may have changed, and only in its lanes. -/
theorem Local.Takes.same (h : (s.held p).Takes j l r []) (runs : exec i s = u.done) (ends : u = s.put p j) :
    ∃ t, exec i s = .next t ∧ OnlyPort p s t ∧ t.esu = s.esu ∧ { t.port p with lanes := (s.port p).lanes } = s.port p := by
  obtain ⟨t, runs, became⟩ := became_of_done runs ends
  exact ⟨t, runs, became.toOnlyPort, became.esu.trans h.esu, by rw [became.port]; exact h.record⟩

/-- Settles O49: the port acts on the far end's FAULT, DISC and WAIT, and on its reaching a later stage. -/
theorem farEndFaultFaultsPort : Obligations.FarEndFaultFaultsPort := by
  intro p l bytes b pol s x y quiet far same mapped good stable running last
  have arrives := fun staged : x.state.staged => exec_beaconArrival_of_stage staged mapped good stable running last
  have heard : y.rx.Heard (y.rx.good b pol).1 b := Receiver.good_heard b pol (by rw [stable]; decide)
  have steady : (y.rx.good b pol).1.state = .stable := by rw [Receiver.good_of_same stable last]; exact stable
  have kind_of : ∀ {z : PortState}, x.state = z → z.staged → x.state.staged := fun same staged => same ▸ staged
  refine ⟨fun fault staged slots => ?_, fun whole disc => ⟨fun state slots kind quiet unusable => ?_, fun paused pending => ?_⟩,
    fun whole disc held before beyond waits state room => ?_, fun state whole held => ?_,
    fun q state qualify begun whole disc held => ?_, fun h state handover whole stage held others => ?_⟩
  · obtain ⟨j, took, runs⟩ := arrives staged
    obtain ⟨t, runs, departs⟩ := departs_into_faulted (took.stands rfl rfl) slots runs (State.put_farEndEvent_fault fault)
    have entered := j.enterFaulted_arrives p s.settings .farEndFault
    have port := departs.port
    refine ⟨t, runs, ?_⟩
    rw [port, Local.enterFaulted_counters, show j.port.counters = x.counters from took.field Port.counters]
    refine ⟨entered.state, entered.fault, entered.stageTimer, entered.pending, entered.channel, rfl, took.course.trans entered.course,
      entered.attempts.trans (took.field Port.attempts), entered.cycle.trans (took.field Port.cycle), departs.freed, fun tune =>
        ⟨(departs.became tune).toOnlyPort, fun quiet below => ?_⟩⟩
    obtain ⟨lanes, asks, counts⟩ := quiet
    have counters : j.port.counters = x.counters := took.field Port.counters
    rw [(departs.became tune).reports, Local.enterFaulted_told (took.still fun m => (lanes m).1)
        (took.unasked (fun m => (lanes m).2) (heard.deaf (lanes l).2 asks)),
      Local.enterFaulted_kept _ _ _ _ (by rw [counters]; exact below), took.told (lanes l).1, took.kept counts, took.state,
      show j.port.neighbour = x.neighbour from took.field Port.neighbour, show j.port.cycle = x.cycle from took.field Port.cycle,
      show j.port.attempts = x.attempts from took.field Port.attempts]
    rfl
  · have staged : x.state.staged := by
      rcases state with state | ⟨paused, _⟩
      · revert state; cases x.state <;> decide
      · exact kind_of paused (by decide)
    obtain ⟨lanes, asks, counts⟩ := quiet
    obtain ⟨j, took, runs⟩ := arrives staged
    have still := took.still fun m => (lanes m).1
    have unasked := took.unasked (fun m => (lanes m).2) (heard.deaf (lanes l).2 asks)
    have stays : (j.enterDiscover p s.settings (s.plan.resolve p)).port.Searching (s.plan.resolve p) := by
      obtain ⟨m, inside, unusable⟩ := unusable
      refine Local.enterDiscover_unusable inside ?_ kind
      rcases unusable with ⟨rfl, fault⟩ | ⟨other, unstable⟩ | excluded
      · refine .inr (.inr ?_)
        rw [took.rx, Receiver.oneWay_iff steady]
        exact ⟨b.farEnd, heard.far, fault⟩
      · exact .inr (.inl (by rw [took.others m other]; exact unstable))
      · refine .inl ?_
        by_cases here : m = l
        · subst here; rw [took.control]; exact excluded
        · rw [took.others m here]; exact excluded
    have state' : j.port.state ∈ [PortState.awaitSlot, .tune, .qualify, .handover] ∨
        j.port.state = .paused ∧ j.port.pending ≠ some .peerWait := by
      rw [took.state, show j.port.pending = x.pending from took.field Port.pending]; exact state
    obtain ⟨t, runs, departs⟩ := departs_into_discover (took.stands rfl rfl) slots stays runs
      (State.put_farEndEvent_disc whole disc state')
    refine ⟨t, runs, by rw [departs.port]; exact took.rediscovered unasked, departs.freed, fun tune =>
      ⟨(departs.became tune).toOnlyPort, departs.esu_of_stands (took.stands rfl rfl) Local.enterDiscover_esu tune, ?_⟩⟩
    rw [(departs.became tune).reports, Local.enterDiscover_told still unasked, Local.enterDiscover_kept, took.told (lanes l).1,
      took.kept counts, took.state]
    rfl
  · obtain ⟨j, took, runs⟩ := arrives (kind_of paused (by decide))
    exact took.same runs (State.put_farEndEvent_held whole (took.state.trans paused) ((took.field Port.pending).trans pending))
  · have staged : x.state.staged := state.elim (fun h => kind_of h (by decide)) fun h => kind_of h.1 (by decide)
    obtain ⟨j, took, runs⟩ := arrives staged
    have stages : ∀ m, (j.port.lane m).farStage = far m := took.farStage heard.far
    have held' : j.port.mapClass ≠ none := by rw [show j.port.mapClass = x.mapClass from took.field Port.mapClass]; exact held
    have mapped_iff : ∀ m : LanePos, j.port.map[m].logical = x.map[m].logical := fun m => by rw [took.mapped]; rfl
    have now : j.port.farStage = some .wait := by
      obtain ⟨m, mapped, waits⟩ := waits
      exact Port.farStage_wait held' (fun m mapped => by rw [stages]; exact beyond m (by rw [← mapped_iff]; exact mapped))
        (by rw [mapped_iff]; exact mapped) ((stages m).trans waits)
    have fell : fellToWait x.farStage j.port.farStage = true := by
      rw [now]; exact decide_eq_true ⟨before, rfl⟩
    have state' : j.port.state = .handover ∨ j.port.state = .qualify ∧ j.port.windowBegun = true := by
      rw [took.state]
      refine state.imp id fun ⟨qualify, q, record, begun⟩ => ⟨qualify, ?_⟩
      have record' : j.port.qualify = some q := (took.field Port.qualify).trans record
      rw [Port.windowBegun, took.state, record', decide_eq_true (show (s.held p).port.state = .qualify from qualify)]
      exact begun
    have tune : j.port.state ≠ .tune := by rcases state' with h | ⟨h, _⟩ <;> rw [h] <;> decide
    have await : j.port.state ≠ .awaitSlot := by rcases state' with h | ⟨h, _⟩ <;> rw [h] <;> decide
    obtain ⟨t, runs, became⟩ := became_of_done runs ((State.put_farEndEvent_falls whole disc fell state').trans
      (State.put_failedAttempt_rests _ took.carries tune await room))
    refine ⟨t, runs, became.toOnlyPort, Local.failedAttempt_failed took.carries tune await became.port became.esu, ?_⟩
    rw [became.port, Local.failedAttempt_qualify, show j.port.qualify = x.qualify from took.field Port.qualify]
  · obtain ⟨j, took, runs⟩ := arrives (kind_of state (by decide))
    have stages : ∀ m, (j.port.lane m).farStage = far m := took.farStage heard.far
    have held' : j.port.mapClass ≠ none := by rw [show j.port.mapClass = x.mapClass from took.field Port.mapClass]; exact held
    have mapped_iff : ∀ m : LanePos, j.port.map[m].logical = x.map[m].logical := fun m => by rw [took.mapped]; rfl
    have here : j.port.map[l].logical ≠ none := by rw [mapped_iff]; exact mapped
    have state' : j.port.state = .peerWait := took.state.trans state
    have tune : j.port.state ≠ .tune := by rw [state']; decide
    have await : j.port.state ≠ .awaitSlot := by rw [state']; decide
    have tests := State.put_farEndEvent_peerWait (s := s) (p := p) (l := l) (g := x.farStage) whole state'
    refine ⟨fun ready room => ?_, fun waits => ?_⟩
    · have reached : j.port.peerReady = true := by
        have high : stageAtLeast .wait j.port.farStage = true := (Port.farStage_atLeast held' here).2 fun m mapped => by
          obtain ⟨⟨c, stage, other⟩, _⟩ := ready m (by rw [← mapped_iff]; exact mapped)
          exact stageAtLeast_iff.2 ⟨c, (stages m).trans stage, Stage.wait_le other⟩
        rw [Port.peerReady, high, took.farFault_eq_false heard.far whole held fun m mapped other => (ready m mapped).2 other]
        rfl
      have mode : j.port.mode = x.mode := took.field Port.mode
      obtain ⟨t, runs, became⟩ := became_of_done runs ((tests.trans (State.put_peerTest_ready reached state')).trans
        (State.put_toAwaitSlot_rests (by rw [took.esu]; rfl) tune await (room.imp_left mode.trans)))
      obtain ⟨z, pending, entered⟩ := j.toAwaitSlot_arrives p s.settings
      have cycle : j.port.cycle = x.cycle := took.field Port.cycle
      have counters : j.port.counters = x.counters := took.field Port.counters
      refine ⟨t, runs, became.toOnlyPort, cycle ▸ Local.toAwaitSlot_queued mode took.esu tune await became.port became.esu, ?_⟩
      rw [became.port, Local.toAwaitSlot_counters, mode, cycle, counters]
      exact ⟨took.course.trans entered.course, entered.attempts.trans (took.field Port.attempts), entered.cycle.trans cycle,
        entered.stageTimer, rfl⟩
    · have unready : j.port.peerReady = false := by
        obtain ⟨m, mapped, behind⟩ := waits
        have mapped' : j.port.map[m].logical ≠ none := by rw [mapped_iff]; exact mapped
        have low : (far m = none ∨ far m = some .disc) → j.port.peerReady = false := fun behind => by
          have fails : stageAtLeast .wait j.port.farStage = false := by
            refine Bool.eq_false_iff.2 fun all => ?_
            have at_m := (Port.farStage_atLeast held' mapped').1 all m mapped'
            rw [stages] at at_m
            rcases behind with h | h <;> rw [h] at at_m <;> exact absurd at_m (by decide)
          rw [Port.peerReady, fails]
          rfl
        rcases behind with behind | behind | ⟨other, f, holds, fault⟩
        · exact low (.inl behind)
        · exact low (.inr behind)
        · exact Port.peerBehind.waits (.inr ⟨held', m, f, mapped', by rw [took.others m other]; exact holds, fault⟩)
      exact took.same runs (tests.trans (State.put_peerTest_waits unready))
  · obtain ⟨j, took, runs⟩ := arrives (kind_of state (by decide))
    have stages : ∀ m, (j.port.lane m).farStage = far m := took.farStage heard.far
    have held' : j.port.mapClass ≠ none := by rw [show j.port.mapClass = x.mapClass from took.field Port.mapClass]; exact held
    have mapped_iff : ∀ m : LanePos, j.port.map[m].logical = x.map[m].logical := fun m => by rw [took.mapped]; rfl
    have here : j.port.map[l].logical ≠ none := by rw [mapped_iff]; exact mapped
    have state' : j.port.state = .qualify := took.state.trans state
    have record : j.port.qualify = some q := (took.field Port.qualify).trans qualify
    have closed : j.port.windowBegun = false := by
      rw [Port.windowBegun, record]
      show (decide _ && q.begun) = false
      rw [begun, Bool.and_false]
    have tests := State.put_farEndEvent_closed (s := s) (p := p) (l := l) (g := x.farStage) whole disc state' closed
    refine ⟨fun ready => ?_, fun waits => ?_⟩
    · have high : stageAtLeast .qual j.port.farStage = true := (Port.farStage_atLeast held' here).2 fun m mapped => by
        rcases ready m (by rw [← mapped_iff]; exact mapped) with h | h <;> rw [stages, h] <;> rfl
      obtain ⟨t, runs, became⟩ := became_of_done runs (tests.trans (State.put_windowTest_begins state' closed high))
      refine ⟨t, runs, became.toOnlyPort, became.esu.trans took.esu, ?_, fun m mapped off => ?_⟩
      · rw [became.port]
        have opened := congrArg (fun w : Port => { w with lanes := x.lanes }) j.startWindow_port
        have kept := congrArg (fun w : Port =>
          { w with stageTimer := none, qualify := w.qualify.map fun q : QualRecord => { q with begun := true } }) took.record
        refine (opened.trans kept).trans ?_
        show ({ s.port p with stageTimer := none, qualify := x.qualify.map fun q : QualRecord => { q with begun := true } } : Port) = _
        rw [qualify]
        rfl
      · have off' : (j.port.lane m).checker = .off := by
          by_cases same : m = l
          · subst same; exact took.checker off
          · rw [took.others m same]; exact off
        rw [became.lane, Local.startWindow_lane]
        show (j.port.lane m).checker.follow _ _ _ _ _ = _
        rw [off', Port.beginWindow_counts state' record (by rw [mapped_iff]; exact mapped), Checker.follow_of_off]
    · have low : stageAtLeast .qual j.port.farStage = false := by
        obtain ⟨m, mapped, notQual, notReady⟩ := waits
        refine Bool.eq_false_iff.2 fun all => ?_
        have mapped' : j.port.map[m].logical ≠ none := by rw [mapped_iff]; exact mapped
        obtain ⟨c, stage, high⟩ := stageAtLeast_iff.1 ((Port.farStage_atLeast held' mapped').1 all m mapped')
        rw [stages] at stage
        rcases Stage.qual_le.1 high with rfl | rfl
        · exact notQual stage
        · exact notReady stage
      exact took.same runs (tests.trans (State.put_windowTest_waits low))
  · intro runsOn marks
    obtain ⟨j, took, runs⟩ := arrives (kind_of state (by decide))
    have stages : ∀ m, (j.port.lane m).farStage = far m := took.farStage heard.far
    have held' : j.port.mapClass ≠ none := by rw [show j.port.mapClass = x.mapClass from took.field Port.mapClass]; exact held
    have disc : b.stage ≠ .disc := by rcases stage with h | h <;> rw [h] <;> decide
    have upright : fellToWait x.farStage j.port.farStage = false := by
      refine decide_eq_false fun ⟨_, now⟩ => ?_
      obtain ⟨m, mapped, waits⟩ := Port.farStage_mem held' now
      rw [stages] at waits
      by_cases here : m = l
      · subst here
        rw [show far m = some b.stage from if_pos rfl] at waits
        rcases stage with h | h <;> rw [h] at waits <;> cases waits
      · exact others m here (by rw [← show j.port.map = x.map from took.mapped]; exact mapped) waits
    obtain ⟨t, runs, became⟩ := became_of_done runs
      (State.put_farEndEvent_handover whole disc (took.state.trans state) upright)
    have record : j.port.handover = some h := (took.field Port.handover).trans handover
    have ran : h.setRun l (fun n => if decide (b.stage = .ready) = true then n + 1 else 0) = { closing := h.closing, entries := runsOn } := by
      simp only [decide_eq_true_eq]
      rfl
    refine ⟨t, runs, became.toOnlyPort, became.esu.trans took.esu, ({ closing := h.closing, entries := runsOn } : HandRecord).close, ?_,
      (HandRecord.close_eq { closing := h.closing, entries := runsOn }).1, (HandRecord.close_eq { closing := h.closing, entries := runsOn }).2⟩
    rw [became.port, Local.modPort_port, Port.readyHeard, record, Option.map_some, ran]
    exact congrArg (fun w : Port =>
      { w with handover := some ({ closing := h.closing, entries := runsOn } : HandRecord).close }) took.record

end Sys2Proof.Machine
end

section
/-! SUPPORT. A beacon sent (R1, R4, R14, R27, R32), and the entry into ACTIVE (R92, R93, R17, R18). -/

namespace Sys2Proof.Machine

variable {s t u : State} {p : PortIx} {k j : Local} {l m : LanePos} {x w : Port} {y z : Lane} {me : LocalId} {b : Beacon}
  {bytes : List Byte} {g : Settings} {f h : Lane → Lane} {n : Nat}

/-! ### The fields of a beacon -/

theorem Port.sentStage_eq (x : Port) : x.sentStage =
    if x.state ∈ [PortState.consult, .verified, .paused, .peerWait, .awaitSlot, .tune] then .wait
    else if x.state = .qualify then .qual else if x.state = .handover then .ready else .disc := by
  unfold Port.sentStage
  cases x.state <;> rfl

theorem Port.sentHold_eq (x : Port) (l : LanePos) : x.sentHold l = decide (x.state ∈ [PortState.consult, .verified, .paused] ∨
    x.state = .manual ∧ (x.lane l).control.source = .beacon ∧ (x.lane l).control.sendHold = true) := by
  unfold Port.sentHold
  cases x.state <;> simp

theorem Port.sentRetrain_eq (x : Port) :
    x.sentRetrain = decide (x.cycle = .retrain ∧ x.state ∈ [PortState.paused, .awaitSlot, .tune, .qualify]) := by
  unfold Port.sentRetrain
  cases x.state <;> simp

theorem Port.sentLoopReq_eq (x : Port) (l : LanePos) : x.sentLoopReq l =
    decide (x.state = .manual ∧ (x.lane l).control.source = .beacon ∧ (x.lane l).control.sendLoopReq = true) := by
  simp [Port.sentLoopReq, Bool.and_assoc]

theorem State.sentTap_eq_none (h : (s.port p).channel = none) (l : LanePos) : s.sentTap p l = none := by
  rw [State.sentTap, State.sweepLane, State.sweepOf, h]
  rfl

/-! ### Sending -/

theorem Port.modLane_congr (same : f (x.lane l) = h (x.lane l)) : x.modLane l f = x.modLane l h := by
  rw [Port.modLane, same]
  rfl

theorem State.modLane_congr (same : f (s.lane p l) = h (s.lane p l)) : s.modLane p l f = s.modLane p l h :=
  congrArg (s.setPort p) (Port.modLane_congr (x := s.port p) same)

/-- The lane after it has begun to send a beacon of some bytes (R32). -/
def Lane.sends (y : Lane) (bytes : List Byte) : Lane := { y.spend .badCheck with sent := some bytes }

theorem Lane.injects_eq_false {i : InjectKind} (h : ¬∃ n, y.injection = some { kind := i, remaining := n }) : y.injects i = false := by
  unfold Lane.injects
  cases pending : y.injection with
  | none => rfl
  | some a => exact decide_eq_false fun same => h ⟨a.remaining, by rw [pending, ← same]⟩

theorem Lane.sends_plain (h : y.injects .badCheck = false) (bytes : List Byte) : y.sends bytes = { y with sent := some bytes } := by
  rw [Lane.sends, Lane.spend, h]
  rfl

theorem Lane.injects_of {i : InjectKind} (h : y.injection = some { kind := i, remaining := n }) : y.injects i = true := by
  rw [Lane.injects, h]
  exact decide_eq_true rfl

/-- A pending injection counts its block or beacon down (R32). -/
theorem Lane.spend_of {i : InjectKind} (h : y.injection = some { kind := i, remaining := n }) : y.spend i =
    { y with injection := if 1 < n then some { kind := i, remaining := n - 1 } else none } := by
  rw [Lane.spend, if_pos (Lane.injects_of h), h]
  show { y with injection := if n ≤ 1 then _ else _ } = _
  by_cases last : n ≤ 1
  · rw [if_pos last, if_neg (Nat.not_lt.2 last)]
  · rw [if_neg last, if_pos (Nat.lt_of_not_le last)]

theorem Port.beacons_of (h : x.content l = .beacon ∨ x.content l = .prbs) : x.beacons l = true := decide_eq_true h

theorem exec_beaconTransmit_eq (identity : s.identity = some me) (content : (s.port p).content l = .beacon ∨ (s.port p).content l = .prbs)
    {bad : Bool} (injects : (s.lane p l).injects .badCheck = bad) (built : s.opened.beaconOf p l me = b) :
    exec (.beaconTransmit p l) s = (((s.opened.modLane p l (·.sends (b.bytes bad))).afterBeacon p l).hearOwn p l (b.bytes bad)).done := by
  show execBeaconTransmit p l s = _
  rw [execBeaconTransmit, identity]
  simp only [Port.beacons_of content, if_true]
  rw [State.sendBeacon, built, show s.opened.lane p l = s.lane p l from rfl, injects]
  rfl

theorem State.afterBeacon_of_ne (tune : (u.port p).state ≠ .tune) (handover : (u.port p).state ≠ .handover) : u.afterBeacon p l = u := by
  unfold State.afterBeacon
  split
  · next same => exact absurd same tune
  · next same => exact absurd same handover
  · rfl

theorem State.afterBeacon_of_handover (h : (u.port p).state = .handover) : u.afterBeacon p l = u.handBeacon p l := by
  unfold State.afterBeacon
  rw [h]

theorem State.hearOwn_of_not (h : (u.port p).nearEnd l = false) (bytes : List Byte) : u.hearOwn p l bytes = u :=
  if_neg fun both => by rw [h] at both; cases both.1

theorem State.hearOwn_of_near (near : (u.port p).nearEnd l = true) (on : (u.lane p l).rx.state ≠ .off) (bytes : List Byte) :
    u.hearOwn p l bytes = u.receive p l (classify bytes) := if_pos ⟨near, on⟩

theorem State.modLane_here (s : State) (p : PortIx) (l : LanePos) (f : Lane → Lane) :
    (s.modLane p l f).port p = (s.port p).modLane l f :=
  (State.modLane_port s p p l f).trans (if_pos rfl)

theorem Port.nearEnd_of_same (state : w.state = x.state) (control : (w.lane l).control = (x.lane l).control) :
    w.nearEnd l = x.nearEnd l := by rw [Port.nearEnd, Port.nearEnd, state, control]

theorem Lane.spend_control (y : Lane) (i : InjectKind) : (y.spend i).control = y.control := by
  unfold Lane.spend; split <;> rfl

theorem Port.nearEnd_sends (x : Port) (l : LanePos) (bytes : List Byte) : (x.modLane l (·.sends bytes)).nearEnd l = x.nearEnd l :=
  Port.nearEnd_of_same rfl (by rw [Port.lane_modLane_self]; exact Lane.spend_control _ _)

/-- A beacon sent on a line of its own, outside TUNE and HANDOVER, is on the line and does nothing else. -/
theorem exec_beaconTransmit_plain (identity : s.identity = some me)
    (content : (s.port p).content l = .beacon ∨ (s.port p).content l = .prbs) {bad : Bool}
    (injects : (s.lane p l).injects .badCheck = bad) (built : s.opened.beaconOf p l me = b) (tune : (s.port p).state ≠ .tune)
    (handover : (s.port p).state ≠ .handover) (near : (s.port p).nearEnd l = false) :
    exec (.beaconTransmit p l) s = .next (s.modLane p l (·.sends (b.bytes bad))).settled := by
  have port := State.modLane_here s.opened p l (·.sends (b.bytes bad))
  rw [exec_beaconTransmit_eq identity content injects built,
    State.afterBeacon_of_ne (by rw [port]; exact tune) (by rw [port]; exact handover), State.hearOwn_of_not (by
      rw [port, Port.nearEnd_sends]; exact near)]
  exact State.done_of_none rfl

/-! ### A near-end loopback (R27) -/

theorem State.farTests_of_manual (h : (u.port p).state = .manual) (b : Beacon) (g : Option Stage) : u.farTests p l b g = u := by
  unfold State.farTests
  rw [h]

/-- A lane in MANUAL that takes in a good beacon moves nothing but its own records. -/
theorem State.put_receiveGood_manual {pol : Polarity} (manual : k.port.state = .manual) :
    (s.put p k).receiveGood p l b pol = s.put p (k.takes p s.settings l b pol) := by
  have calm : k.port.state ≠ .discover ∧ k.port.state ≠ .faulted := by rw [manual]; decide
  have took := Local.takes_takes (p := p) (g := s.settings) (l := l) (b := b) (pol := pol) calm
  have state : ((s.put p (k.takes p s.settings l b pol)).port p).state = .manual := by rw [State.put_port, took.state, manual]
  have heard : (s.put p k).heardGood p l b pol = s.put p (k.takes p s.settings l b pol) := by
    rw [State.put_heardGood_takes calm.1, State.laneEvents_of_deaf (.inr (.inl state))]
  rw [State.put_receiveGood, heard, if_pos (state.trans manual.symm), State.farTests_of_manual state]

/-! ### The entry into ACTIVE (R93) -/

/-- A transition whose change leaves every loop as it is, into a state that starts none, posts PORT_STATE alone. -/
theorem Local.transition_told_of_loops {c : Port → Port} {new : PortState}
    (loops : ∀ (x : Port) (l : LanePos), ((c x).lane l).autoLoop = (x.lane l).autoLoop) (still : k.port.Still)
    (calm : new ≠ .discover ∧ new ≠ .faulted) : (k.transition p g new c).told =
    k.told ++ portReports p [.portState k.port.state new (c (k.left p)).pending (c (k.left p)).fault (c (k.left p)).cycle
      (c (k.left p)).attempts] := by
  have settled : ((k.arrive p new c).tell [k.stateReport p new c]).judgeLoops p g = (k.arrive p new c).tell [k.stateReport p new c] := by
    refine Local.judgeLoops_of_settled fun m => ?_
    have off : ((k.arrive p new c).port.lane m).autoLoop = false := by
      rw [Local.arrive_lane, (Lane.listen_line _ _).2.2.2.2.2.2.2.2, loops]
      exact k.left_autoLoop p m
    exact (Port.loopHolds_eq_false (.inl calm)).trans off.symm
  rw [Local.transition, settled]
  show (k.undo p).told ++ [k.stateReport p new c] = _
  rw [Local.undo_told still]
  rfl

/-- What the entry into ACTIVE writes (R93). -/
def Port.activates (x : Port) : Port := Port.giveLanes { x with attempts := 0, cleanRun := some Config.cleanRunMs }

/-- The entry into ACTIVE. -/
def Local.enterActive (k : Local) (p : PortIx) (g : Settings) : Local := k.transition p g .active Port.activates

theorem State.put_enterActive (s : State) (p : PortIx) (k : Local) :
    (s.put p k).enterActive p = s.put p (k.enterActive p s.settings) := State.put_transition s p k .active Port.activates

/-- The record of a port at its entry into ACTIVE. -/
structure Local.Activates (k j : Local) : Prop where
  state : j.port.state = .active
  attempts : j.port.attempts = 0
  cleanRun : j.port.cleanRun = some 60000
  handover : j.port.handover = none
  stageTimer : j.port.stageTimer = none
  cycle : j.port.cycle = k.port.cycle
  unstable : j.port.unstable = k.port.unstable
  map : j.port.map = k.port.map
  width : j.port.width = k.port.width

theorem Local.enterActive_activates (k : Local) (p : PortIx) (g : Settings) : k.Activates (k.enterActive p g) where
  state := Local.transition_state
  attempts := Local.transition_attempts
  cleanRun := Local.transition_cleanRun
  handover := Local.transition_handover.trans (k.left_handover (p := p))
  stageTimer := (k.transition_stageTimer p g Port.activates (by decide)).trans (k.left_stageTimer (p := p))
  cycle := Local.transition_cycle.trans (k.left_cycle (p := p))
  unstable := Local.transition_unstable.trans (k.left_unstable (p := p))
  map := Local.transition_map.trans (k.left_map (p := p))
  width := Local.transition_width.trans (k.left_width (p := p))

theorem Port.activates_lane (x : Port) (l : LanePos) : x.activates.lane l =
    { (if x.mapped l then (x.lane l).give (x.handoverSettings l) else x.lane l) with monitor := .cleared } := by
  rw [Port.activates, Port.giveLanes, Port.mapLanes_lane]
  rfl

theorem Local.enterActive_told (still : k.port.Still) : (k.enterActive p g).told =
    k.told ++ portReports p [.portState k.port.state .active none none k.port.cycle 0] := by
  have told := Local.transition_told_of_loops (p := p) (g := g) (k := k) (c := Port.activates) (new := .active)
    (fun x m => by rw [Port.activates_lane]; show Lane.autoLoop (if _ then _ else _) = _; split <;> rfl) still ⟨by decide, by decide⟩
  refine told.trans ?_
  show _ ++ portReports p [.portState _ _ (k.left p).pending (k.left p).fault (k.left p).cycle 0] = _
  rw [k.left_pending, k.left_fault, k.left_cycle]

section Given

variable (k p g) (l : LanePos)

theorem Local.enterActive_monitor : ((k.enterActive p g).port.lane l).monitor = .cleared := by
  rw [Local.enterActive, Local.transition_monitor, Port.activates_lane]

theorem Local.enterActive_owner : ((k.enterActive p g).port.lane l).owner = if k.port.mapped l then .switch else .part := by
  have same : (k.left p).mapped l = k.port.mapped l := by rw [Port.mapped, k.left_map]; rfl
  rw [Local.enterActive, Local.transition_owner, Port.activates_lane, same]
  split
  · rfl
  · exact k.left_owner

theorem Local.enterActive_tap (mapped : k.port.mapped l = true) : ((k.enterActive p g).port.lane l).tap =
    some { logical := k.port.map[l].logical, correction := (k.port.lane l).control.invert.apply k.port.map[l].polarity
           eq := (k.port.lane l).eq } := by
  have same : (k.left p).mapped l = true := by rw [Port.mapped, k.left_map]; exact mapped
  have settings : (k.left p).handoverSettings l = { logical := k.port.map[l].logical
                                                    correction := (k.port.lane l).control.invert.apply k.port.map[l].polarity
                                                    eq := (k.port.lane l).eq } := by
    rw [Port.handoverSettings, Port.handoverCorrection, k.left_control, k.left_eq, k.left_map]
  rw [Local.enterActive, Local.transition_tap, Port.activates_lane, same, settings]
  rfl

theorem Port.undoneLane_on (x : Port) (on : (x.lane l).rx.state ≠ .off) : (x.undoneLane l).rx.state ≠ .off := by
  rcases x.undoneLane_rx l with same | ⟨silent, _⟩
  · rw [same]; exact on
  · rw [silent]; decide

/-- A lane given to the switch has its receiver suspended, where it listens, and no far end (R6). -/
theorem Local.enterActive_rx (mapped : k.port.mapped l = true) (manual : k.port.state ≠ .manual) :
    ((k.enterActive p g).port.lane l).rx.far = none ∧ (l.val < k.port.L → (k.port.lane l).rx.state ≠ .off →
      ((k.enterActive p g).port.lane l).rx.suspended = true) := by
  have same : (k.left p).mapped l = true := by rw [Port.mapped, k.left_map]; exact mapped
  have given : ((k.left p).activates.lane l).rx = ((k.left p).lane l).rx.suspend := by
    rw [Port.activates_lane, same]; rfl
  have rx := k.transition_rx p g .active Port.activates l
  refine ⟨?_, fun inside on => ?_⟩
  · rw [Local.enterActive, rx]
    rcases Lane.listen_rx ((k.left p).activates.lane l) (Port.listens { (k.left p).activates with state := .active } l)
      with kept | ⟨_, far, _⟩
    · rw [kept, given]; rfl
    · exact far
  · have L : Port.L { (k.left p).activates with state := .active } = k.port.L :=
      Port.L_congr ((k.left_record p).snapshot) manual (show PortState.active ≠ .manual by decide)
    have listens : Port.listens { (k.left p).activates with state := .active } l = true :=
      Port.listens_of_lt nofun (by rw [L]; exact inside)
    have still_on : ((k.left p).activates.lane l).rx.state ≠ .off := by
      rw [given]
      show ((k.left p).lane l).rx.state ≠ .off
      rw [(k.left_lane p l).rx]
      exact Port.undoneLane_on l k.port on
    rw [Local.enterActive, rx, listens, Lane.listen_rx_of_on still_on, given]
    rfl

end Given

end Sys2Proof.Machine
end

section
/-! SUPPORT. A beacon sent: the statement, with a near-end loopback (R27) and the sent counts of HANDOVER (R92). -/

namespace Sys2Proof.Machine

variable {s t u : State} {p : PortIx} {k j : Local} {l m : LanePos} {x : Port} {me : LocalId} {b : Beacon} {bytes : List Byte}
  {h : HandRecord}

/-- One port once a lane of it has begun to send a beacon. -/
def Local.sends (k : Local) (l : LanePos) (bytes : List Byte) : Local := k.modPort (·.modLane l (·.sends bytes))

theorem Local.sends_lane (injects : (k.port.lane l).injects .badCheck = false) :
    (k.sends l bytes).port.lane l = { k.port.lane l with sent := some bytes } := by
  rw [Local.sends, Local.modPort_port, Port.lane_modLane_self, Lane.sends_plain injects]

theorem State.put_sends (s : State) (p : PortIx) (l : LanePos) (bytes : List Byte) :
    s.opened.modLane p l (·.sends bytes) = s.put p ((s.held p).sends l bytes) := by
  rw [State.opened_eq_put s p, State.put_modLane]
  rfl

theorem Lane.takes_sent (y : Lane) (taps : Option Taps) (c : Bool) : (if c then y.honour taps else y).sent = y.sent := by
  split
  · cases taps <;> rfl
  · rfl

/-- A near-end loopback gives a lane's beacon to its own receiver. -/
theorem exec_beaconTransmit_near (identity : s.identity = some me)
    (content : (s.port p).content l = .beacon ∨ (s.port p).content l = .prbs) (injects : (s.lane p l).injects .badCheck = false)
    (built : s.opened.beaconOf p l me = b) (chassis : b.chassis ≠ 0) (near : (s.port p).nearEnd l = true)
    (on : (s.lane p l).rx.state ≠ .off) :
    exec (.beaconTransmit p l) s =
      (s.put p (((s.held p).sends l (b.bytes false)).takes p s.settings l b .normal)).done := by
  have manual : (s.port p).state = .manual := by
    by_contra other
    rw [Port.nearEnd_of_not_manual other] at near
    cases near
  have sent : ((s.held p).sends l (b.bytes false)).port.lane l = { s.lane p l with sent := some (b.bytes false) } :=
    Local.sends_lane injects
  have near' : ((s.held p).sends l (b.bytes false)).port.nearEnd l = true := (Port.nearEnd_sends (s.port p) l _).trans near
  rw [exec_beaconTransmit_eq identity content injects built, State.put_sends,
    State.afterBeacon_of_ne (by rw [State.put_port]; show (s.port p).state ≠ _; rw [manual]; decide)
      (by rw [State.put_port]; show (s.port p).state ≠ _; rw [manual]; decide),
    State.hearOwn_of_near (by rw [State.put_port]; exact near') (by rw [State.put_lane, sent]; exact on),
    (beaconSurvivesTheLane b chassis).1]
  show ((s.put p _).receiveGood p l b .normal).done = _
  rw [State.put_receiveGood_manual (show ((s.held p).sends l (b.bytes false)).port.state = .manual from manual)]

/-! ### HANDOVER -/

/-- One port whose handover record counts a beacon sent (R92). -/
def Local.counted (k : Local) (l : LanePos) : Local := k.modPort fun x => { x with handover := x.handover.map (·.addSent l) }

theorem State.put_handBeacon (s : State) (p : PortIx) (k : Local) (l : LanePos) : (s.put p k).handBeacon p l =
    if (k.counted l).port.handover.any HandRecord.complete then s.put p ((k.counted l).enterActive p s.settings)
    else s.put p (k.counted l) := by
  rw [State.handBeacon, State.put_modPort]
  show (if ((s.put p (k.counted l)).port p).handover.any HandRecord.complete then (s.put p (k.counted l)).enterActive p
    else s.put p (k.counted l)) = _
  rw [State.put_port, State.put_enterActive]

theorem HandRecord.complete_iff (h : HandRecord) : h.complete = true ↔ h.closing = true ∧ ∀ e ∈ h.entries, 2 ≤ e.sent := by
  simp [HandRecord.complete]

/-- A beacon of a port in HANDOVER. -/
theorem exec_beaconTransmit_handover (identity : s.identity = some me)
    (content : (s.port p).content l = .beacon ∨ (s.port p).content l = .prbs) (injects : (s.lane p l).injects .badCheck = false)
    (built : s.opened.beaconOf p l me = b) (state : (s.port p).state = .handover) (record : (s.port p).handover = some h) :
    exec (.beaconTransmit p l) s = (if (h.addSent l).complete
      then s.put p ((((s.held p).sends l (b.bytes false)).counted l).enterActive p s.settings)
      else s.put p (((s.held p).sends l (b.bytes false)).counted l)).done := by
  have counted : (((s.held p).sends l (b.bytes false)).counted l).port.handover = some (h.addSent l) := by
    show (s.port p).handover.map (·.addSent l) = _
    rw [record]
    rfl
  have far : ∀ j : Local, j.port.state ≠ .manual → (s.put p j).hearOwn p l (b.bytes false) = s.put p j := fun j other =>
    State.hearOwn_of_not (by rw [State.put_port]; exact Port.nearEnd_of_not_manual other l) _
  rw [exec_beaconTransmit_eq identity content injects built, State.put_sends, State.afterBeacon_of_handover (by
    rw [State.put_port]; exact state), State.put_handBeacon, counted, Option.any_some]
  split
  · rw [far _ (by rw [(Local.enterActive_activates _ p s.settings).state]; decide)]
  · rw [far _ (show (s.port p).state ≠ .manual by rw [state]; decide)]

theorem State.opened_modLane_modPort_done (s : State) (p : PortIx) (l : LanePos) (f : Lane → Lane) (c : Port → Port) :
    ((s.opened.modLane p l f).modPort p c).done = .next ((s.modLane p l f).modPort p c).settled := State.done_of_none rfl

/-- Settles O53: a beacon carries the fields of its moment, is heard in a near-end loopback, and counts in HANDOVER. -/
theorem beaconTransmitSendsFields : Obligations.BeaconTransmitSendsFields := by
  intro p l me s identity content channel x y inject b sent
  have built : s.opened.beaconOf p l me = b := by
    have tap : s.opened.sentTap p l = none := State.sentTap_eq_none channel l
    rw [State.beaconOf, tap, Port.sentFlags, Port.sentStage_eq, Port.sentHold_eq, Port.sentRetrain_eq, Port.sentLoopReq_eq]
    rfl
  refine ⟨fun plain tune handover near => ?_, fun n pending tune handover near => ?_, fun plain near on still chassis => ?_,
    fun plain state h record => ?_⟩
  · have injects := Lane.injects_eq_false plain
    rw [exec_beaconTransmit_plain identity content injects built tune handover near,
      State.modLane_congr (f := (·.sends (b.bytes false))) (h := sent) (Lane.sends_plain injects _)]
  · rw [exec_beaconTransmit_plain identity content (Lane.injects_of pending) built tune handover near]
    refine congrArg (fun v : State => Host.Outcome.next v.settled) (State.modLane_congr ?_)
    rw [Lane.sends, Lane.spend_of pending]
  · have injects := Lane.injects_eq_false plain
    have manual : ((s.held p).sends l (b.bytes false)).port.state ≠ .discover ∧
        ((s.held p).sends l (b.bytes false)).port.state ≠ .faulted := by
      have manual : (s.port p).state = .manual := by
        by_contra other
        rw [show x.nearEnd l = false from Port.nearEnd_of_not_manual other l] at near
        cases near
      rw [show ((s.held p).sends l (b.bytes false)).port.state = .manual from manual]
      decide
    have lane : ((s.held p).sends l (b.bytes false)).port.lane l = { y with sent := some (b.bytes false) } := Local.sends_lane injects
    have took := Local.takes_takes (p := p) (g := s.settings) (l := l) (b := b) (pol := .normal) manual
    have carried := Local.takes_lane (p := p) (g := s.settings) (l := l) (b := b) (pol := .normal) manual
    obtain ⟨t, runs, became⟩ := became_of_done (exec_beaconTransmit_near identity content injects built chassis near on) rfl
    refine ⟨t, runs, became.toOnlyPort, ?_, ?_, ?_, fun k other => ?_, ?_⟩
    · rw [became.lane, took.rx, lane]
    · rw [became.lane, carried]
      show Lane.sent (if _ then _ else _) = _
      rw [Lane.takes_sent]
      show (((s.held p).sends l (b.bytes false)).port.lane l).sent = _
      rw [lane]
    · rw [became.lane, took.control, lane]
    · rw [became.lane, took.others k other]
      exact Port.lane_modLane_of_ne _ _ other
    · rw [became.lane, took.counters, lane]
  · intro g
    have injects := Lane.injects_eq_false plain
    have runs := exec_beaconTransmit_handover identity content injects built state record
    have complete : (h.addSent l).complete = true ↔ h.closing = true ∧ ∀ e ∈ g.entries, 2 ≤ e.sent := HandRecord.complete_iff _
    refine ⟨fun open_ => ?_, fun closing sent_all => ?_⟩
    · rw [runs, if_neg]
      · rw [Local.counted, ← State.put_modPort, ← State.put_sends, State.opened_modLane_modPort_done,
          State.modLane_congr (f := (·.sends (b.bytes false))) (h := sent) (Lane.sends_plain injects _)]
        refine congrArg (fun v : Port => Host.Outcome.next ((s.modLane p l sent).setPort p v).settled) ?_
        have held : ((s.modLane p l sent).port p).handover = some h := by rw [State.modLane_here]; exact record
        show { (s.modLane p l sent).port p with handover := ((s.modLane p l sent).port p).handover.map (·.addSent l) } =
          { (s.modLane p l sent).port p with handover := some g }
        rw [held]
        rfl
      · rw [complete]
        rintro ⟨closing, all⟩
        rcases open_ with unclosed | ⟨e, he, few⟩
        · rw [unclosed] at closing; cases closing
        · exact absurd (all e he) (Nat.not_le.2 few)
    · rw [if_pos (complete.2 ⟨closing, sent_all⟩)] at runs
      obtain ⟨t, runs, became⟩ := became_of_done runs rfl
      generalize hk : ((s.held p).sends l (b.bytes false)).counted l = k at runs became
      have port_state : k.port.state = .handover := by rw [← hk]; exact state
      have map : k.port.map = x.map := by rw [← hk]; rfl
      have L : k.port.L = x.L := by rw [← hk]; rfl
      have line : ∀ m, { k.port.lane m with sent := (s.lane p m).sent } = s.lane p m := fun m => by
        rw [← hk]
        refine Port.modLane_all (x := s.port p) (f := (·.sends (b.bytes false)))
          (P := fun m z => { z with sent := (s.lane p m).sent } = s.lane p m) ?_ (fun _ _ => rfl) m
        rw [show ((s.port p).lane l).sends (b.bytes false) = _ from Lane.sends_plain injects _]
      have field : ∀ {α : Type} (m : LanePos) (f : Lane → α), f { k.port.lane m with sent := (s.lane p m).sent } = f (s.lane p m) :=
        fun m f => congrArg f (line m)
      have entered := k.enterActive_activates p s.settings
      have manual : k.port.state ≠ .manual := by rw [port_state]; decide
      refine ⟨t, runs, became.toOnlyPort, ?_, ?_⟩
      · rw [became.esu, Local.enterActive, Local.transition_esu, Local.undoneEsu_of_ne (by rw [port_state]; decide)
          (by rw [port_state]; decide), ← hk]
        rfl
      rw [became.port]
      refine ⟨entered.state, entered.attempts, entered.cleanRun, entered.handover, entered.stageTimer,
        entered.cycle.trans (by rw [← hk]; rfl), entered.unstable.trans (by rw [← hk]; rfl), entered.map.trans map,
        entered.width.trans (by rw [← hk]; rfl), fun m => ?_, fun still => ?_⟩
      · rw [became.lane]
        refine ⟨Local.enterActive_monitor p k s.settings m, fun mapped => ?_, fun unmapped => ?_⟩
        · have mapped' : k.port.mapped m = true := by rw [Port.mapped, map]; exact Option.isSome_iff_ne_none.2 mapped
          obtain ⟨far, suspended⟩ := Local.enterActive_rx p k s.settings m mapped' manual
          refine ⟨by rw [Local.enterActive_owner, if_pos mapped'], far, fun inside on => suspended (L ▸ inside) ?_, ?_⟩
          · rw [show (k.port.lane m).rx = (s.lane p m).rx from field m Lane.rx]; exact on
          · rw [Local.enterActive_tap p k s.settings m mapped', map, show (k.port.lane m).control = (s.lane p m).control from
              field m Lane.control, show (k.port.lane m).eq = (s.lane p m).eq from field m Lane.eq]
            cases (s.lane p m).control.invert <;> rfl
        · rw [Local.enterActive_owner, if_neg]
          rw [Port.mapped, map, show x.map[m].logical = none from unmapped]
          decide
      · have still' : k.port.Still := fun m => (field m Lane.autoLoop).trans (still m)
        rw [became.reports, Local.enterActive_told still', show (k.enterActive p s.settings).kept = k.kept from Local.transition_kept,
          port_state, ← hk]
        rfl

end Sys2Proof.Machine
end

section
/-! SUPPORT. A retrain taken by an ACTIVE port (R152, R158), and the entry into DISCOVER from ACTIVE, where the switch owned lanes (R17,
R157, R159). -/

namespace Sys2Proof.Machine

variable {s t u : State} {p : PortIx} {k j : Local} {l m : LanePos} {x : Port} {g : Settings} {cause : RetrainCause}
  {window : Option (RetrainWindow × List Bool)} {n : Snapshot} {z : PortState} {f : Port → Port}

/-! ### A retrain -/

/-- The record of a port that retrains, before it goes to AWAIT_SLOT: the unstable count up, RETRAINS counted and reported, the class and
the attempts of a new cycle (R152). -/
def Local.retries (k : Local) (p : PortIx) (l : LanePos) (cause : RetrainCause) (window : Option (RetrainWindow × List Bool)) : Local :=
  (((k.modPort fun x => { x with unstable := x.unstable + 1 }).countPort p ctrRetrains).tell
    (portReports p [.retrain cause l k.port.map[l].logical window (k.port.unstable + 1) k.port.width])).modPort fun x =>
      { x with cycle := .retrain, attempts := 0 }

/-- A retrain or a join, before the grant test. -/
def Local.takeRetrain (k : Local) (p : PortIx) (g : Settings) (l : LanePos) (cause : RetrainCause)
    (window : Option (RetrainWindow × List Bool)) : Local :=
  if 3 ≤ k.port.unstable then k.enterFaulted p g .unstable else (k.retries p l cause window).toAwaitSlot p g

theorem State.put_takeRetrain (state : k.port.state = .active)
    (h : k.port.mode = .step ∨ 3 ≤ k.port.unstable ∨ s.settings.sweepLimit ≤ k.esu.busy) :
    (s.put p k).takeRetrain p l cause window = s.put p (k.takeRetrain p s.settings l cause window) := by
  rw [State.takeRetrain, State.put_port, Local.takeRetrain]
  split
  · exact State.put_enterFaulted .unstable (by rw [state]; decide)
  · next few =>
    simp only [State.put_modPort, State.put_countPort, State.put_postPort, State.put_port]
    have rests : (k.retries p l cause window).port.mode = .step ∨
        ((k.retries p l cause window).enterAwaitSlot p s.settings).esu.Resting s.settings.sweepLimit := by
      have tune : (k.retries p l cause window).port.state ≠ .tune := by
        rw [show (k.retries p l cause window).port.state = .active from state]; decide
      have await : (k.retries p l cause window).port.state ≠ .awaitSlot := by
        rw [show (k.retries p l cause window).port.state = .active from state]; decide
      refine h.imp_right fun full => ?_
      rw [Local.enterAwaitSlot_esu, Local.undoneEsu_of_ne tune await]
      exact .inr (.inr (full.resolve_left few))
    exact State.put_toAwaitSlot rests

section Retrained

variable (carries : k.Carries s p) (state : k.port.state = .active) (eq : ∀ m, (k.port.lane m).eq = (s.lane p m).eq)
  (port : t.port p = (k.takeRetrain p g l cause window).port) (left : t.esu = (k.takeRetrain p g l cause window).esu)
include carries state eq port left

/-- A port that has retrained, or whose third retrain has been one too many (R152). -/
theorem Local.takeRetrain_retrained : Retrained p s t := by
  have lane : ∀ m, t.lane p m = (k.takeRetrain p g l cause window).port.lane m := fun m => by rw [State.lane, port]
  have tune : k.port.state ≠ .tune := by rw [state]; decide
  have await : k.port.state ≠ .awaitSlot := by rw [state]; decide
  unfold Local.takeRetrain at port left lane
  by_cases many : 3 ≤ k.port.unstable
  · rw [if_pos many] at port left lane
    have arrives := k.enterFaulted_arrives p g .unstable
    have course := carries.course.trans arrives.course
    refine ⟨by rw [port]; exact course.map, by rw [port]; exact course.width, by rw [port]; exact course.snapshot,
      by rw [port]; exact course.neighbour, by rw [port]; exact course.accepted, by rw [port]; exact course.mode,
      by rw [port]; exact arrives.cleanRun, fun m => ⟨by rw [lane]; exact arrives.owner m, by rw [lane, arrives.eq, eq]⟩, ?_⟩
    rw [if_pos (carries.course.unstable ▸ many), port, left, Local.enterFaulted_esu, Local.undoneEsu_of_ne tune await,
      Local.enterFaulted_counters, carries.counters]
    exact ⟨arrives.state, arrives.fault, course.unstable, carries.esu, rfl⟩
  · rw [if_neg many] at port left lane
    obtain ⟨z, pending, arrives⟩ := (k.retries p l cause window).toAwaitSlot_arrives p g
    have course := arrives.course
    have mode : (k.retries p l cause window).port.mode = (s.port p).mode := carries.course.mode
    have queued := Local.toAwaitSlot_queued (k := k.retries p l cause window) mode carries.esu tune await port left
    have unstable : k.port.unstable = (s.port p).unstable := carries.course.unstable
    refine ⟨by rw [port]; exact course.map.trans carries.course.map, by rw [port]; exact course.width.trans carries.course.width,
      by rw [port]; exact course.snapshot.trans carries.course.snapshot, by rw [port]; exact course.neighbour.trans carries.course.neighbour,
      by rw [port]; exact course.accepted.trans carries.course.accepted, by rw [port]; exact course.mode.trans mode,
      by rw [port]; exact arrives.cleanRun, fun m => ⟨by rw [lane]; exact arrives.owner m, by rw [lane, arrives.eq]; exact eq m⟩, ?_⟩
    rw [if_neg (unstable ▸ many), port]
    refine ⟨queued, course.unstable.trans (congrArg (· + 1) unstable), arrives.cycle, arrives.attempts, ?_⟩
    rw [Local.toAwaitSlot_counters, if_neg fun both => absurd (show CycleClass.retrain = .initial from both.2) (by decide)]
    show k.port.counters.set ctrRetrains (k.port.counters[ctrRetrains].bump 65535 1) = _
    rw [carries.counters]

end Retrained

/-- The reports of a retrain that pauses before AWAIT_SLOT. -/
theorem Local.takeRetrain_told (state : k.port.state = .active) (few : k.port.unstable < 3) (step : k.port.mode = .step)
    (still : k.port.Still) (below : k.port.counters[ctrRetrains].saturates 65535 1 = false) :
    (k.takeRetrain p g l cause window).told = k.told ++ portReports p
      [.retrain cause l k.port.map[l].logical window (k.port.unstable + 1) k.port.width, .stagePause .awaitSlot,
        .portState .active .paused (some .awaitSlot) none .retrain 0] ∧
    (k.takeRetrain p g l cause window).kept = k.kept := by
  have pauses : k.takeRetrain p g l cause window = (k.retries p l cause window).enterPaused p g .awaitSlot :=
    (if_neg (Nat.not_le.2 few)).trans (Local.toAwaitSlot_of_step (k := k.retries p l cause window) step)
  have still' : (k.retries p l cause window).port.Still := still
  rw [pauses, Local.enterPaused_told still', Local.enterPaused_kept]
  constructor
  · show k.told ++ portReports p _ ++ portReports p [_, .portState k.port.state _ _ _ _ _] = _
    rw [state, List.append_assoc]
    rfl
  · show k.kept ++ (k.modPort fun x => { x with unstable := x.unstable + 1 }).port.saturation p ctrRetrains = k.kept
    rw [Port.saturation_of_not (x := (k.modPort fun x => { x with unstable := x.unstable + 1 }).port) below, List.append_nil]

/-! ### DISCOVER after ACTIVE -/

/-- A transition after which no lane has seen a loop request starts no loop. -/
theorem Local.transition_of_deaf (lanes : LanesKept f) (deaf : ∀ l, ((k.arrive p z f).port.lane l).rx.loopSeen = false) :
    k.transition p g z f = ((k.arrive p z f).tell [k.stateReport p z f]).modPort Port.sync := by
  have settled := Local.judgeLoops_of_settled (p := p) (g := g) (k := (k.arrive p z f).tell [k.stateReport p z f]) fun m => by
    have off : ((k.arrive p z f).port.lane m).autoLoop = false := by
      rw [Local.arrive_lane, (Lane.listen_line _ _).2.2.2.2.2.2.2.2, lanes]
      exact k.left_autoLoop p m
    exact (Port.loopHolds_eq_false (.inr (deaf m))).trans off.symm
  rw [Local.transition, settled]

/-- A lane the switch owned is SILENT once its port has left ACTIVE, with no request seen (R17, R6). -/
theorem Port.undoneLane_of_switch (owner : (x.lane l).owner = .switch) (manual : x.state ≠ .manual) :
    (x.undoneLane l).rx = (x.lane l).rx.restart ∧ (x.undoneLane l).monitor.hunt = none := by
  rw [Port.undoneLane, if_neg (by simp [Port.nearEnd_of_not_manual manual l])]
  show (x.lane l).takeBack.rx = _ ∧ (x.lane l).takeBack.monitor.hunt = none
  rw [Lane.takeBack, if_pos owner]
  exact ⟨rfl, rfl⟩

section Deaf

variable (owner : (k.port.lane l).owner = .switch) (manual : k.port.state ≠ .manual)
  (others : ∀ m, m ≠ l → (k.port.lane m).rx.loopSeen = false)
include owner manual others

theorem Local.toDiscover_deaf (m : LanePos) :
    ((k.arrive p .discover fun x => x.toDiscover n g).port.lane m).rx.loopSeen = false := by
  rw [Local.arrive_rx (lanesKept_toDiscover n g)]
  refine Lane.listen_loopSeen ?_ _
  by_cases here : m = l
  · rw [here, (Port.undoneLane_of_switch owner manual).1]; rfl
  · exact Port.undoneLane_loopSeen (others m here)

theorem Local.enterDiscover_timer_of_switch :
    (k.enterDiscover p g n).port.stageTimer = some { remaining := g.discovery * 1000, halted := false } :=
  Local.transition_stageTimer_of_deaf (lanesKept_toDiscover n g) (Local.toDiscover_deaf owner manual others)

theorem Local.enterDiscover_told_of_switch (still : k.port.Still) : (k.enterDiscover p g n).told =
    k.told ++ portReports p [.portState k.port.state .discover none none .initial 0] := by
  rw [Local.enterDiscover, Local.transition_of_deaf (lanesKept_toDiscover n g) (Local.toDiscover_deaf owner manual others)]
  show (k.undo p).told ++ [_] = _
  rw [Local.undo_told still, Local.stateReport_eq]
  show _ ++ [({ port := some p, lane := none, detail := .portState _ _ (k.left p).pending (k.left p).fault .initial 0 } : Report)] = _
  rw [k.left_pending, k.left_fault]
  rfl

end Deaf

theorem Local.enterDiscover_silent_of_switch (inside : l.val < 4) (owner : (k.port.lane l).owner = .switch)
    (manual : k.port.state ≠ .manual) : ((k.enterDiscover p g n).port.lane l).rx.state = .silent := by
  have undone : (k.port.undoneLane l).rx.state = .silent := by rw [(Port.undoneLane_of_switch owner manual).1]; rfl
  have listens : Port.listens { (k.left p).toDiscover n g with state := .discover } l = true :=
    Port.listens_of_lt nofun (Nat.lt_of_lt_of_le inside (Port.four_le_L _))
  rw [Local.enterDiscover, Local.transition_rx_state (lanesKept_toDiscover n g), listens,
    Lane.listen_rx_of_on (by rw [undone]; decide), undone]

theorem Local.enterDiscover_searching_of_switch (inside : l.val < 4) (owner : (k.port.lane l).owner = .switch)
    (manual : k.port.state ≠ .manual) (kind : n.entry.kind ≠ .unused) : (k.enterDiscover p g n).port.Searching n :=
  ⟨Port.discoveryDone_of_unusable inside (Port.usable_of_not_stable (by
    rw [Local.enterDiscover_silent_of_switch inside owner manual]; decide)), .inl kind⟩

theorem Local.enterDiscover_owner (m : LanePos) : ((k.enterDiscover p g n).port.lane m).owner = .part :=
  Local.transition_owner.trans k.left_owner

theorem Local.enterDiscover_hunt (owner : (k.port.lane m).owner = .switch) (manual : k.port.state ≠ .manual) :
    ((k.enterDiscover p g n).port.lane m).monitor.hunt = none := by
  rw [Local.enterDiscover, Local.transition_monitor]
  show ((k.left p).lane m).monitor.hunt = none
  rw [(k.left_lane p m).monitor, (Port.undoneLane_of_switch owner manual).2]

end Sys2Proof.Machine
end

section
/-! SUPPORT. The events of a lane tap and of a lane's timers (R23, R150, R154, R156, R157, R159). -/

namespace Sys2Proof.Machine

variable {s t u : State} {p : PortIx} {k j : Local} {l m : LanePos} {x : Port} {y : Lane} {b : Beacon} {pol : Polarity}
  {bytes : List Byte} {lock : PatternLock} {f : Lane → Lane} {r : Receiver} {own : List Report}

/-! ### Pattern lock -/

/-- One port with the pattern lock state of a lane set, and its checkers following. -/
def Local.setLock (k : Local) (l : LanePos) (v : PatternLock) : Local :=
  (k.modPort (·.modLane l fun y => { y with patternLock := v })).modPort Port.sync

theorem State.put_setLock (s : State) (p : PortIx) (k : Local) (l : LanePos) (v : PatternLock) :
    (s.put p k).setLock p l v = s.put p (k.setLock l v) := by
  rw [State.setLock, State.put_modLane, State.put_syncPort]
  rfl

theorem Port.takesLock_of (owner : (x.lane l).owner = .part) (on : (x.lane l).rx.state ≠ .off) (near : x.nearEnd l = false) :
    x.takesLock l = true := by simp [Port.takesLock, owner, on, near]

theorem exec_patternLock (takes : (s.port p).takesLock l = true) {c : Instr}
    (h : c = .patternLockLost p l ∧ lock = .searching ∨ c = .patternLockRegained p l ∧ lock = .locked) :
    exec c s = (s.put p ((s.held p).setLock l lock)).done := by
  rcases h with ⟨rfl, rfl⟩ | ⟨rfl, rfl⟩
  · show execPatternLockLost p l s = _
    rw [execPatternLockLost, if_pos takes, State.opened_eq_put s p, State.put_setLock]
  · show execPatternLockRegained p l s = _
    rw [execPatternLockRegained, if_pos takes, State.opened_eq_put s p, State.put_setLock]

theorem BlockStart.placed_line (st : BlockStart) (content : Content) : st.placed false content = if st = .loop then .astride else st := by
  cases st <;> rfl

/-- The port with a lane's lock set, before its checkers follow. -/
def Port.withLock (x : Port) (l : LanePos) (v : PatternLock) : Port := x.modLane l fun y => { y with patternLock := v }

theorem Port.withLock_lane (x : Port) (l : LanePos) (v : PatternLock) : (x.withLock l v).lane l = { x.lane l with patternLock := v } :=
  Port.lane_modLane_self ..

theorem Local.setLock_lane (k : Local) (l m : LanePos) (v : PatternLock) : (k.setLock l v).port.lane m =
    { (k.port.withLock l v).lane m with
      gen := ((k.port.withLock l v).lane m).nextGen ((k.port.withLock l v).content m)
      block := if (k.port.withLock l v).content m = .prbs then ((k.port.withLock l v).lane m).block else none
      checker := ((k.port.withLock l v).lane m).checker.follow ((k.port.withLock l v).counts m) ((k.port.withLock l v).nearEnd m)
        ((k.port.withLock l v).content m) ((k.port.withLock l v).lock m) ((k.port.withLock l v).checkCorrection m) } :=
  Port.sync_lane ..

/-- A block in hand when the lock changes (R23, R24). -/
theorem Local.setLock_block {st : BlockStart} {searching : Bool} {o : Option Polarity} (near : k.port.nearEnd l = false)
    (counts : k.port.counts l = true) (held : (k.port.lane l).checker = .block st searching o) (v : PatternLock) :
    ((k.setLock l v).port.lane l).checker = .block (if st = .loop then .astride else st) (searching || decide (v = .searching))
      (if o = some (k.port.checkCorrection l) then o else none) := by
  have lane := k.port.withLock_lane l v
  have near' : (k.port.withLock l v).nearEnd l = false := (Port.nearEnd_of_same (w := k.port.withLock l v) (x := k.port) rfl (by rw [lane])).trans near
  have counts' : (k.port.withLock l v).counts l = true := by
    rw [← counts, Port.counts, Port.counts, lane]; rfl
  have lock : (k.port.withLock l v).lock l = v := by rw [Port.lock, near', if_neg (by decide), lane]
  have correction : (k.port.withLock l v).checkCorrection l = k.port.checkCorrection l := by
    rw [Port.checkCorrection, Port.checkCorrection, lane]; rfl
  rw [Local.setLock_lane]
  show Checker.follow ((k.port.withLock l v).lane l).checker _ _ _ _ _ = _
  rw [counts', near', lock, correction, lane]
  show Checker.follow (k.port.lane l).checker _ _ _ _ _ = _
  rw [held, Checker.follow_of_block, BlockStart.placed_line]

/-! ### A lane the switch owns (R150, R156, R157) -/

/-- A command that has changed one lane of a port and nothing else of it. -/
theorem Became.lane_only (h : Became p s j t) (port : j.port = (s.port p).modLane l f) (esu : j.esu = s.esu) :
    (OnlyPort p s t ∧ t.esu = s.esu ∧ { t.port p with lanes := (s.port p).lanes } = s.port p ∧ ∀ m, m ≠ l → t.lane p m = s.lane p m) ∧
      t.lane p l = f (s.lane p l) := by
  refine ⟨⟨h.toOnlyPort, h.esu.trans esu, by rw [h.port, port]; rfl, fun m other => ?_⟩, ?_⟩
  · rw [h.lane, port]; exact Port.lane_modLane_of_ne _ _ other
  · rw [h.lane, port]; exact Port.lane_modLane_self ..

theorem exec_symbolError_of_switch (owner : (s.lane p l).owner = .switch) : exec (.symbolError p l) s =
    (s.put p (((s.held p).modPort (·.modLane l fun y => { y with monitor := y.monitor.addError })).countLane p l ctrSymbolErr 1)).done := by
  show execSymbolError p l s = _
  rw [execSymbolError, if_pos owner, State.opened_eq_put s p, State.put_modLane, State.put_countLane]

theorem Monitor.addError_eq (o : Monitor) :
    o.addError = { o with errors := if o.errors < 65535 then o.errors + 1 else 65535 } := by
  have bounded : min periodErrorsMax (o.errors + 1) = if o.errors < 65535 then o.errors + 1 else 65535 := by
    rw [periodErrorsMax]
    split <;> omega
  rw [Monitor.addError, bounded]

theorem exec_blockLockLost_of_switch (owner : (s.lane p l).owner = .switch) : exec (.blockLockLost p l) s =
    (s.put p (((s.held p).countLane p l ctrLockLoss 1).modPort
      (·.modLane l fun y => if y.monitor.hunt = none then y.startHunt else y))).done := by
  show execBlockLockLost p l s = _
  rw [execBlockLockLost, if_pos owner, State.opened_eq_put s p, State.put_countLane, State.put_modLane]

theorem exec_blockLockRegained_of_hunt {o : Hunt} (owner : (s.lane p l).owner = .switch) (hunt : (s.lane p l).monitor.hunt = some o) :
    exec (.blockLockRegained p l) s = (s.put p (((s.held p).modPort (·.modLane l Lane.endHunt)).tell
      [{ port := some p, lane := some l, detail := .lockBlip (100 - o.remaining) }])).done := by
  show execBlockLockRegained p l s = _
  rw [execBlockLockRegained, owner, hunt]
  simp only []
  rw [State.opened_eq_put s p, State.put_modLane, State.put_postLane]
  rfl

theorem exec_recoveryTimerExpiry_of_hunt {o : Hunt} (owner : (s.lane p l).owner = .switch) (hunt : (s.lane p l).monitor.hunt = some o) :
    exec (.recoveryTimerExpiry p l) s = ((s.put p ((s.held p).tell [Report.mk (some p) (some l)
      (.linkLost (s.lane p l).rx.lastStable ((s.port p).otherHunts l) o.heard)])).enterDiscover p).done := by
  show execRecoveryTimerExpiry p l s = _
  rw [execRecoveryTimerExpiry, owner, hunt]
  simp only []
  rw [State.linkLost, State.opened_eq_put s p, State.put_postLane, State.put_port, State.put_lane]
  rfl

theorem exec_cleanRunExpiry_of_active {n : Nat} (state : (s.port p).state = .active) (cleanRun : (s.port p).cleanRun = some n) :
    exec (.cleanRunExpiry p) s = .next (s.modPort p fun z => { z with unstable := 0, cleanRun := none }).settled := by
  show execCleanRunExpiry p s = _
  rw [execCleanRunExpiry, if_pos ⟨state, by rw [cleanRun]; exact Option.some_ne_none n⟩]
  exact State.done_of_none rfl

/-! ### A port that goes from ACTIVE to DISCOVER -/

/-- A command by which an ACTIVE port goes to DISCOVER, over a lane of its first four that the switch owned. -/
structure Rediscovers (p : PortIx) (s : State) (k : Local) (t : State) : Prop extends OnlyPort p s t where
  esu : t.esu = s.esu
  port : (s.port p).rediscovered (t.port p) (s.plan.resolve p) s.settings
  owner : ∀ m, (t.lane p m).owner = .part
  hunt : ∀ m, (s.lane p m).owner = .switch → (t.lane p m).monitor.hunt = none
  reports : t.reports = s.reports.enterAll s.time.clock
    (k.told ++ portReports p [.portState .active .discover none none .initial 0] ++ k.kept)

theorem rediscovers_of_became (state : k.port.state = .active) (owner : (k.port.lane l).owner = .switch)
    (others : ∀ m, m ≠ l → (k.port.lane m).rx.loopSeen = false) (still : k.port.Still) (esu : k.esu = s.esu)
    (mode : k.port.mode = (s.port p).mode) (unstable : k.port.unstable = (s.port p).unstable)
    (counters : k.port.counters = (s.port p).counters)
    (owners : ∀ m, (s.lane p m).owner = .switch → (k.port.lane m).owner = .switch)
    (h : Became p s (k.enterDiscover p s.settings (s.plan.resolve p)) t) : Rediscovers p s k t where
  toOnlyPort := h.toOnlyPort
  esu := by
    rw [h.esu, Local.enterDiscover_esu, Local.undoneEsu_of_ne (by rw [state]; decide) (by rw [state]; decide), esu]
  port := by
    rw [h.port]
    exact (Local.enterDiscover_rediscovered (Local.enterDiscover_timer_of_switch owner (by rw [state]; decide) others)).back mode unstable
      counters
  owner m := by rw [h.lane]; exact Local.enterDiscover_owner m
  hunt m own := by rw [h.lane]; exact Local.enterDiscover_hunt (owners m own) (by rw [state]; decide)
  reports := by
    rw [h.reports, Local.enterDiscover_told_of_switch owner (by rw [state]; decide) others still, Local.enterDiscover_kept, state]

end Sys2Proof.Machine
end

section
/-! SUPPORT. A good beacon on a hunting lane of an ACTIVE port (R157, R158), and the statement about the events of the line and the
link. -/

namespace Sys2Proof.Machine

variable {s t u : State} {p : PortIx} {k j : Local} {l m : LanePos} {x : Port} {y : Lane} {b : Beacon} {pol : Polarity}
  {bytes : List Byte} {r : Receiver} {own : List Report} {vs : List LaneEvent} {g : Option Stage} {v : LaneEvent}

/-! ### The events of a hunting lane -/

theorem State.laneEvent_of_hunt (state : (u.port p).state = .active) (hunt : (u.lane p l).monitor.hunt.isSome = true) (h : v.mild) :
    u.laneEvent p l v = u := by
  have taken : u.laneEvent p l v = u.huntEvent p l v := by
    unfold State.laneEvent
    rw [state]
    exact if_pos hunt
  rw [taken]
  cases v with
  | identityChanged a c => exact absurd rfl (h.2 a c)
  | _ => rfl

/-- A change of identity comes first among the events of a beacon, and only once (R10, R11). -/
theorem Receiver.good_changes (on : r.state ≠ .off) {a c : Identity} (h : LaneEvent.identityChanged a c ∈ (r.good b pol).2) :
    ∃ rest, (r.good b pol).2 = .identityChanged a c :: rest ∧ ∀ v ∈ rest, v.mild := by
  have way : ∀ fault : Bool, (wayEvent fault).mild := fun fault => by cases fault <;> exact ⟨nofun, nofun⟩
  have kept : ∀ vs : List LaneEvent, (∀ v ∈ vs, v.mild) → LaneEvent.identityChanged a c ∉ vs := fun vs mild mem =>
    (mild _ mem).2 a c rfl
  revert h
  refine Receiver.good_cases (P := fun o => LaneEvent.identityChanged a c ∈ o.2 → ∃ rest, o.2 = .identityChanged a c :: rest ∧ ∀ v ∈ rest, v.mild)
    b pol on (fun h k => ?_) (fun h k => ?_) (fun h k => ?_) (fun h k => ?_) (fun h k => ?_) (fun old h k other => ?_) fun h k => ?_
  · rw [Receiver.good_of_first h k]; exact nofun
  · rw [Receiver.good_of_second h k]; exact fun mem => by simp at mem
  · rw [Receiver.good_of_unstable h k]; exact nofun
  · rw [Receiver.good_of_fourth h k]
    intro mem
    obtain ⟨e, events⟩ : ∃ e, r.stableEvents (b.identity pol) b.flags.remoteFault = [e, wayEvent b.flags.remoteFault] := ⟨_, rfl⟩
    rw [events] at mem ⊢
    rcases List.mem_cons.1 mem with first | second
    · exact ⟨_, by rw [← first], fun v hv => by rw [List.mem_singleton.1 hv]; exact way _⟩
    · exact absurd second (kept _ fun v hv => by rw [List.mem_singleton.1 hv]; exact way _)
  · rw [Receiver.good_of_same h k]
    exact fun mem => absurd mem (kept _ (Receiver.wayChange_mild r _))
  · rw [Receiver.good_of_other h k other]
    intro mem
    exact ⟨[], by rw [List.mem_singleton.1 mem], nofun⟩
  · rw [Receiver.good_of_unheld h k]; exact nofun

/-- A port in cabled DISCOVER that cannot end it yet is left by every mild event (R61). -/
theorem State.laneEvent_of_searching (state : (u.port p).state = .discover) (cabled : (u.port p).cabled = true)
    (unfinished : (u.port p).discoveryDone = false) (h : v.mild) : u.laneEvent p l v = u := by
  have taken : u.laneEvent p l v = u.discoverEvent p l v := by
    unfold State.laneEvent
    rw [state]
    exact if_pos cabled
  rw [taken]
  cases v with
  | identityChanged a c => exact absurd rfl (h.2 a c)
  | stable => exact State.discoveryTest_of_not unfinished
  | twoWay => exact State.discoveryTest_of_not unfinished
  | _ => rfl

theorem State.farTests_of_active (state : (u.port p).state = .active) : u.farTests p l b g =
    if (u.lane p l).monitor.hunt.isSome ∧ (u.lane p l).rx.state = .stable ∧ b.flags.retrain
    then u.takeRetrain p l .farEndRetrain none else u := by
  unfold State.farTests
  rw [state]

/-! ### A good beacon on a hunting lane -/

/-- What the lane itself does with its beacon, up to the events it hands the port. -/
theorem exec_beaconArrival_of_active (state : (s.port p).state = .active) (good : classify bytes = .good b pol)
    (on : (s.lane p l).rx.state ≠ .off) (running : (s.lane p l).rx.suspended = false) :
    ∃ (j : Local) (u : State),
      (s.held p).Takes j l ((s.lane p l).rx.good b pol).1 (((s.lane p l).rx.good b pol).2.filterMap (LaneEvent.report p l)) ∧
      u = ((s.lane p l).rx.good b pol).2.foldl (fun t v => t.laneEvent p l v) (s.put p j) ∧
      exec (.beaconArrival p l bytes) s =
        (if (u.port p).state = .active then u.farTests p l b (s.port p).farStage else u).done := by
  have manual : (s.port p).state ≠ .manual := by rw [state]; decide
  have state' : ((s.held p).echoed l bytes).port.state = .active :=
    ((s.held p).echoed_other l bytes Port.state fun _ _ => rfl).trans state
  have calm : ((s.held p).echoed l bytes).port.state ≠ .discover ∧ ((s.held p).echoed l bytes).port.state ≠ .faulted := by
    rw [state']; decide
  have rx : (((s.held p).echoed l bytes).port.lane l).rx = (s.lane p l).rx := (s.held p).echoed_field l l bytes Lane.rx
  have takes := Local.takes_takes (p := p) (g := s.settings) (l := l) (b := b) (pol := pol) calm
  rw [rx] at takes
  refine ⟨((s.held p).echoed l bytes).takes p s.settings l b pol, _, takes.of_echoed, rfl, ?_⟩
  have heard : (s.put p ((s.held p).echoed l bytes)).heardGood p l b pol = ((s.lane p l).rx.good b pol).2.foldl
      (fun t v => t.laneEvent p l v) (s.put p (((s.held p).echoed l bytes).takes p s.settings l b pol)) := by
    rw [State.put_heardGood_takes calm.1, rx]
  rw [exec_beaconArrival_of_good (Port.receives_of on running (Port.nearEnd_of_not_manual manual l)) good, State.put_receiveGood,
    heard, state', Local.echoed_farStage]
  rfl

section Hunting

variable (state : (s.port p).state = .active) (good : classify bytes = .good b pol) (on : (s.lane p l).rx.state ≠ .off)
  (running : (s.lane p l).rx.suspended = false) {o : Hunt} (hunt : (s.lane p l).monitor.hunt = some o)
include state good on running hunt

/-- A lane that is, or becomes, STABLE joins the retrain its far end has begun (R157, R158). -/
theorem exec_beaconArrival_of_joins (stable : ((s.lane p l).rx.good b pol).1.state = .stable) (retrain : b.flags.retrain = true)
    (mild : ∀ v ∈ ((s.lane p l).rx.good b pol).2, v.mild) (room : (s.port p).mode = .step ∨ 3 ≤ (s.port p).unstable ∨ s.noGrant) :
    ∃ (j : Local) (t : State), (s.held p).Takes j l ((s.lane p l).rx.good b pol).1 [] ∧ exec (.beaconArrival p l bytes) s = .next t ∧
      Became p s (j.takeRetrain p s.settings l .farEndRetrain none) t := by
  obtain ⟨j, u, took, ends, runs⟩ := exec_beaconArrival_of_active state good on running
  rw [LaneEvent.reports_of_mild mild] at took
  have state' : ((s.put p j).port p).state = .active := by rw [State.put_port, took.state]; exact state
  have hunting : ((s.put p j).lane p l).monitor.hunt.isSome = true := by
    rw [State.put_lane, took.hunt, show ((s.held p).port.lane l).monitor.hunt = some o from hunt]
    rfl
  rw [State.laneEvents_eq fun v hv => State.laneEvent_of_hunt state' hunting (mild v hv)] at ends
  have stable' : ((s.put p j).lane p l).rx.state = .stable := by rw [State.put_lane, took.rx]; exact stable
  have mode : j.port.mode = (s.port p).mode := took.field Port.mode
  have unstable : j.port.unstable = (s.port p).unstable := took.field Port.unstable
  rw [ends, if_pos state', State.farTests_of_active state', if_pos ⟨hunting, stable', retrain⟩, State.put_takeRetrain (k := j)
    (took.state.trans state) (room.imp (mode.trans ·) (.imp (unstable.symm ▸ ·) fun full => by
      rw [took.esu]; exact full))] at runs
  obtain ⟨t, runs, became⟩ := became_of_done runs rfl
  exact ⟨j, t, took, runs, became⟩

/-- A lane that hears another identity sends its port to DISCOVER (R157). -/
theorem exec_beaconArrival_of_changes {a c : Identity} (owner : (s.lane p l).owner = .switch)
    (changes : LaneEvent.identityChanged a c ∈ ((s.lane p l).rx.good b pol).2) (inside : l.val < 4)
    (kind : (s.plan.resolve p).entry.kind ≠ .unused) (quiet : ∀ k, (s.lane p k).autoLoop = false ∧ (s.lane p k).rx.loopSeen = false) :
    ∃ (j : Local) (t : State), (s.held p).Takes j l ((s.lane p l).rx.good b pol).1 [Report.mk (some p) (some l) (.identityChanged a c)] ∧
      exec (.beaconArrival p l bytes) s = .next t ∧
      Rediscovers p s (j.tell [Report.mk (some p) (some l) (.neighbourChanged a c)]) t := by
  obtain ⟨j, u, took, ends, runs⟩ := exec_beaconArrival_of_active state good on running
  obtain ⟨rest, events, mild⟩ := Receiver.good_changes on changes
  rw [events] at took ends
  have own : (LaneEvent.identityChanged a c :: rest).filterMap (LaneEvent.report p l) =
      [Report.mk (some p) (some l) (.identityChanged a c)] := by
    rw [List.filterMap_cons_some (f := LaneEvent.report p l) (b := Report.mk (some p) (some l) (.identityChanged a c)) rfl, LaneEvent.reports_of_mild mild]
  rw [own] at took
  have state' : j.port.state = .active := took.state.trans state
  have owner' : (j.port.lane l).owner = .switch := took.owner.trans owner
  have others : ∀ m, m ≠ l → (j.port.lane m).rx.loopSeen = false := fun m other => by rw [took.others m other]; exact (quiet m).2
  have manual : j.port.state ≠ .manual := by rw [state']; decide
  have stays := Local.enterDiscover_searching_of_switch (k := j.tell [Report.mk (some p) (some l) (.neighbourChanged a c)]) (p := p)
    (g := s.settings) inside owner' manual kind
  have loses : j.port.Loses l (.identityChanged a c) (.neighbourChanged a c) := .huntChanged a c state' (by
    rw [took.hunt, show ((s.held p).port.lane l).monitor.hunt = some o from hunt]; rfl)
  have goes := State.put_enterDiscover (s := s) (k := j.tell [Report.mk (some p) (some l) (.neighbourChanged a c)]) (p := p)
    (by rw [Local.tell_port, state']; decide) stays
  generalize hd : (j.tell [Report.mk (some p) (some l) (.neighbourChanged a c)]).enterDiscover p s.settings (s.plan.resolve p) = d
    at stays goes
  have searching : ((s.put p d).port p).state = .discover ∧ ((s.put p d).port p).cabled = true ∧
      ((s.put p d).port p).discoveryDone = false := by
    have snapshot : d.port.snapshot = some (s.plan.resolve p) := by rw [← hd]; exact Local.enterDiscover_snapshot
    rw [State.put_port]
    exact ⟨by rw [← hd]; exact Local.enterDiscover_state, (Port.cabled_of snapshot).trans (decide_eq_true kind), stays.unfinished⟩
  rw [List.foldl_cons, State.put_laneEvent_of_loses loses, goes,
    State.laneEvents_eq fun v hv => State.laneEvent_of_searching searching.1 searching.2.1 searching.2.2 (mild v hv)] at ends
  rw [ends, if_neg (by rw [searching.1]; decide)] at runs
  obtain ⟨t, runs, became⟩ := became_of_done runs rfl
  refine ⟨j, t, took, runs, rediscovers_of_became (k := j.tell _) (l := l) state' owner' others (took.still fun m => (quiet m).1) took.esu
    (took.field Port.mode) (took.field Port.unstable) (took.field Port.counters) (fun m owned => ?_) (hd ▸ became)⟩
  by_cases here : m = l
  · rw [here]; exact owner'
  · rw [Local.tell_port, took.others m here]; exact owned

end Hunting

theorem Port.otherHunts_eq (x : Port) (l : LanePos) : x.otherHunts l =
    (allLanes.filter fun k => x.map[k].logical.isSome && decide (k ≠ l)).map fun k => (k, (x.lane k).monitor.hunt.isSome) := by
  rw [Port.otherHunts, Port.mappedLanes, List.filter_filter]
  simp only [Bool.and_comm]
  rfl

/-- Settles O55: pattern lock, symbol errors, block lock, recovery, joined retrains and new identities act on their lane and its port. -/
theorem linkEventsActOnTheirLane : Obligations.LinkEventsActOnTheirLane := by
  intro p l s x y onlyLane
  refine ⟨fun owner on near c lock event => ?_, fun owner => ⟨?_, ?_, fun o hunt => ⟨?_, fun state inside kind quiet => ?_,
    fun bytes b pol r es state good hears on running => ⟨fun stable retrain mild room => ?_, fun a c changes inside kind quiet => ?_⟩⟩⟩,
    fun n state cleanRun => exec_cleanRunExpiry_of_active state cleanRun⟩
  · obtain ⟨t, runs, became⟩ := became_of_done (exec_patternLock (Port.takesLock_of owner on near) event) rfl
    refine ⟨t, runs, became.toOnlyPort, became.esu, became.reports, by rw [became.port]; rfl, fun k => ?_, fun k other => ?_, ?_,
      fun st searching o counts held => by rw [became.lane]; exact Local.setLock_block (k := s.held p) near counts held lock⟩
    · rw [became.lane, Local.setLock_lane]
      by_cases here : k = l
      · rw [here, Port.withLock_lane]; rfl
      · rw [show ((s.held p).port.withLock l lock).lane k = s.lane p k from Port.lane_modLane_of_ne _ _ here]
    · rw [became.lane, Local.setLock_lane,
        show ((s.held p).port.withLock l lock).lane k = s.lane p k from Port.lane_modLane_of_ne _ _ other]
    · rw [became.lane, Local.setLock_lane, Port.withLock_lane]
  · obtain ⟨t, runs, became⟩ := became_of_done (exec_symbolError_of_switch owner) rfl
    obtain ⟨only, lane⟩ := became.lane_only
      (l := l) (f := fun z => ({ z with monitor := z.monitor.addError } : Lane).bumped ctrSymbolErr 1)
      (Port.modLane_modLane x l (fun z => { z with monitor := z.monitor.addError }) (·.bumped ctrSymbolErr 1)) rfl
    refine ⟨t, runs, only, ?_, fun below => ?_⟩
    · rw [lane]
      show Lane.bumped { s.lane p l with monitor := (s.lane p l).monitor.addError } ctrSymbolErr 1 = _
      rw [Monitor.addError_eq]
      rfl
    · have none_kept : (((s.held p).modPort (·.modLane l fun y => { y with monitor := y.monitor.addError })).port.lane l).saturation p l
          ctrSymbolErr 1 = [] := by
        rw [Local.modPort_port, Port.lane_modLane_self]
        exact Lane.saturation_of_not below
      rw [became.reports]
      show s.reports.enterAll s.time.clock ([] ++ ([] ++ _)) = s.reports
      rw [none_kept]
      rfl
  · obtain ⟨t, runs, became⟩ := became_of_done (exec_blockLockLost_of_switch owner) rfl
    obtain ⟨only, lane⟩ := became.lane_only (l := l)
      (f := fun z => if (z.bumped ctrLockLoss 1).monitor.hunt = none then (z.bumped ctrLockLoss 1).startHunt else z.bumped ctrLockLoss 1)
      (Port.modLane_modLane x l (·.bumped ctrLockLoss 1) fun z => if z.monitor.hunt = none then z.startHunt else z) rfl
    refine ⟨t, runs, only, ?_⟩
    by_cases fresh : y.monitor.hunt = none
    · rw [lane, if_pos (show ((s.lane p l).bumped ctrLockLoss 1).monitor.hunt = none from fresh)]
      exact ⟨rfl, owner, rfl, rfl, fun o hunt => (Option.some_ne_none o (hunt.symm.trans fresh)).elim,
        fun _ => ⟨rfl, rfl, rfl, rfl, rfl, rfl, rfl⟩⟩
    · rw [lane, if_neg (show ¬((s.lane p l).bumped ctrLockLoss 1).monitor.hunt = none from fresh)]
      exact ⟨rfl, owner, rfl, rfl, fun o hunt => ⟨hunt, rfl⟩, fun none => absurd none fresh⟩
  · obtain ⟨t, runs, became⟩ := became_of_done (exec_blockLockRegained_of_hunt owner hunt) rfl
    obtain ⟨only, lane⟩ := became.lane_only (f := Lane.endHunt) rfl rfl
    exact ⟨t, runs, only, lane, became.reports⟩
  · have runs := exec_recoveryTimerExpiry_of_hunt owner hunt
    rw [State.put_enterDiscover (k := (s.held p).tell _) (by rw [Local.tell_port]; show x.state ≠ _; rw [state]; decide)
      (Local.enterDiscover_searching_of_switch inside owner (by rw [Local.tell_port]; show x.state ≠ _; rw [state]; decide) kind)] at runs
    obtain ⟨t, runs, became⟩ := became_of_done runs rfl
    have gone := rediscovers_of_became (k := (s.held p).tell _) (l := l) state owner (fun m _ => (quiet m).2) (fun m => (quiet m).1) rfl rfl
      rfl rfl
      (fun _ owned => owned) became
    refine ⟨t, runs, gone.toOnlyPort, gone.esu, gone.port, fun k => ⟨gone.owner k, gone.hunt k⟩, gone.reports.trans ?_⟩
    rw [Port.otherHunts_eq]
    exact congrArg _ (List.append_nil _)
  · obtain ⟨rfl, rfl⟩ : r = (y.rx.good b pol).1 ∧ es = (y.rx.good b pol).2 := Prod.mk.inj hears
    have mild' : ∀ v ∈ (y.rx.good b pol).2, v.mild := fun v hv => by
      rcases mild v hv with rfl | rfl | rfl <;> exact ⟨nofun, nofun⟩
    obtain ⟨j, t, took, runs, became⟩ := exec_beaconArrival_of_joins state good on running hunt stable retrain mild' room
    have state' : j.port.state = .active := took.state.trans state
    have eq : ∀ m, (j.port.lane m).eq = (s.lane p m).eq := took.all (P := fun m z => z.eq = (s.lane p m).eq)
      (took.eq (by rw [Port.honoursTaps, show (s.held p).port.state = .active from state])) fun _ _ => rfl
    refine ⟨t, runs, became.toOnlyPort, Local.takeRetrain_retrained took.carries state' eq became.port became.esu,
      fun few step still below counts => ?_⟩
    have counters : j.port.counters = x.counters := took.field Port.counters
    have unstable : j.port.unstable = x.unstable := took.field Port.unstable
    obtain ⟨told, kept⟩ := Local.takeRetrain_told (p := p) (g := s.settings) (l := l) (cause := .farEndRetrain) (window := none) state'
      (by rw [unstable]; exact few) ((took.field Port.mode).trans step) (took.still still) (by rw [counters]; exact below)
    rw [became.reports, told, kept, took.told (still l), took.kept counts, unstable, took.mapped,
      show j.port.width = x.width from took.field Port.width]
    rfl
  · obtain ⟨rfl, rfl⟩ : r = (y.rx.good b pol).1 ∧ es = (y.rx.good b pol).2 := Prod.mk.inj hears
    obtain ⟨j, t, took, runs, gone⟩ := exec_beaconArrival_of_changes state good on running hunt owner changes inside kind quiet
    refine ⟨t, runs, gone.toOnlyPort, gone.esu, gone.port, fun counts => ?_⟩
    rw [gone.reports, Local.tell_told, Local.tell_kept, took.told (quiet l).1, took.kept counts]
    rfl

end Sys2Proof.Machine
end

section
/-! SUPPORT. The end of a qualification window on one port's operations (R141 to R145): its outcome, the way into HANDOVER, and a width
reduction (R130, R144). -/

namespace Sys2Proof.Machine

variable {s t u : State} {p : PortIx} {k j : Local} {l m : LanePos} {x : Port} {g : Settings} {c : WidthCause} {n : PlanEntry}
  {q : QualRecord} {r : FaultReason} {es : List QualEntry} {d e : QualEntry} {z : PortState} {f : Port → Port}

/-! ### Half of the lanes -/

theorem Port.half_eq (x : Port) : x.L / 2 = if x.L = 4 then 2 else 4 := by
  rw [Port.L]
  cases x.laneCount <;> rfl

/-- A port at half width (R130, R144). -/
theorem Port.halve_map (x : Port) : x.halve.map = Vector.ofFn fun m : LanePos =>
    if (∃ i, x.map[m].logical = some i ∧ (if x.L = 4 then 2 else 4) ≤ i.val) then { x.map[m] with logical := none } else x.map[m] := by
  refine congrArg Vector.ofFn (funext fun m => ?_)
  rw [← x.half_eq]
  cases logical : x.map[m].logical with
  | none => rw [if_neg nofun, Option.filter_none, ← logical]
  | some i =>
    by_cases high : x.L / 2 ≤ i.val
    · rw [if_pos ⟨i, rfl, high⟩, Option.filter_some_neg (by simpa using high)]
    · rw [if_neg (by rintro ⟨_, same, above⟩; cases same; exact high above), Option.filter_some_pos (by simpa using high), ← logical]

theorem Port.dropped_eq (x : Port) : x.dropped =
    allLanes.filter fun m => decide (∃ i, x.map[m].logical = some i ∧ (if x.L = 4 then 2 else 4) ≤ i.val) := by
  rw [Port.dropped, ← x.half_eq]
  refine List.filter_congr fun m _ => ?_
  cases logical : x.map[m].logical with
  | none => simp
  | some i => simp

/-- A width reduction. -/
def Local.reduceWidth (k : Local) (p : PortIx) (c : WidthCause) : Local :=
  ((k.tell (portReports p [.widthReduced c k.port.dropped])).modPort Port.halve).modPort Port.sync

theorem State.put_reduceWidth (s : State) (p : PortIx) (k : Local) (c : WidthCause) :
    (s.put p k).reduceWidth p c = s.put p (k.reduceWidth p c) := by
  rw [State.reduceWidth, State.put_port, State.put_postPort, State.put_modPort, State.put_syncPort]
  rfl

/-- What a width reduction leaves of each lane. -/
theorem Local.reduceWidth_lane (k : Local) (p : PortIx) (c : WidthCause) (m : LanePos) : ∃ gen block checker,
    (k.reduceWidth p c).port.lane m = { k.port.lane m with gen := gen, block := block, checker := checker } := by
  show ∃ gen block checker, (k.port.halve.sync).lane m = _
  rw [Port.sync_lane]
  exact ⟨_, _, _, rfl⟩

theorem Local.reduceWidth_still (still : k.port.Still) : (k.reduceWidth p c).port.Still := fun m => by
  obtain ⟨_, _, _, lane⟩ := k.reduceWidth_lane p c m
  rw [lane]
  exact still m

/-! ### HANDOVER, or a pause before it -/

/-- The way into HANDOVER. -/
def Local.toHandover (k : Local) (p : PortIx) (g : Settings) : Local :=
  if k.port.mode = .step then k.enterPaused p g .handover else k.enterHandover p g

theorem State.put_toHandover (s : State) (p : PortIx) (k : Local) :
    (s.put p k).toHandover p = s.put p (k.toHandover p s.settings) := by
  rw [State.toHandover, State.put_port, Local.toHandover]
  split
  · exact State.put_enterPaused ..
  · exact State.put_enterHandover ..

theorem Local.toHandover_of_step (step : k.port.mode = .step) : k.toHandover p g = k.enterPaused p g .handover := if_pos step

theorem Local.toHandover_of_not (auto : k.port.mode ≠ .step) : k.toHandover p g = k.enterHandover p g := if_neg auto

/-- A change of state keeps every lane's counters. -/
theorem Local.transition_counts (lanes : LanesKept f) : ((k.transition p g z f).port.lane m).counters = (k.port.lane m).counters := by
  rw [Local.transition_laneCounters, lanes, Local.left_laneCounters]

theorem Local.enterPaused_counts (st : PendingStage) : ((k.enterPaused p g st).port.lane m).counters = (k.port.lane m).counters :=
  Local.transition_counts (k := k.tell _) (stages_pending st).kept.lanes

theorem Local.enterFaulted_counts : ((k.enterFaulted p g r).port.lane m).counters = (k.port.lane m).counters :=
  Local.transition_counts (k := k.tell _) (stages_fault r).kept.lanes

theorem Local.enterAwaitSlot_counts : ((k.enterAwaitSlot p g).port.lane m).counters = (k.port.lane m).counters := by
  have moved : ((k.transition p g .awaitSlot id).port.lane m).counters = (k.port.lane m).counters :=
    Local.transition_counts stages_id.kept.lanes
  rw [Local.enterAwaitSlot, Local.countAttempt]
  split <;> exact moved

theorem Local.failedAttempt_counts : ((k.failedAttempt p g r).port.lane m).counters = (k.port.lane m).counters := by
  unfold Local.failedAttempt Local.toAwaitSlot
  split
  · exact Local.enterFaulted_counts
  · split
    · exact Local.enterPaused_counts _
    · exact Local.enterAwaitSlot_counts

/-- The record of a port on its way out of a window into HANDOVER (R83, R92, R143). -/
structure Local.Passes (k j : Local) (p : PortIx) (g : Settings) : Prop where
  esu : j.esu = k.undoneEsu p
  map : j.port.map = k.port.map
  width : j.port.width = k.port.width
  attempts : j.port.attempts = k.port.attempts
  counters : j.port.counters = k.port.counters
  qualify : j.port.qualify = k.port.qualify.map fun q => { q with begun := false }
  counts : ∀ m, (j.port.lane m).counters = (k.port.lane m).counters
  kept : j.kept = k.kept
  paused : k.port.mode = .step → j.port.state = .paused ∧ j.port.pending = some .handover ∧ (k.port.Still →
    j.told = k.told ++ portReports p [.stagePause .handover,
      .portState k.port.state .paused (some .handover) none k.port.cycle k.port.attempts])
  entered : k.port.mode ≠ .step → j.port.state = .handover ∧ j.port.stageTimer = secondsTimer g.farEndWait ∧
    j.port.handover = some { closing := false, entries := k.port.mappedLanes.map fun l => { pos := l, readyRun := 0, sent := 0 } } ∧
    (k.port.Still → j.told = k.told ++ portReports p [.portState k.port.state .handover none none k.port.cycle k.port.attempts])

theorem Local.toHandover_passes (k : Local) (p : PortIx) (g : Settings) : k.Passes (k.toHandover p g) p g := by
  by_cases step : k.port.mode = .step
  · rw [Local.toHandover_of_step step]
    have arrives := k.enterPaused_arrives p g .handover
    exact ⟨Local.enterPaused_esu .., arrives.course.map, arrives.course.width, arrives.attempts, Local.enterPaused_counters ..,
      Local.enterPaused_qualify .., fun m => Local.enterPaused_counts _, Local.enterPaused_kept ..,
      fun _ => ⟨arrives.state, arrives.pending, fun still => Local.enterPaused_told still _⟩, fun auto => absurd step auto⟩
  · rw [Local.toHandover_of_not step]
    have arrives := k.enterHandover_arrives p g
    exact ⟨Local.enterHandover_esu .., arrives.course.map, arrives.course.width, arrives.attempts, Local.enterHandover_counters ..,
      Local.enterHandover_qualify .., fun m => Local.transition_counts (stages_handover g).kept.lanes, Local.enterHandover_kept ..,
      fun yes => absurd yes step, fun _ => ⟨arrives.state, arrives.stageTimer, Local.enterHandover_handover .., Local.enterHandover_told⟩⟩

/-! ### The outcome of a window (R143) -/

theorem Port.qualOutcome_pass (h : ∀ e ∈ es, e.verdict = .pass) : x.qualOutcome es = .handover := by
  rw [Port.qualOutcome, if_pos (List.all_eq_true.2 fun e he => decide_eq_true (h e he))]

theorem Port.mayHalve_iff (x : Port) : x.mayHalve = true ↔ x.width = some .full ∧ ∃ n, x.snapshot = some n ∧ n.entry.width = .halfOk := by
  rw [Port.mayHalve]
  cases x.snapshot <;> simp

theorem Port.qualOutcome_half (failed : ∃ e ∈ es, e.verdict = .fail) (half : x.mayHalve = true)
    (spared : ∀ e ∈ es, e.verdict = .fail → (if x.L = 4 then 2 else 4) ≤ e.logical.val) : x.qualOutcome es = .halfHandover := by
  obtain ⟨e, he, fail⟩ := failed
  have saves : (x.mayHalve && es.all fun e => decide (e.verdict ≠ .fail) || decide (x.L / 2 ≤ e.logical.val)) = true := by
    rw [half, Bool.true_and, List.all_eq_true]
    intro e he
    by_cases fail : e.verdict = .fail
    · have high : x.L / 2 ≤ e.logical.val := by rw [x.half_eq]; exact spared e he fail
      rw [decide_eq_true high, Bool.or_true]
    · rw [decide_eq_true fail, Bool.true_or]
  rw [Port.qualOutcome, if_neg, if_pos saves]
  exact fun all => by
    have := of_decide_eq_true (List.all_eq_true.1 all e he)
    rw [fail] at this
    cases this

theorem Port.qualOutcome_fail (failed : ∃ e ∈ es, e.verdict = .fail)
    (lost : ¬(x.mayHalve = true ∧ ∀ e ∈ es, e.verdict = .fail → (if x.L = 4 then 2 else 4) ≤ e.logical.val)) :
    x.qualOutcome es = .failedAttempt := by
  obtain ⟨e, he, fail⟩ := failed
  rw [Port.qualOutcome, if_neg, if_neg]
  · intro both
    obtain ⟨half, all⟩ := Bool.and_eq_true_iff.1 both
    refine lost ⟨half, fun d hd dfail => ?_⟩
    have := List.all_eq_true.1 all d hd
    rw [dfail] at this
    rw [← x.half_eq]
    simpa using this
  · exact fun all => by
      have := of_decide_eq_true (List.all_eq_true.1 all e he)
      rw [fail] at this
      cases this

/-! ### A block in the record (R137 to R142) -/

/-- The record with the entry of one position replaced, its place in the record known. -/
theorem QualRecord.setEntry_eq {pre post : List QualEntry} (entries : q.entries = pre ++ e :: post) (pos : e.pos = l)
    (others : ∀ d ∈ pre ++ post, d.pos ≠ l) (d : QualEntry) : q.setEntry l d = { q with entries := pre ++ d :: post } := by
  have kept : ∀ es : List QualEntry, (∀ o ∈ es, o.pos ≠ l) → es.map (fun o => if o.pos = l then d else o) = es := fun es other => by
    rw [List.map_congr_left fun o ho => if_neg (other o ho), List.map_id']
  rw [QualRecord.setEntry, entries, List.map_append, List.map_cons, if_pos pos, kept pre fun o ho => others o (by simp [ho]),
    kept post fun o ho => others o (by simp [ho])]

theorem find?_entry {pre post : List QualEntry} (entries : es = pre ++ e :: post) (pos : e.pos = l)
    (others : ∀ d ∈ pre ++ post, d.pos ≠ l) : es.find? (fun o => decide (o.pos = l)) = some e := by
  rw [entries, List.find?_append, List.find?_eq_none.2 fun o ho => by simpa using others o (by simp [ho]), Option.none_or,
    List.find?_cons_of_pos (by simpa using pos)]

/-- An entry with one more block of some errors, judged at once (R137 to R139, R141). -/
def QualEntry.blockTaken (e : QualEntry) (n : PlanEntry) (errors : Nat) : QualEntry :=
  (e.addBlock errors).earlyFail (earlyCeiling n.grade n.window)

theorem QualEntry.blockTaken_eq (pending : e.verdict = .pending) (errors : Nat) : e.blockTaken n errors =
    { e with blocks := e.blocks + 1, errors := min (2 ^ 32 - 1) (e.errors + errors)
             grade := some (q2Grade (e.blocks + 1) (min (2 ^ 32 - 1) (e.errors + errors)))
             bound := decide (min (2 ^ 32 - 1) (e.errors + errors) = 0)
             verdict := if earlyCeiling n.grade n.window < min (2 ^ 32 - 1) (e.errors + errors) then .fail else .pending } := by
  rw [QualEntry.blockTaken, QualEntry.earlyFail]
  show (if earlyCeiling n.grade n.window < min (2 ^ 32 - 1) (e.errors + errors) then _ else _) = _
  split
  · rfl
  · rw [QualEntry.addBlock]
    rw [← pending]
    rfl

theorem State.put_qualifyBlock {snap : Snapshot} {pre post : List QualEntry} (snapshot : k.port.snapshot = some snap)
    (record : k.port.qualify = some q) (entries : q.entries = pre ++ e :: post) (pos : e.pos = l)
    (others : ∀ d ∈ pre ++ post, d.pos ≠ l) (errors : Nat) : (s.put p k).qualifyBlock p l errors =
      if e.counting snap.entry.window then (s.put p k).afterBlock p snap.entry
        { q with entries := pre ++ e.blockTaken snap.entry errors :: post } (e.blockTaken snap.entry errors)
      else s.put p k := by
  unfold State.qualifyBlock
  simp only [State.put_port, snapshot, record, find?_entry entries pos others]
  rw [← QualRecord.setEntry_eq entries pos others]
  rfl

/-- The port's record with a qualify record written. -/
def Local.setQualify (k : Local) (q : QualRecord) : Local := k.modPort (·.setQualify q)

theorem Port.decides_iff {snap : Snapshot} (snapshot : x.snapshot = some snap) (e : QualEntry) : x.decides e = true ↔
    e.logical.val < (if x.L = 4 then 2 else 4) ∨ x.width = some .half ∨ snap.entry.width = .fullOnly := by
  rw [Port.decides, snapshot, ← x.half_eq]
  simp [or_assoc]

theorem State.put_afterBlock_decides (fail : d.verdict = .fail) (decides : k.port.decides d = true) :
    (s.put p k).afterBlock p n q d = (s.put p (k.setQualify q)).endWindow p n q (some (d.pos, d.logical)) := by
  rw [State.afterBlock, State.put_port, if_pos ⟨fail, decides⟩, State.put_modPort]
  rfl

theorem State.put_afterBlock_ends (on : ¬(d.verdict = .fail ∧ k.port.decides d = true))
    (closed : ∀ e ∈ q.entries, n.window ≤ e.blocks ∨ e.verdict = .fail) :
    (s.put p k).afterBlock p n q d = (s.put p (k.setQualify (q.judge n.grade))).endWindow p n (q.judge n.grade) none := by
  have all : (q.entries.all (·.closed n.window)) = true := List.all_eq_true.2 fun e he => decide_eq_true (closed e he)
  rw [State.afterBlock, State.put_port, if_neg on, if_pos all, State.put_modPort]
  rfl

theorem State.put_afterBlock_goes_on (on : ¬(d.verdict = .fail ∧ k.port.decides d = true))
    (unfinished : ∃ e ∈ q.entries, ¬(n.window ≤ e.blocks ∨ e.verdict = .fail)) :
    (s.put p k).afterBlock p n q d = s.put p (k.setQualify q) := by
  obtain ⟨e, he, unfinished⟩ := unfinished
  have not : ¬(q.entries.all (·.closed n.window)) = true := fun all => unfinished (of_decide_eq_true (List.all_eq_true.1 all e he))
  rw [State.afterBlock, State.put_port, if_neg on, if_neg not, State.put_modPort]
  rfl

/-- The report of a window's end (R145). -/
def Local.windowDone (k : Local) (p : PortIx) (n : PlanEntry) (es : List QualEntry) (deciding : Option (LanePos × LanePos)) : Local :=
  k.tell (portReports p [.qualifyDone deciding n.grade n.window (earlyCeiling n.grade n.window) k.port.cycle k.port.attempts es
    (k.port.qualOutcome es)])

theorem State.put_endWindow (s : State) (p : PortIx) (k : Local) (n : PlanEntry) (q : QualRecord) (deciding : Option (LanePos × LanePos)) :
    (s.put p k).endWindow p n q deciding = (s.put p (k.windowDone p n q.entries deciding)).takeOutcome p (k.port.qualOutcome q.entries) := by
  rw [State.endWindow]
  simp only [State.put_port, State.put_postPort]
  rfl

theorem State.put_takeOutcome_handover (s : State) (p : PortIx) (k : Local) :
    (s.put p k).takeOutcome p .handover = s.put p (k.toHandover p s.settings) := State.put_toHandover s p k

theorem State.put_takeOutcome_half (s : State) (p : PortIx) (k : Local) :
    (s.put p k).takeOutcome p .halfHandover = s.put p ((k.reduceWidth p .qualify).toHandover p s.settings) := by
  show ((s.put p k).reduceWidth p .qualify).toHandover p = _
  rw [State.put_reduceWidth, State.put_toHandover]

end Sys2Proof.Machine
end

section
/-! SUPPORT. Test blocks (R22, R23, R24, R27, R32, R137): one begun by its sender, and one that has been checked. -/

namespace Sys2Proof.Machine

variable {s t u : State} {p : PortIx} {k j : Local} {l m : LanePos} {x : Port} {y : Lane} {start : BlockStart} {searching : Bool}
  {correction : Option Polarity} {errors : Nat} {f : Lane → Lane}

/-! ### Sending -/

theorem Port.checkCorrection_of_near (near : x.nearEnd l = true) : x.checkCorrection l =
    (x.lane l).control.invert.apply (((x.lane l).rx.lastStable.map Identity.polarity).getD .normal) := by
  refine Port.checkCorrection_of_manual ?_
  by_contra other
  rw [Port.nearEnd_of_not_manual other] at near
  cases near

/-- What a block under way does to the checker of a near-end loopback: the block in hand begins with it where it stood between two. -/
theorem Checker.looped_eq (c : Checker) (lock : PatternLock) (pol : Polarity) : c.looped lock pol = match c with
    | .block .between _ _ => .block .loop (decide (lock = .searching)) (some pol)
    | c => c := by
  cases c with
  | off => rfl
  | waiting => rfl
  | block st b o => cases st <;> rfl

theorem exec_testBlockTransmit_eq (content : (s.port p).content l = .prbs)
    (same : (s.port p).blockBegun l = (s.port p).modLane l f) :
    exec (.testBlockTransmit p l) s = .next (s.modLane p l f).settled := by
  show execTestBlockTransmit p l s = _
  rw [execTestBlockTransmit, if_pos content]
  have begun : s.opened.modPort p (·.blockBegun l) = s.opened.modLane p l f := congrArg (s.opened.setPort p) same
  rw [begun]
  exact State.done_of_none rfl

/-! ### Checking -/

theorem exec_testBlockEnd_eq (counts : (s.port p).counts l = true) (block : (s.lane p l).checker = .block start searching correction)
    (line : Fin 1048577) {used : State} (uses : (if blockIsSplit searching correction then s.opened.useFree else s.opened) = used.opened)
    (errs : s.blockErrors p l start searching correction line.val = errors) :
    exec (.testBlockEnd p l line) s = ((used.put p (used.held p)).countBlock p l errors).done := by
  show execTestBlockEnd p l line s = _
  rw [execTestBlockEnd, counts, block]
  simp only [uses, errs, State.opened_eq_put used p]

/-- One port with a block counted on a lane (R23, R161). -/
def Local.blockCounted (k : Local) (p : PortIx) (l : LanePos) (errors : Nat) : Local :=
  ((k.modPort (·.nextBlock l)).countLane p l ctrPrbsErr errors).countLane p l ctrPrbsBlocks 1

theorem State.put_countBlock (s : State) (p : PortIx) (k : Local) (l : LanePos) (errors : Nat) : (s.put p k).countBlock p l errors =
    if k.port.windowBegun then (s.put p (k.blockCounted p l errors)).qualifyBlock p l errors else s.put p (k.blockCounted p l errors) := by
  rw [State.countBlock]
  simp only [State.put_port, State.put_modPort, State.put_countLane]
  rfl

/-- What a counted block leaves of its port. -/
structure Local.Counts (k j : Local) (l : LanePos) (errors : Nat) : Prop where
  record : { j.port with lanes := k.port.lanes } = k.port
  others : ∀ m, m ≠ l → j.port.lane m = k.port.lane m
  lane : { j.port.lane l with counters := (k.port.lane l).counters, checker := (k.port.lane l).checker
                              block := (k.port.lane l).block } = k.port.lane l
  counters : (j.port.lane l).counters =
    ((k.port.lane l).counters.set ctrPrbsErr ((k.port.lane l).counters[ctrPrbsErr].bump 4294967295 errors)).set ctrPrbsBlocks
      ((k.port.lane l).counters[ctrPrbsBlocks].bump 4294967295 1)
  esu : j.esu = k.esu
  told : j.told = k.told
  kept : (k.port.lane l).counters[ctrPrbsErr].saturates 4294967295 errors = false →
    (k.port.lane l).counters[ctrPrbsBlocks].saturates 4294967295 1 = false → j.kept = k.kept

/-- A lane with the counters of a counted block. -/
def Lane.blockBumped (y : Lane) (errors : Nat) : Lane := (y.bumped ctrPrbsErr errors).bumped ctrPrbsBlocks 1

theorem Lane.blocks_after_errors (y : Lane) (errors : Nat) :
    (y.bumped ctrPrbsErr errors).counters[ctrPrbsBlocks] = y.counters[ctrPrbsBlocks] :=
  Vector.getElem_set_ne ctrPrbsErr.isLt ctrPrbsBlocks.isLt (by decide)

theorem Lane.blockBumped_counters (y : Lane) (errors : Nat) : (y.blockBumped errors).counters =
    (y.counters.set ctrPrbsErr (y.counters[ctrPrbsErr].bump 4294967295 errors)).set ctrPrbsBlocks
      (y.counters[ctrPrbsBlocks].bump 4294967295 1) := by
  show ((y.bumped ctrPrbsErr errors).counters.set ctrPrbsBlocks ((y.bumped ctrPrbsErr errors).counters[ctrPrbsBlocks].bump _ 1)) = _
  rw [Lane.blocks_after_errors]
  rfl

/-- The lane once its block has been counted (R22, R23, R24). -/
def Port.nextLane (x : Port) (l : LanePos) (y : Lane) : Lane :=
  { y with checker := y.checker.nextBlock (x.nearEnd l) (x.content l) (x.lock l) (x.checkCorrection l)
           block := if x.nearEnd l then none else y.block }

theorem Local.blockCounted_port (k : Local) (p : PortIx) (l : LanePos) (errors : Nat) :
    (k.blockCounted p l errors).port = k.port.modLane l fun y => (k.port.nextLane l y).blockBumped errors := by
  show ((k.port.modLane l (k.port.nextLane l)).modLane l (·.bumped ctrPrbsErr errors)).modLane l (·.bumped ctrPrbsBlocks 1) = _
  rw [Port.modLane_modLane, Port.modLane_modLane]
  rfl

theorem Local.blockCounted_lane (k : Local) (p : PortIx) (l : LanePos) (errors : Nat) :
    (k.blockCounted p l errors).port.lane l = (k.port.nextLane l (k.port.lane l)).blockBumped errors := by
  rw [Local.blockCounted_port, Port.lane_modLane_self]

theorem Local.blockCounted_counts (k : Local) (p : PortIx) (l : LanePos) (errors : Nat) :
    k.Counts (k.blockCounted p l errors) l errors where
  record := by rw [Local.blockCounted_port]; rfl
  others m other := by rw [Local.blockCounted_port]; exact Port.lane_modLane_of_ne _ _ other
  lane := by rw [Local.blockCounted_lane]; rfl
  counters := by rw [Local.blockCounted_lane]; exact Lane.blockBumped_counters _ errors
  esu := rfl
  told := rfl
  kept below blocks := by
    have first : ((k.modPort (·.nextBlock l)).port.lane l).saturation p l ctrPrbsErr errors = [] := by
      rw [show (k.modPort (·.nextBlock l)).port.lane l = k.port.nextLane l (k.port.lane l) from Port.lane_modLane_self ..]
      exact Lane.saturation_of_not below
    have second : (((k.modPort (·.nextBlock l)).countLane p l ctrPrbsErr errors).port.lane l).saturation p l ctrPrbsBlocks 1 = [] := by
      have lane : ((k.modPort (·.nextBlock l)).countLane p l ctrPrbsErr errors).port.lane l =
          (k.port.nextLane l (k.port.lane l)).bumped ctrPrbsErr errors := by
        show ((k.port.modLane l (k.port.nextLane l)).modLane l (·.bumped ctrPrbsErr errors)).lane l = _
        rw [Port.lane_modLane_self, Port.lane_modLane_self]
      rw [lane]
      refine Lane.saturation_of_not ?_
      rw [Lane.blocks_after_errors]
      exact blocks
    show (k.kept ++ _) ++ _ = k.kept
    rw [first, second, List.append_nil, List.append_nil]

namespace Local.Counts

variable (h : k.Counts j l errors)
include h

theorem field {α : Type} (f : Port → α) : f { j.port with lanes := k.port.lanes } = f k.port := congrArg f h.record

theorem state : j.port.state = k.port.state := h.field Port.state

/-- What a counted block does not write holds of every lane as it did. -/
theorem all {P : LanePos → Lane → Prop} (free : ∀ (y z : Lane), { z with counters := y.counters, checker := y.checker, block := y.block } = y →
    P l y → P l z) (held : ∀ m, P m (k.port.lane m)) (m : LanePos) : P m (j.port.lane m) := by
  by_cases same : m = l
  · rw [same]; exact free _ _ h.lane (held l)
  · rw [h.others m same]; exact held m

theorem still (still : k.port.Still) : j.port.Still :=
  h.all (P := fun _ y => y.autoLoop = false) (fun y z same off => by rw [← same] at off; exact off) still

theorem unasked (unasked : k.port.Unasked) : j.port.Unasked :=
  h.all (P := fun _ y => y.rx.loopSeen = false) (fun y z same off => by rw [← same] at off; exact off) unasked

theorem course : k.port.keepsCourse j.port :=
  ⟨h.field Port.mode, h.field Port.snapshot, h.field Port.neighbour, h.field Port.verdict, h.field Port.accepted, h.field Port.map,
    h.field Port.mapClass, h.field Port.width, h.field Port.unstable⟩

end Local.Counts

/-- Where the block after a counted one begins (R22; log entry 33). -/
theorem BlockStart.placed_next_eq (start : BlockStart) (searching near : Bool) (content : Content) :
    (start.next searching).placed near content = match start with
      | .loop => if near = true ∧ content = .pattern then .astride else .between
      | .astride => .astride
      | _ => if searching = true ∨ near = true ∧ content = .pattern then .astride else .between := by
  cases start with
  | loop => rfl
  | astride => rfl
  | between => cases searching <;> simp [BlockStart.next, BlockStart.placed]
  | line => cases searching <;> simp [BlockStart.next, BlockStart.placed]

theorem Port.rawDifferences_eq (x : Port) (l : LanePos) (start : BlockStart) (line : Nat) : x.rawDifferences l start line =
    if x.nearEnd l = true ∧ start = .loop then (match (x.lane l).block with
      | some flipped => if flipped then 1 else 0
      | none => line) else line := by
  unfold Port.rawDifferences
  cases x.nearEnd l with
  | false => rfl
  | true =>
    cases start with
    | loop =>
      cases (x.lane l).block with
      | none => rfl
      | some flipped => cases flipped <;> rfl
    | _ => rfl

end Sys2Proof.Machine
end

section
/-! SUPPORT. Test blocks: the statement (R22, R23, R24, R137, R141 to R145). -/

namespace Sys2Proof.Machine

variable {s t u v : State} {p : PortIx} {k j : Local} {l m : LanePos} {x : Port} {y : Lane} {errors : Nat} {g : Settings}
  {q : QualRecord} {n : PlanEntry} {i : Instr} {r : FaultReason} {deciding : Option (LanePos × LanePos)} {z : PortState}

/-! ### The reports of a failed attempt -/

theorem Local.failedAttempt_told_paused (early : k.port.attempts < 2) (step : k.port.mode = .step) (still : k.port.Still) :
    (k.failedAttempt p g r).told = k.told ++ portReports p [.stagePause .awaitSlot,
      .portState k.port.state .paused (some .awaitSlot) none k.port.cycle (k.port.attempts + 1)] ∧
    (k.failedAttempt p g r).kept = k.kept := by
  have still' : k.tried.port.Still := still
  rw [Local.failedAttempt_of_early (Nat.not_le.2 early),
    Local.toAwaitSlot_of_step (k := k.tried) step, Local.enterPaused_told still',
    Local.enterPaused_kept]
  exact ⟨rfl, rfl⟩

theorem Local.failedAttempt_told_faulted (third : 2 ≤ k.port.attempts) (still : k.port.Still) (unasked : k.port.Unasked)
    (below : k.port.counters[ctrFaults].saturates 65535 1 = false) :
    (k.failedAttempt p g r).told = k.told ++ portReports p [.portFault r k.port.state k.port.neighbour,
      .portState k.port.state .faulted none (some r) k.port.cycle (k.port.attempts + 1)] ∧
    (k.failedAttempt p g r).kept = k.kept := by
  have still' : k.tried.port.Still := still
  have unasked' : k.tried.port.Unasked := unasked
  rw [Local.failedAttempt_of_third third, Local.enterFaulted_told still' unasked', Local.enterFaulted_kept k.tried p g r below]
  exact ⟨rfl, rfl⟩

/-! ### A window that ends -/

/-- A command that ends in what one port's operations change of a state, its own start or one that differs from it. -/
theorem became_of_put (runs : exec i s = u.done) (ends : u = v.put p k) : ∃ t, exec i s = .next t ∧ Became p v k t := by
  rw [runs, ends]
  exact State.put_done v p k

section Window

variable (took : (v.held p).Counts j l errors)
include took

/-- The port of a window that has ended, its entries given. -/
theorem Local.Counts.carries (q : QualRecord) (deciding : Option (LanePos × LanePos)) :
    ((j.setQualify q).windowDone p n q.entries deciding).Carries v p :=
  ⟨took.course.trans ⟨rfl, rfl, rfl, rfl, rfl, rfl, rfl, rfl, rfl⟩, took.field Port.attempts, took.field Port.cycle, took.field Port.counters,
    took.esu⟩

variable (state : (v.port p).state = .qualify)
include state

/-- A window that ends in a failed attempt (R141, R143, R145). -/
theorem Local.Counts.fails (runs : exec i s = ((v.put p (j.setQualify q)).endWindow p n q deciding).done)
    (outcome : (j.setQualify q).port.qualOutcome q.entries = .failedAttempt)
    (room : (v.port p).mode = .step ∨ 2 ≤ (v.port p).attempts ∨ v.noGrant) :
    ∃ t, exec i s = .next t ∧ OnlyPort p v t ∧ (t.lane p l).counters = (j.port.lane l).counters ∧ FailedAttempt p .qualifyFail v t ∧
      (t.port p).qualify = some { begun := false, entries := q.entries } ∧
      (((v.port p).attempts < 2 → (v.port p).mode = .step → (v.port p).Still → j.kept = [] → t.reports = v.reports.enterAll v.time.clock
        (portReports p [.qualifyDone deciding n.grade n.window (earlyCeiling n.grade n.window) (v.port p).cycle (v.port p).attempts
          q.entries .failedAttempt, .stagePause .awaitSlot,
          .portState .qualify .paused (some .awaitSlot) none (v.port p).cycle ((v.port p).attempts + 1)])) ∧
      (2 ≤ (v.port p).attempts → (v.port p).counters[ctrFaults].saturates 65535 1 = false → (v.port p).Still → (v.port p).Unasked →
        j.kept = [] → t.reports = v.reports.enterAll v.time.clock
        (portReports p [.qualifyDone deciding n.grade n.window (earlyCeiling n.grade n.window) (v.port p).cycle (v.port p).attempts
          q.entries .failedAttempt, .portFault .qualifyFail .qualify (v.port p).neighbour,
          .portState .qualify .faulted none (some .qualifyFail) (v.port p).cycle ((v.port p).attempts + 1)]))) := by
  have carries := took.carries (n := n) q deciding
  have told : ((j.setQualify q).windowDone p n q.entries deciding).told = portReports p [.qualifyDone deciding n.grade n.window
      (earlyCeiling n.grade n.window) (v.port p).cycle (v.port p).attempts q.entries .failedAttempt] := by
    show j.told ++ portReports p [.qualifyDone _ _ _ _ j.port.cycle j.port.attempts _ _] = _
    rw [took.told, outcome, show j.port.cycle = (v.port p).cycle from took.field Port.cycle,
      show j.port.attempts = (v.port p).attempts from took.field Port.attempts]
    rfl
  have kept : ((j.setQualify q).windowDone p n q.entries deciding).kept = j.kept := rfl
  have written : ((j.setQualify q).windowDone p n q.entries deciding).port.qualify = some q := rfl
  have state' : ((j.setQualify q).windowDone p n q.entries deciding).port.state = .qualify := took.state.trans state
  have still : (v.port p).Still → ((j.setQualify q).windowDone p n q.entries deciding).port.Still := took.still
  have unasked : (v.port p).Unasked → ((j.setQualify q).windowDone p n q.entries deciding).port.Unasked := took.unasked
  have line : ∀ m, ((j.setQualify q).windowDone p n q.entries deciding).port.lane m = j.port.lane m := fun _ => rfl
  rw [State.put_endWindow, outcome] at runs
  generalize (j.setQualify q).windowDone p n q.entries deciding = w at *
  have tune : w.port.state ≠ .tune := by rw [state']; decide
  have await : w.port.state ≠ .awaitSlot := by rw [state']; decide
  obtain ⟨t, runs, became⟩ := became_of_put runs (State.put_failedAttempt_rests .qualifyFail carries tune await room)
  refine ⟨t, runs, became.toOnlyPort, ?_, Local.failedAttempt_failed carries tune await became.port became.esu, ?_,
    fun early step quiet none_kept => ?_, fun third below quiet asked none_kept => ?_⟩
  · rw [became.lane, Local.failedAttempt_counts, line]
  · rw [became.port, Local.failedAttempt_qualify, written]
    rfl
  · obtain ⟨spoken, keeps⟩ := Local.failedAttempt_told_paused (p := p) (g := v.settings) (r := .qualifyFail)
      (by rw [carries.attempts]; exact early) (carries.course.mode.trans step) (still quiet)
    rw [became.reports, spoken, keeps, told, kept, none_kept, List.append_nil, state', carries.attempts, carries.cycle]
    rfl
  · obtain ⟨spoken, keeps⟩ := Local.failedAttempt_told_faulted (p := p) (g := v.settings) (r := .qualifyFail)
      (by rw [carries.attempts]; exact third) (still quiet) (unasked asked) (by rw [carries.counters]; exact below)
    rw [became.reports, spoken, keeps, told, kept, none_kept, List.append_nil, state', carries.attempts, carries.cycle,
      carries.course.neighbour]
    rfl

end Window

/-- A port whose window has ended and which goes on (R143, R145): what it holds before HANDOVER. -/
structure Local.Passing (j w : Local) (x : Port) (q : QualRecord) (ds : List Detail) (p : PortIx) : Prop where
  state : w.port.state = .qualify
  mode : w.port.mode = x.mode
  cycle : w.port.cycle = x.cycle
  attempts : w.port.attempts = x.attempts
  counters : w.port.counters = x.counters
  esu : w.esu = j.esu
  lanes : ∀ m, (w.port.lane m).counters = (j.port.lane m).counters
  qualify : w.port.qualify = some q
  told : w.told = portReports p ds
  kept : w.kept = j.kept
  still : x.Still → w.port.Still

/-- The report of a window's end. -/
def qualDetail (x : Port) (n : PlanEntry) (es : List QualEntry) (deciding : Option (LanePos × LanePos)) (out : QualOutcome) : Detail :=
  .qualifyDone deciding n.grade n.window (earlyCeiling n.grade n.window) x.cycle x.attempts es out

theorem Local.Counts.passing (took : (v.held p).Counts j l errors) (state : (v.port p).state = .qualify) :
    j.Passing ((j.setQualify q).windowDone p n q.entries deciding) (v.port p) q
      [qualDetail (v.port p) n q.entries deciding ((j.setQualify q).port.qualOutcome q.entries)] p where
  state := took.state.trans state
  mode := took.field Port.mode
  cycle := took.field Port.cycle
  attempts := took.field Port.attempts
  counters := took.field Port.counters
  esu := rfl
  lanes _ := rfl
  qualify := rfl
  told := by
    show j.told ++ portReports p [.qualifyDone _ _ _ _ j.port.cycle j.port.attempts _ _] = _
    rw [took.told, show j.port.cycle = (v.port p).cycle from took.field Port.cycle,
      show j.port.attempts = (v.port p).attempts from took.field Port.attempts]
    rfl
  kept := rfl
  still := took.still

/-- A width reduction keeps a port on its way (R144). -/
theorem Local.Passing.halved {w : Local} {ds : List Detail} (h : j.Passing w x q ds p) :
    j.Passing (w.reduceWidth p .qualify) x q (ds ++ [.widthReduced .qualify w.port.dropped]) p where
  state := h.state
  mode := h.mode
  cycle := h.cycle
  attempts := h.attempts
  counters := h.counters
  esu := h.esu
  lanes m := by
    obtain ⟨_, _, _, lane⟩ := w.reduceWidth_lane p .qualify m
    rw [lane]
    exact h.lanes m
  qualify := h.qualify
  told := by
    show w.told ++ portReports p [.widthReduced .qualify w.port.dropped] = _
    rw [h.told, portReports, portReports, portReports, List.map_append]
  kept := h.kept
  still still := Local.reduceWidth_still (h.still still)

/-- The end of a window that goes on to HANDOVER (R83, R92, R143). -/
theorem Local.Passing.passes {w : Local} {ds : List Detail} (h : j.Passing w (v.port p) q ds p) (esu : j.esu = v.esu)
    (runs : exec i s = (v.put p (w.toHandover p v.settings)).done) :
    ∃ t, exec i s = .next t ∧ OnlyPort p v t ∧ (t.lane p l).counters = (j.port.lane l).counters ∧ t.esu = v.esu ∧
      (t.port p).map = w.port.map ∧ (t.port p).width = w.port.width ∧ (t.port p).attempts = (v.port p).attempts ∧
      (t.port p).counters = (v.port p).counters ∧ (t.port p).qualify = some { begun := false, entries := q.entries } ∧
      ((v.port p).mode = .step → (t.port p).state = .paused ∧ (t.port p).pending = some .handover ∧
        ((v.port p).Still → j.kept = [] → t.reports = v.reports.enterAll v.time.clock (portReports p
          (ds ++ [.stagePause .handover, .portState .qualify .paused (some .handover) none (v.port p).cycle (v.port p).attempts])))) ∧
      ((v.port p).mode ≠ .step → (t.port p).state = .handover ∧ (t.port p).stageTimer = secondsTimer v.settings.farEndWait ∧
        (t.port p).handover = some (HandRecord.mk false
          ({ v.port p with map := w.port.map }.mappedLanes.map fun k => { pos := k, readyRun := 0, sent := 0 })) ∧
        ((v.port p).Still → j.kept = [] → t.reports = v.reports.enterAll v.time.clock (portReports p
          (ds ++ [.portState .qualify .handover none none (v.port p).cycle (v.port p).attempts])))) := by
  obtain ⟨t, runs, became⟩ := became_of_put runs rfl
  have goes := w.toHandover_passes p v.settings
  have tune : w.port.state ≠ .tune := by rw [h.state]; decide
  have await : w.port.state ≠ .awaitSlot := by rw [h.state]; decide
  have reports : ∀ es : List Detail, (w.toHandover p v.settings).told = w.told ++ portReports p es → j.kept = [] →
      t.reports = v.reports.enterAll v.time.clock (portReports p (ds ++ es)) := fun es spoken none_kept => by
    rw [became.reports, spoken, goes.kept, h.kept, none_kept, h.told, List.append_nil, portReports, portReports, portReports,
      List.map_append]
  refine ⟨t, runs, became.toOnlyPort, ?_, ?_, ?_, ?_, ?_, ?_, ?_, fun step => ?_, fun auto => ?_⟩
  · rw [became.lane, goes.counts, h.lanes]
  · rw [became.esu, goes.esu, Local.undoneEsu_of_ne tune await, h.esu, esu]
  · rw [became.port, goes.map]
  · rw [became.port, goes.width]
  · rw [became.port, goes.attempts, h.attempts]
  · rw [became.port, goes.counters, h.counters]
  · rw [became.port, goes.qualify, h.qualify]
    rfl
  · obtain ⟨state, pending, told⟩ := goes.paused (h.mode.trans step)
    refine ⟨by rw [became.port, state], by rw [became.port, pending], fun still none_kept => reports _ ?_ none_kept⟩
    rw [told (h.still still), h.state, h.cycle, h.attempts]
  · obtain ⟨state, timer, record, told⟩ := goes.entered (by rw [h.mode]; exact auto)
    refine ⟨by rw [became.port, state], by rw [became.port, timer], ?_, fun still none_kept => reports _ ?_ none_kept⟩
    · rw [became.port, record]
      rfl
    · rw [told (h.still still), h.state, h.cycle, h.attempts]

end Sys2Proof.Machine
end

section
/-! SUPPORT. Test blocks: the statement settled. -/

namespace Sys2Proof.Machine

variable {s t u v : State} {p : PortIx} {k j : Local} {l m : LanePos} {x : Port} {errors raw : Nat} {q : QualRecord} {n : PlanEntry} {n' : Snapshot}
  {e : QualEntry} {start : BlockStart} {searching : Bool} {correction : Option Polarity} {es pre post : List QualEntry}

/-! ### Sending -/

/-- The checker of a lane that sends a block. -/
def Port.begunChecker (x : Port) (l : LanePos) : Checker :=
  if x.nearEnd l then (x.lane l).checker.looped (x.lock l) (x.checkCorrection l) else (x.lane l).checker

theorem exec_testBlockTransmit_of_prbs (content : (s.port p).content l = .prbs) {f : Lane → Lane}
    (same : f (s.lane p l) = { (s.lane p l).spend .prbsErrors with
      gen := (s.lane p l).gen.map nextPlace, block := some ((s.lane p l).injects .prbsErrors), checker := (s.port p).begunChecker l }) :
    exec (.testBlockTransmit p l) s = .next (s.modLane p l f).settled := by
  rw [exec_testBlockTransmit_eq content rfl]
  exact congrArg (fun u : State => Host.Outcome.next u.settled) (State.modLane_congr same.symm)

/-! ### What a block comes to -/

/-- The state in which a counted block is dealt with: an astride block has drawn its free value (log entry 28). -/
def State.drawn (s : State) (searching : Bool) (correction : Option Polarity) : State :=
  { s with freeIx := if searching = false ∧ correction = none then s.freeIx + 1 else s.freeIx }

theorem State.drawn_uses (s : State) (searching : Bool) (correction : Option Polarity) :
    (if blockIsSplit searching correction then s.opened.useFree else s.opened) = (s.drawn searching correction).opened := by
  cases searching with
  | true => rfl
  | false => cases correction <;> rfl

theorem State.blockErrors_eq {near : Nat} (taken : raw = (s.port p).rawDifferences l start near)
    (sum : errors = if searching then 2 ^ 19 else match correction with
      | some .normal => raw
      | some .inverted => 2 ^ 20 - raw
      | none => Config.splitBlock s.freeIx % (2 ^ 20 + 1)) :
    s.blockErrors p l start searching correction near = errors := by
  unfold State.blockErrors
  rw [sum, ← taken]
  cases searching with
  | true => rfl
  | false =>
    cases correction with
    | none => rfl
    | some c => cases c <;> rfl

theorem QualEntry.judge_eq (e : QualEntry) (grade : Nat) : e.judge grade = if e.verdict = .pending then
    { e with verdict := if (∃ g, e.grade = some g ∧ grade ≤ g) then .pass else .fail } else e := by
  rw [QualEntry.judge]
  cases found : e.grade <;> simp

/-- A window that one lane's failure decides has failed (R141, R143). -/
theorem Port.qualOutcome_decided (snapshot : x.snapshot = some n') (member : e ∈ es) (fail : e.verdict = .fail)
    (decides : x.decides e = true) : x.qualOutcome es = .failedAttempt := by
  refine Port.qualOutcome_fail ⟨e, member, fail⟩ ?_
  rintro ⟨half, spared⟩
  obtain ⟨full, _, same, ok⟩ := x.mayHalve_iff.1 half
  cases snapshot.symm.trans same
  rcases (Port.decides_iff snapshot e).1 decides with low | narrow | policy
  · exact absurd (spared e member fail) (Nat.not_le.2 low)
  · cases full.symm.trans narrow
  · cases ok.symm.trans policy

/-! ### A block that ends -/

section BlockEnd

variable {line : Fin 1048577} (block : (s.lane p l).checker = .block start searching correction)
  (errs : s.blockErrors p l start searching correction line.val = errors)
include block errs

theorem exec_testBlockEnd_of_manual (state : (s.port p).state = .manual) (checks : (s.lane p l).control.checkPrbs = true) :
    exec (.testBlockEnd p l line) s =
      ((s.drawn searching correction).put p (((s.drawn searching correction).held p).blockCounted p l errors)).done := by
  have idle : (s.port p).windowBegun = false := by rw [Port.windowBegun, state]; rfl
  have counts : (s.port p).counts l = true := by
    rw [Port.counts, idle, state, show ((s.port p).lane l).control.checkPrbs = true from checks]
    rfl
  rw [exec_testBlockEnd_eq counts block line (s.drawn_uses searching correction) errs, State.put_countBlock,
    if_neg (Bool.eq_false_iff.1 (show ((s.drawn searching correction).held p).port.windowBegun = false from idle))]

theorem exec_testBlockEnd_of_window (state : (s.port p).state = .qualify) (mapped : (s.port p).map[l].logical ≠ none)
    (record : (s.port p).qualify = some q) (begun : q.begun = true) : exec (.testBlockEnd p l line) s =
      (((s.drawn searching correction).put p (((s.drawn searching correction).held p).blockCounted p l errors)).qualifyBlock
        p l errors).done := by
  have unclosed : (s.port p).windowBegun = true := by rw [Port.windowBegun, state, record]; exact begun
  have counts : (s.port p).counts l = true := by
    rw [Port.counts, unclosed, Port.mapped, Option.isSome_iff_ne_none.2 mapped]
    rfl
  rw [exec_testBlockEnd_eq counts block line (s.drawn_uses searching correction) errs, State.put_countBlock,
    if_pos (show ((s.drawn searching correction).held p).port.windowBegun = true from unclosed)]

end BlockEnd

theorem blockCounted_nextChecker (state : (s.port p).state = .manual) (block : (s.lane p l).checker = .block start searching correction) :
    (((s.held p).blockCounted p l errors).port.lane l).checker = .block
      ((start.next searching).placed ((s.port p).nearEnd l) ((s.port p).content l)) (decide ((s.port p).lock l = .searching))
      (some ((s.lane p l).control.invert.apply (((s.lane p l).rx.lastStable.map Identity.polarity).getD .normal))) := by
  rw [Local.blockCounted_lane]
  show ((s.lane p l).checker.nextBlock _ _ _ _) = _
  rw [block]
  exact congrArg (Checker.fresh _ _) (Port.checkCorrection_of_manual state)

/-- Settles O54: test blocks run the generator, count into the counters of their lane and decide the window of their port. -/
theorem testBlocksCountAndQualify : Obligations.TestBlocksCountAndQualify := by
  intro p l line s x y manual lock begun
  refine ⟨fun content => ?_, ?_⟩
  · have checker : begun = x.begunChecker l := by
      rw [Port.begunChecker]
      by_cases near : x.nearEnd l = true
      · rw [if_pos near, Checker.looped_eq, Port.checkCorrection_of_near near, show begun = _ from if_pos near]
        rfl
      · rw [if_neg near]
        exact if_neg near
    refine ⟨fun n pending => exec_testBlockTransmit_of_prbs content ?_, fun other => exec_testBlockTransmit_of_prbs content ?_⟩
    · rw [Lane.injects_of pending, Lane.spend_of pending, checker]
      rfl
    · rw [Lane.spend, Lane.injects_eq_false fun ⟨n, pending⟩ => other n pending, checker]
      rfl
  intro start searching correction raw errors block taken sum next used counted
  have errs : s.blockErrors p l start searching correction line.val = errors :=
    State.blockErrors_eq (taken.trans (Port.rawDifferences_eq x l start line.val).symm) sum
  have took : (used.held p).Counts ((used.held p).blockCounted p l errors) l errors := Local.blockCounted_counts ..
  refine ⟨fun state checks => ?_, fun n q pre post e state mapped snapshot record begun entries pos others => ?_⟩
  · obtain ⟨t, runs, became⟩ := became_of_put (v := used) (exec_testBlockEnd_of_manual block errs state checks) rfl
    refine ⟨t, runs, ⟨became.toOnlyPort, by rw [became.lane]; exact took.counters⟩, became.esu, by rw [became.port]; exact took.record,
      fun k other => by rw [became.lane]; exact took.others k other, by rw [became.lane]; exact took.lane, ?_, ?_⟩
    · rw [became.lane, Local.blockCounted_lane]
      rfl
    · rw [became.lane]
      exact (blockCounted_nextChecker (s := used) state block).trans
        (congrArg (Checker.block · _ _) (start.placed_next_eq searching (x.nearEnd l) (x.content l)))
  have runs : exec (.testBlockEnd p l line) s = ((used.put p ((used.held p).blockCounted p l errors)).qualifyBlock p l errors).done :=
    exec_testBlockEnd_of_window block errs state mapped record begun
  generalize (used.held p).blockCounted p l errors = j at took runs
  have snapshot' : j.port.snapshot = some n := (took.field Port.snapshot).trans snapshot
  have record' : j.port.qualify = some q := (took.field Port.qualify).trans record
  rw [State.put_qualifyBlock snapshot' record' entries pos others] at runs
  refine ⟨fun done => ?_, ?_⟩
  · have idle : ¬e.counting n.entry.window = true := fun counting => by
      obtain ⟨pending, more⟩ := of_decide_eq_true counting
      exact done.elim (· pending) (Nat.not_le.2 more)
    rw [if_neg idle] at runs
    obtain ⟨t, runs, became⟩ := became_of_put runs rfl
    exact ⟨t, runs, ⟨became.toOnlyPort, by rw [became.lane]; exact took.counters⟩, became.esu.trans took.esu,
      by rw [became.port]; exact took.record⟩
  intro pending more sum most d all half halfAllowed decides closed judged quiet told fails passes
  have counting : e.counting n.entry.window = true := decide_eq_true ⟨pending, more⟩
  have d_eq : e.blockTaken n.entry errors = d := QualEntry.blockTaken_eq pending errors
  rw [if_pos counting, d_eq] at runs
  have fail_iff : d.verdict = .fail ↔ most < sum := by
    show (if most < sum then QualVerdict.fail else .pending) = .fail ↔ _
    split <;> simp [*]
  have decides_iff : d.verdict = .fail ∧ j.port.decides d = true ↔ decides := by
    rw [fail_iff, Port.decides_iff snapshot', show j.port.L = x.L from took.field Port.L, show j.port.width = x.width from took.field Port.width]
  have judges : ({ q with entries := all } : QualRecord).judge n.entry.grade = { q with entries := judged } :=
    congrArg (QualRecord.mk q.begun) (List.map_congr_left fun f _ => f.judge_eq n.entry.grade)
  have mayHalve : ∀ r, (j.setQualify r).port.mayHalve = true ↔ halfAllowed := fun r => by
    rw [show (j.setQualify r).port.mayHalve = x.mayHalve from took.field Port.mayHalve, Port.mayHalve_iff, snapshot]
    simp [halfAllowed]
  have L_eq : ∀ r, (j.setQualify r).port.L = x.L := fun _ => took.field Port.L
  have lost : ∀ es deciding, exec (.testBlockEnd p l line) s =
        ((used.put p (j.setQualify { q with entries := es })).endWindow p n.entry { q with entries := es } deciding).done →
      (j.setQualify { q with entries := es }).port.qualOutcome es = .failedAttempt → x.mode = .step ∨ 2 ≤ x.attempts ∨ s.noGrant →
      ∃ t, exec (.testBlockEnd p l line) s = .next t ∧ fails es deciding t := fun es deciding runs outcome room => by
    obtain ⟨t, runs, only, counters, failed, written, paused, faulted⟩ :=
      took.fails (q := { q with entries := es }) state runs outcome room
    exact ⟨t, runs, ⟨only, counters.trans took.counters⟩, failed, written,
      fun early step ⟨lanes, errs, blocks⟩ => paused early step (fun k => (lanes k).1) (took.kept errs blocks),
      fun third below ⟨lanes, errs, blocks⟩ => faulted third below (fun k => (lanes k).1) (fun k => (lanes k).2) (took.kept errs blocks)⟩
  have goes : ∀ (w : Local) (out : QualOutcome) (ds : List Detail),
      j.Passing w x { q with entries := judged } (qualDetail x n.entry judged none out :: ds) p →
      exec (.testBlockEnd p l line) s = (used.put p (w.toHandover p used.settings)).done →
      ∃ t, exec (.testBlockEnd p l line) s = .next t ∧ passes w.port.map w.port.width out ds t := fun w out ds going runs => by
    obtain ⟨t, runs, only, counters, esu, map, width, attempts, portCounters, written, paused, entered⟩ :=
      going.passes (v := used) (l := l) took.esu runs
    refine ⟨t, runs, ⟨only, counters.trans took.counters⟩, esu, map, width, attempts, portCounters, written, fun step => ?_, fun auto => ?_⟩
    · obtain ⟨state, pending, reports⟩ := paused step
      exact ⟨state, pending, fun ⟨lanes, errs, blocks⟩ => reports (fun k => (lanes k).1) (took.kept errs blocks)⟩
    · obtain ⟨state, timer, hand, reports⟩ := entered auto
      exact ⟨state, timer, hand, fun ⟨lanes, errs, blocks⟩ => reports (fun k => (lanes k).1) (took.kept errs blocks)⟩
  refine ⟨fun decided room => ?_, fun undecided unclosed => ?_, fun undecided shut => ⟨fun pass => ?_, fun failed may upper => ?_,
    fun failed mayNot room => ?_⟩⟩
  · obtain ⟨fail, decides⟩ := decides_iff.2 decided
    rw [State.put_afterBlock_decides fail decides] at runs
    rw [show d.pos = l from pos] at runs
    exact lost all _ runs (Port.qualOutcome_decided (e := d) snapshot' (by simp [all]) fail decides) room
  · rw [State.put_afterBlock_goes_on (fun both => undecided (decides_iff.1 both)) unclosed] at runs
    obtain ⟨t, runs, became⟩ := became_of_put runs rfl
    refine ⟨t, runs, ⟨became.toOnlyPort, by rw [became.lane]; exact took.counters⟩, became.esu.trans took.esu, ?_, ?_⟩
    · rw [became.port]
      exact took.field fun z => { z with qualify := x.qualify }
    · rw [became.port]
      exact congrArg (fun b => some (QualRecord.mk b all)) begun
  all_goals rw [State.put_afterBlock_ends (fun both => undecided (decides_iff.1 both)) shut, judges] at runs
  · have outcome := (j.setQualify { q with entries := judged }).port.qualOutcome_pass pass
    have going := took.passing (n := n.entry) (q := { q with entries := judged }) (deciding := none) state
    rw [outcome] at going
    rw [State.put_endWindow, outcome, State.put_takeOutcome_handover] at runs
    obtain ⟨t, runs, passing⟩ := goes _ _ _ going runs
    exact ⟨t, runs, took.field Port.map ▸ took.field Port.width ▸ passing⟩
  · have outcome := (j.setQualify { q with entries := judged }).port.qualOutcome_half failed ((mayHalve _).2 may)
      (by rw [L_eq]; exact upper)
    have going := took.passing (n := n.entry) (q := { q with entries := judged }) (deciding := none) state
    rw [outcome] at going
    rw [State.put_endWindow, outcome, State.put_takeOutcome_half] at runs
    obtain ⟨t, runs, passing⟩ := goes _ _ _ going.halved runs
    have map : j.port.halve.map = _ := (took.field (·.halve.map)).trans x.halve_map
    have dropped : j.port.dropped = _ := (took.field Port.dropped).trans x.dropped_eq
    exact ⟨t, runs, map ▸ dropped ▸ passing⟩
  · refine lost judged none runs (Port.qualOutcome_fail failed ?_) room
    rw [mayHalve, L_eq]
    exact mayNot

end Sys2Proof.Machine
end

section
/-! SUPPORT. A sweep in flight: the record of a port's sweep, a figure of merit, and a beacon that does not end it (R35, R123 to R125). -/

namespace Sys2Proof.Machine

variable {s t u : State} {p : PortIx} {l : LanePos} {c : ChanIx} {w : Sweep} {y z : SweepLane} {f g : SweepLane → SweepLane} {v : Byte}
  {q : Point} {me : LocalId} {b : Best}

/-! ### The record of a port's sweep -/

theorem State.sweepOf_of (channel : (s.port p).channel = some c) (busy : s.esu.channels[c] = some w) : s.sweepOf p = some (c, w) := by
  rw [State.sweepOf, channel, Option.bind_some, busy]
  rfl

theorem State.sweepLane_of (sweep : s.sweepOf p = some (c, w)) (l : LanePos) :
    s.sweepLane p l = w.lanes.find? fun y => decide (y.pos = l) := by
  rw [State.sweepLane, sweep]
  rfl

theorem State.setSweep_self (busy : s.esu.channels[c] = some w) : s.setSweep c w = s := by
  have same : s.esu.channels.set c (some w) = s.esu.channels := by
    rw [← busy]
    exact Vector.set_getElem_self c.isLt
  rw [State.setSweep, same]
  rfl

theorem Sweep.modLane_congr (h : ∀ y ∈ w.lanes, y.pos = l → f y = g y) : w.modLane l f = w.modLane l g := by
  refine congrArg (fun ls => ({ w with lanes := ls } : Sweep)) (List.map_congr_left fun y hy => ?_)
  split
  · next here => exact h y hy here
  · rfl

theorem Sweep.modLane_idle (h : ∀ y ∈ w.lanes, y.pos = l → f y = y) : w.modLane l f = w := by
  have same : (w.lanes.map fun y => if y.pos = l then f y else y) = w.lanes :=
    (List.map_congr_left fun y hy => by split <;> simp [*]).trans (List.map_id' _)
  rw [Sweep.modLane, same]

/-! ### A figure of merit (R124) -/

theorem bestAfter_eq (best : Option Best) (q : Point) (v : Byte) : bestAfter best q v = match best with
    | none => { point := q, figure := v }
    | some b => if v < b.figure then b else if b.figure < v then { point := q, figure := v }
        else if q.gain < b.point.gain ∨ q.gain = b.point.gain ∧ (q.pre < b.point.pre ∨ q.pre = b.point.pre ∧ q.post < b.point.post) then
          { point := q, figure := v }
        else b := by
  cases best with
  | none => rfl
  | some b =>
    show (if b.figure < v ∨ v = b.figure ∧ q.before b.point = true then _ else _) = _
    simp only [Point.before_iff]
    by_cases low : v < b.figure
    · rw [if_pos low, if_neg (by rintro (high | ⟨same, -⟩) <;> bv_omega)]
    · rw [if_neg low]
      by_cases high : b.figure < v
      · rw [if_pos high, if_pos (.inl high)]
      · have same : (v = b.figure) = True := eq_true (by bv_omega)
        rw [if_neg high]
        simp only [high, same, false_or, true_and]

theorem SweepLane.figureArrived_of_idle (h : y.phase ≠ .measure) (v : Byte) : y.figureArrived v = y := if_neg h

theorem Point.nextFar_post (h : q.post.val + 1 < 16) : q.nextFar = some { q with post := ⟨q.post.val + 1, h⟩ } := dif_pos h

theorem Point.nextFar_pre (last : q.post = 15) (h : q.pre.val + 1 < 8) : q.nextFar = some { q with pre := ⟨q.pre.val + 1, h⟩, post := 0 } := by
  rw [Point.nextFar, dif_neg (by rw [last]; decide), dif_pos h]

theorem Point.nextFar_last (last : q.post = 15) (top : q.pre = 7) : q.nextFar = none := by
  rw [Point.nextFar, dif_neg (by rw [last]; decide), dif_neg (by rw [top]; decide)]

/-- A figure for the running sweep acts on the lanes that asked for it; where none has, it is late and finds nothing to act on. -/
theorem exec_figureOfMerit_of_sweep (tune : (s.port p).state = .tune) (sweep : s.sweepOf p = some (c, w)) (v : Byte) :
    exec (.figureOfMerit p l { sweep := w.number, value := v }) s =
      .next { s with esu := { s.esu with channels := s.esu.channels.set c (some (w.modLane l (·.figureArrived v))) } }.settled := by
  have busy : s.esu.channels[c] = some w := State.sweepOf_some sweep
  have due : s.opened.figureDue p l = if w.lanes.any (fun y => decide (y.pos = l ∧ y.phase = .measure)) then some w.number else none := by
    rw [State.figureDue, show s.opened.sweepOf p = some (c, w) from sweep]
    rfl
  have taken : s.opened.sweepFigure p l w.number v = s.opened.setSweep c (w.modLane l (·.figureArrived v)) := by
    rw [State.sweepFigure, show s.opened.sweepOf p = some (c, w) from sweep]
    simp only [due]
    split
    · exact if_pos rfl
    · next late =>
      have none_due : ∀ y ∈ w.lanes, y.pos = l → y.phase ≠ .measure := fun y hy here measures =>
        late (List.any_eq_true.2 ⟨y, hy, decide_eq_true ⟨here, measures⟩⟩)
      rw [if_neg nofun, Sweep.modLane_idle fun y hy here => SweepLane.figureArrived_of_idle (none_due y hy here) v]
      exact (State.setSweep_self (s := s.opened) busy).symm
  show execFigureOfMerit p l _ s = _
  rw [execFigureOfMerit, if_pos tune, taken]
  exact State.done_of_none rfl

/-! ### A beacon sent by a swept lane -/

theorem State.afterBeacon_of_tune (h : (u.port p).state = .tune) : u.afterBeacon p l = u.sweepBeacon p l := by
  unfold State.afterBeacon
  rw [h]

theorem State.sweepBeacon_goes_on (sweep : u.sweepOf p = some (c, w)) (on : (w.modLane l SweepLane.beaconSent).complete = false) :
    u.sweepBeacon p l = u.setSweep c (w.modLane l SweepLane.beaconSent) := by
  rw [State.sweepBeacon, sweep]
  exact if_neg (Bool.eq_false_iff.1 on)

theorem State.sweepBeacon_ends (sweep : u.sweepOf p = some (c, w)) (last : (w.modLane l SweepLane.beaconSent).complete = true) :
    u.sweepBeacon p l = u.completeSweep c (w.modLane l SweepLane.beaconSent) := by
  rw [State.sweepBeacon, sweep]
  exact if_pos last

theorem SweepLane.beaconSent_settle (h : y.phase = .settle) :
    y.beaconSent = { y with phase := .measure, point := { y.point with gain := 0 } } := by simp only [SweepLane.beaconSent, h]

theorem SweepLane.beaconSent_closing (h : y.phase = .closing) :
    y.beaconSent = { y with phase := .finished, result := some (resultOf y.best) } := by simp only [SweepLane.beaconSent, h]

/-- The lane's own beacon on the line, in TUNE. -/
theorem exec_beaconTransmit_of_tune (tune : (s.port p).state = .tune) (identity : s.identity = some me)
    (content : (s.port p).content l = .prbs) (idle : (s.lane p l).injection = none) :
    exec (.beaconTransmit p l) s = (((s.opened.modLane p l fun y =>
      { y with sent := some ((s.beaconOf p l me).bytes false) }).sweepBeacon p l).hearOwn p l ((s.beaconOf p l me).bytes false)).done := by
  have plain : (s.lane p l).injects .badCheck = false := by rw [Lane.injects, idle]; rfl
  have sends : s.opened.modLane p l (·.sends ((s.beaconOf p l me).bytes false)) =
      s.opened.modLane p l fun y => { y with sent := some ((s.beaconOf p l me).bytes false) } :=
    State.modLane_congr (Lane.sends_plain plain _)
  rw [exec_beaconTransmit_eq identity (.inr content) plain (b := s.beaconOf p l me) rfl, sends, State.afterBeacon_of_tune]
  rw [State.modLane_here]
  exact tune

end Sys2Proof.Machine
end

section
/-! SUPPORT. The outcome of a sweep on one port's operations (R99, R121, R129, R131): its channel freed, the port goes on to QUALIFY, or
has failed an attempt and may be granted the channel again. -/

namespace Sys2Proof.Machine

variable {s t u : State} {p : PortIx} {k j : Local} {l m : LanePos} {c d : ChanIx} {x : Port} {g : Settings} {r : FaultReason}
  {z : PortState} {f : Port → Port} {st : PendingStage} {clock : Word} {i : Instr}

/-! ### What a change of state leaves of the settings of a lane and of the beacon it last sent -/

/-- Every lane has the equalization settings it had and the beacon it last sent. -/
def Port.SameLine (x y : Port) : Prop := ∀ m, (y.lane m).eq = (x.lane m).eq ∧ (y.lane m).sent = (x.lane m).sent

theorem Port.SameLine.trans {y w : Port} (h : x.SameLine y) (h' : y.SameLine w) : x.SameLine w :=
  fun m => ⟨(h' m).1.trans (h m).1, (h' m).2.trans (h m).2⟩

theorem Port.undoneLane_sent (x : Port) (l : LanePos) : (x.undoneLane l).sent = (x.lane l).sent := by
  unfold Port.undoneLane Lane.takeBack
  split_ifs <;> rfl

theorem Local.left_sent : ((k.left p).lane l).sent = (k.port.lane l).sent :=
  (k.left_lane p l).sent.trans (k.port.undoneLane_sent l)

theorem Local.transition_sent (lanes : LanesKept f) : ((k.transition p g z f).port.lane l).sent = (k.port.lane l).sent := by
  rw [(k.transition_lane p g z f l).sent, (Lane.listen_line _ _).2.2.2.2.1, lanes, Local.left_sent]

theorem Local.transition_sameLine (lanes : LanesKept f) : k.port.SameLine (k.transition p g z f).port := fun m =>
  ⟨by rw [Local.transition_eq, lanes, Local.left_eq], Local.transition_sent lanes⟩

theorem Local.enterPaused_sameLine : k.port.SameLine (k.enterPaused p g st).port :=
  Local.transition_sameLine (k := k.tell _) (stages_pending st).kept.lanes

theorem Local.enterFaulted_sameLine : k.port.SameLine (k.enterFaulted p g r).port :=
  Local.transition_sameLine (k := k.tell _) (stages_fault r).kept.lanes

theorem Local.enterAwaitSlot_sameLine : k.port.SameLine (k.enterAwaitSlot p g).port := by
  have moved : k.port.SameLine (k.transition p g .awaitSlot id).port := Local.transition_sameLine stages_id.kept.lanes
  rw [Local.enterAwaitSlot, Local.countAttempt]
  split <;> exact moved

theorem Local.granted_sameLine : k.port.SameLine (k.granted p clock g c).port :=
  Local.transition_sameLine (k := k.setEsu _) (lanesKept_channel c)

theorem Local.enterQualify_sameLine : k.port.SameLine (k.enterQualify p g).port :=
  Local.transition_sameLine (stages_qualify g).kept.lanes

theorem Local.startWindow_sameLine : k.port.SameLine k.startWindow.port := fun m => by
  rw [Local.startWindow_lane]
  exact ⟨rfl, rfl⟩

theorem Local.reduceWidth_sameLine {cause : WidthCause} : k.port.SameLine (k.reduceWidth p cause).port := fun m => by
  obtain ⟨_, _, _, lane⟩ := k.reduceWidth_lane p cause m
  rw [lane]
  exact ⟨rfl, rfl⟩

/-! ### A grant on the port's own operations (R121) -/

/-- A grant to the port that alone waits, on a channel found free. -/
theorem State.put_grant_own {e : QueueEntry} (queue : k.esu.queue = [e]) (own : e.port = p) (limit : k.esu.busy < s.settings.sweepLimit)
    (free : k.esu.firstFree = some d) : (s.put p k).grant = s.put p (k.granted p s.time.clock s.settings d) := by
  have grants : (s.put p k).grant = (s.put p k).grantTo p d := by
    rw [State.grant, if_pos (show (s.put p k).esu.busy < (s.put p k).settings.sweepLimit from limit),
      show (s.put p k).esu.queue = [e] from queue, show (s.put p k).esu.firstFree = some d from free]
    exact congrArg ((s.put p k).grantTo · d) own
  rw [grants, State.put_grantTo]

theorem Esu.firstFree_of_free {e : Esu} (h : e.channels[c] = none) : ∃ d, e.firstFree = some d := by
  refine Option.ne_none_iff_exists'.1 fun none_free => ?_
  have every : ∀ c : ChanIx, c ∈ ([0, 1, 2, 3] : List ChanIx) := by decide
  have := List.find?_eq_none.1 none_free c (every c)
  rw [h] at this
  exact this rfl

theorem Local.granted_course : k.port.keepsCourse (k.granted p clock g d).port := by
  rw [Local.granted]
  generalize hj : k.setEsu _ = j
  have same : k.port = j.port := by rw [← hj]; rfl
  rw [same]
  exact j.transition_course (f := fun x : Port => { x with channel := some d }) (fun _ => ⟨rfl, rfl, rfl, rfl, rfl, rfl, rfl, rfl, rfl⟩) p g .tune

theorem queueJoin_nil (e : QueueEntry) : queueJoin [] e = [e] := by
  unfold queueJoin
  cases e.cycle <;> rfl

/-! ### A port whose sweep has ended -/

/-- A port in TUNE whose channel has been freed, no other port waiting: what it holds before the outcome of its sweep. -/
structure Local.Swept (s : State) (p : PortIx) (c : ChanIx) (k : Local) : Prop where
  was : (s.port p).state = .tune
  state : k.port.state = .tune
  channel : k.port.channel = some c
  esu : k.esu = s.esu.free c
  queue : s.esu.queue = []
  course : (s.port p).keepsCourse k.port
  attempts : k.port.attempts = (s.port p).attempts
  cycle : k.port.cycle = (s.port p).cycle
  counters : k.port.counters = (s.port p).counters
  kept : k.kept = []
  still : (s.port p).Still → k.port.Still
  far : ∀ m, (k.port.lane m).rx.far = (s.lane p m).rx.far

namespace Local.Swept

variable (h : k.Swept s p c)
include h

/-- Nothing is left to undo in the ESU when such a port leaves TUNE. -/
theorem undoneEsu : k.undoneEsu p = s.esu.free c := by
  have gone : k.esu.channels[c] = none := by rw [h.esu]; exact Vector.getElem_set_self c.isLt
  rw [Local.undoneEsu_of_tune h.state, Local.sweepOf, h.channel, Option.bind_some, gone]
  exact h.esu

theorem resting : (s.esu.free c).Resting g.sweepLimit := .inl h.queue

theorem tried_undoneEsu : k.tried.undoneEsu p = s.esu.free c := h.undoneEsu

end Local.Swept

/-! ### On to QUALIFY (R129, R134, R135) -/

/-- The window-start test. -/
def Local.windowed (k : Local) : Local :=
  if k.port.state = .qualify ∧ k.port.windowBegun = false ∧ stageAtLeast .qual k.port.farStage then k.startWindow else k

theorem State.put_windowTest (s : State) (p : PortIx) (k : Local) : (s.put p k).windowTest p = s.put p k.windowed := by
  rw [State.windowTest, State.put_port, Local.windowed]
  split
  · rw [State.put_modPort, State.syncPort, State.put_modPort]
    rfl
  · rfl

/-- The way into QUALIFY. -/
def Local.toQualify (k : Local) (p : PortIx) (g : Settings) : Local :=
  if k.port.mode = .step then k.enterPaused p g .qualify else (k.enterQualify p g).windowed

theorem State.put_toQualify (s : State) (p : PortIx) (k : Local) : (s.put p k).toQualify p = s.put p (k.toQualify p s.settings) := by
  rw [State.toQualify, State.put_port, Local.toQualify]
  split
  · exact State.put_enterPaused ..
  · rw [State.enterQualify, State.put_transition, State.put_windowTest]
    rfl

/-- What the window-start test leaves: all but the record, the timer and what follows them in the lane engines. -/
theorem Local.windowed_keeps (k : Local) : (k.windowed.esu = k.esu ∧ k.windowed.told = k.told ∧ k.windowed.kept = k.kept) ∧
    { k.windowed.port with lanes := k.port.lanes, stageTimer := k.port.stageTimer, qualify := k.port.qualify } = k.port ∧
    k.port.SameLine k.windowed.port := by
  unfold Local.windowed
  split
  · exact ⟨⟨rfl, rfl, rfl⟩, rfl, Local.startWindow_sameLine⟩
  · exact ⟨⟨rfl, rfl, rfl⟩, rfl, fun _ => ⟨rfl, rfl⟩⟩

theorem Local.windowed_behind (h : k.port.farBehind [.disc, .wait]) : k.windowed = k :=
  if_neg fun ⟨_, _, far⟩ => by rw [h.low .qual (by decide)] at far; cases far

/-- What a sweep that a port goes on from leaves (R129). -/
structure Local.Proceeds (k j : Local) (p : PortIx) (g : Settings) : Prop where
  esu : j.esu = k.undoneEsu p
  channel : j.port.channel = none
  map : j.port.map = k.port.map
  width : j.port.width = k.port.width
  attempts : j.port.attempts = k.port.attempts
  cycle : j.port.cycle = k.port.cycle
  counters : j.port.counters = k.port.counters
  kept : j.kept = k.kept
  line : k.port.SameLine j.port
  moved : j.port.state ≠ .manual
  paused : k.port.mode = .step → j.port.state = .paused ∧ j.port.pending = some .qualify ∧ (k.port.Still →
    j.told = k.told ++ portReports p [.stagePause .qualify,
      .portState k.port.state .paused (some .qualify) none k.port.cycle k.port.attempts])
  entered : k.port.mode ≠ .step → k.port.farBehind [.disc, .wait] → j.port.state = .qualify ∧
    j.port.stageTimer = secondsTimer g.farEndWait ∧
    j.port.qualify = some { begun := false, entries := k.port.byLogical.map QualEntry.start } ∧
    (k.port.Still → j.told = k.told ++ portReports p [.portState k.port.state .qualify none none k.port.cycle k.port.attempts])

theorem Local.toQualify_proceeds (k : Local) (p : PortIx) (g : Settings) : k.Proceeds (k.toQualify p g) p g := by
  by_cases step : k.port.mode = .step
  · rw [Local.toQualify, if_pos step]
    have arrives := k.enterPaused_arrives p g .qualify
    exact ⟨Local.enterPaused_esu .., arrives.channel, arrives.course.map, arrives.course.width, arrives.attempts, arrives.cycle,
      Local.enterPaused_counters .., Local.enterPaused_kept .., Local.enterPaused_sameLine,
      by rw [arrives.state]; decide, fun _ => ⟨arrives.state, arrives.pending, fun still => Local.enterPaused_told still _⟩, fun auto => absurd step auto⟩
  · rw [Local.toQualify, if_neg step]
    have arrives := k.enterQualify_arrives p g
    obtain ⟨⟨esu, _, kept⟩, port, line⟩ := (k.enterQualify p g).windowed_keeps
    refine ⟨esu.trans (Local.enterQualify_esu ..), (congrArg Port.channel port).trans arrives.channel,
      (congrArg Port.map port).trans arrives.course.map, (congrArg Port.width port).trans arrives.course.width,
      (congrArg Port.attempts port).trans arrives.attempts, (congrArg Port.cycle port).trans arrives.cycle,
      (congrArg Port.counters port).trans (Local.enterQualify_counters ..), kept.trans (Local.enterQualify_kept ..),
      Local.enterQualify_sameLine.trans line, by rw [(congrArg Port.state port).trans arrives.state]; decide, fun yes => absurd yes step, fun _ behind => ?_⟩
    rw [Local.windowed_behind (k := k.enterQualify p g) (behind.from (Local.transition_farFrom (stages_qualify g).kept))]
    exact ⟨arrives.state, arrives.stageTimer, Local.enterQualify_qualify .., Local.enterQualify_told⟩

/-! ### A failed attempt (R99) -/

theorem State.put_failedAttempt_of_third (third : 2 ≤ k.port.attempts) :
    (s.put p k).failedAttempt p r = (s.put p k.tried).enterFaulted p r := by
  rw [State.failedAttempt, State.put_modPort]
  refine if_pos ?_
  rw [State.put_port]
  exact Nat.succ_le_succ third

theorem State.put_failedAttempt_of_early (early : k.port.attempts < 2) :
    (s.put p k).failedAttempt p r = (s.put p k.tried).toAwaitSlot p := by
  rw [State.failedAttempt, State.put_modPort]
  refine if_neg ?_
  rw [State.put_port]
  exact Nat.not_le.2 (Nat.succ_lt_succ early)

/-- A sweep that has failed an attempt of its port (R99, R121). -/
structure SweepRetried (p : PortIx) (c : ChanIx) (d : Detail) (s t : State) : Prop extends OnlyPort p s t where
  course : (s.port p).keepsCourse (t.port p)
  attempts : (t.port p).attempts = (s.port p).attempts + 1
  cycle : (t.port p).cycle = (s.port p).cycle
  third : 2 ≤ (s.port p).attempts → (t.port p).state = .faulted ∧ (t.port p).fault = some .tuneFail ∧ t.esu = s.esu.free c ∧
    (t.port p).channel = none ∧ (t.port p).counters = (s.port p).counters.set ctrFaults ((s.port p).counters[ctrFaults].bump 65535 1)
  paused : (s.port p).attempts < 2 → (s.port p).mode = .step → (t.port p).state = .paused ∧ (t.port p).pending = some .awaitSlot ∧
    t.esu = s.esu.free c ∧ (t.port p).channel = none ∧ (t.port p).counters = (s.port p).counters ∧
    ((s.port p).Still → t.reports = s.reports.enterAll s.time.clock (portReports p [d, .stagePause .awaitSlot,
      .portState .tune .paused (some .awaitSlot) none (s.port p).cycle ((s.port p).attempts + 1)]))
  queued : (s.port p).attempts < 2 → (s.port p).mode ≠ .step → (t.port p).counters = if (s.port p).cycle = .initial then
    (s.port p).counters.set ctrAttempts ((s.port p).counters[ctrAttempts].bump 65535 1) else (s.port p).counters
  waits : (s.port p).attempts < 2 → (s.port p).mode ≠ .step → s.settings.sweepLimit < s.esu.busy → (t.port p).state = .awaitSlot ∧
    t.esu = { s.esu.free c with queue := [{ port := p, cycle := (s.port p).cycle }] }
  granted : (s.port p).attempts < 2 → (s.port p).mode ≠ .step → s.esu.busy ≤ s.settings.sweepLimit → (t.port p).state = .tune ∧
    t.esu.queue = [] ∧ ∃ b v, (t.port p).channel = some b ∧ t.esu.channels[b] = some v ∧ v.port = p ∧
      v.lanes = (s.port p).byLogical.map SweepLane.start

section Failed

variable {detail : Detail} (h : k.Swept s p c)
include h

theorem Local.Swept.tried_course : (s.port p).keepsCourse k.tried.port := h.course.trans ⟨rfl, rfl, rfl, rfl, rfl, rfl, rfl, rfl, rfl⟩

theorem Local.Swept.tried_attempts : k.tried.port.attempts = (s.port p).attempts + 1 := congrArg (· + 1) h.attempts

theorem Local.Swept.retried_third (third : 2 ≤ (s.port p).attempts) :
    ∃ t, (((s.put p k).failedAttempt p .tuneFail).grantTest).done = .next t ∧ SweepRetried p c detail s t ∧ k.port.SameLine (t.port p) := by
  have esu : (k.tried.enterFaulted p s.settings .tuneFail).esu = s.esu.free c := by rw [Local.enterFaulted_esu, h.tried_undoneEsu]
  have rests := State.put_grantTest (s := s) (p := p) (k := k.tried.enterFaulted p s.settings .tuneFail) (by rw [esu]; exact h.resting)
  have goes : ((s.put p k).failedAttempt p .tuneFail).grantTest = s.put p (k.tried.enterFaulted p s.settings .tuneFail) := by
    rw [State.put_failedAttempt_of_third (h.attempts ▸ third), State.put_enterFaulted_test, State.put_afterAbort (.inr (by
      rw [esu]; exact h.resting)), rests]
  rw [goes]
  obtain ⟨t, runs, became⟩ := State.put_done s p (k.tried.enterFaulted p s.settings .tuneFail)
  have arrives := k.tried.enterFaulted_arrives p s.settings .tuneFail
  refine ⟨t, runs, { became.toOnlyPort with
    course := by rw [became.port]; exact h.tried_course.trans arrives.course
    attempts := by rw [became.port, arrives.attempts, h.tried_attempts]
    cycle := by rw [became.port, arrives.cycle]; exact h.cycle
    third := fun _ => ⟨by rw [became.port]; exact arrives.state, by rw [became.port]; exact arrives.fault, became.esu.trans esu,
      by rw [became.port]; exact arrives.channel, ?_⟩
    paused := fun early => absurd third (Nat.not_le.2 early)
    queued := fun early => absurd third (Nat.not_le.2 early)
    waits := fun early => absurd third (Nat.not_le.2 early)
    granted := fun early => absurd third (Nat.not_le.2 early) }, ?_⟩
  · have counters : k.tried.port.counters = (s.port p).counters := h.counters
    rw [became.port, Local.enterFaulted_counters, counters]
  · rw [became.port]
    exact Local.enterFaulted_sameLine (k := k.tried)

theorem Local.Swept.retried_paused (told : k.told = portReports p [detail]) (early : (s.port p).attempts < 2) (step : (s.port p).mode = .step) :
    ∃ t, (((s.put p k).failedAttempt p .tuneFail).grantTest).done = .next t ∧ SweepRetried p c detail s t ∧ k.port.SameLine (t.port p) := by
  have esu : (k.tried.enterPaused p s.settings .awaitSlot).esu = s.esu.free c := by rw [Local.enterPaused_esu, h.tried_undoneEsu]
  have mode : k.tried.port.mode = .step := h.course.mode.trans step
  have goes : ((s.put p k).failedAttempt p .tuneFail).grantTest = s.put p (k.tried.enterPaused p s.settings .awaitSlot) := by
    rw [State.put_failedAttempt_of_early (h.attempts ▸ early), State.put_toAwaitSlot (.inl mode), Local.toAwaitSlot_of_step mode,
      State.put_grantTest (by rw [esu]; exact h.resting)]
  rw [goes]
  obtain ⟨t, runs, became⟩ := State.put_done s p (k.tried.enterPaused p s.settings .awaitSlot)
  have arrives := k.tried.enterPaused_arrives p s.settings .awaitSlot
  refine ⟨t, runs, { became.toOnlyPort with
    course := by rw [became.port]; exact h.tried_course.trans arrives.course
    attempts := by rw [became.port, arrives.attempts, h.tried_attempts]
    cycle := by rw [became.port, arrives.cycle]; exact h.cycle
    third := fun third => absurd third (Nat.not_le.2 early)
    paused := fun _ _ => ⟨by rw [became.port]; exact arrives.state, by rw [became.port]; exact arrives.pending, became.esu.trans esu,
      by rw [became.port]; exact arrives.channel, by rw [became.port, Local.enterPaused_counters]; exact h.counters, fun still => ?_⟩
    queued := fun _ other => absurd step other
    waits := fun _ other => absurd step other
    granted := fun _ other => absurd step other }, ?_⟩
  · have still' : k.tried.port.Still := h.still still
    have state : k.tried.port.state = .tune := h.state
    have cycle : k.tried.port.cycle = (s.port p).cycle := h.cycle
    have told' : k.tried.told = portReports p [detail] := told
    have kept : k.tried.kept = [] := h.kept
    rw [became.reports, Local.enterPaused_told still', Local.enterPaused_kept, kept, told', state, cycle, h.tried_attempts, List.append_nil]
    rfl
  · rw [became.port]
    exact Local.enterPaused_sameLine (k := k.tried)

/-- The ESU of the port that waits again. -/
theorem Local.Swept.await_esu : (k.tried.enterAwaitSlot p g).esu =
    { s.esu.free c with queue := [{ port := p, cycle := (s.port p).cycle }] } := by
  have cycle : k.tried.port.cycle = (s.port p).cycle := h.cycle
  rw [Local.enterAwaitSlot_esu, h.tried_undoneEsu, cycle]
  show ({ s.esu.free c with queue := queueJoin s.esu.queue _ } : Esu) = _
  rw [h.queue, queueJoin_nil]

theorem Local.Swept.await_counters : (k.tried.enterAwaitSlot p g).port.counters = if (s.port p).cycle = .initial then
    (s.port p).counters.set ctrAttempts ((s.port p).counters[ctrAttempts].bump 65535 1) else (s.port p).counters := by
  have cycle : k.tried.port.cycle = (s.port p).cycle := h.cycle
  have counters : k.tried.port.counters = (s.port p).counters := h.counters
  rw [Local.enterAwaitSlot_counters, cycle, counters]

/-- The way back into the queue, two grant tests made. -/
theorem Local.Swept.requeues (early : (s.port p).attempts < 2) (auto : (s.port p).mode ≠ .step) :
    ((s.put p k).failedAttempt p .tuneFail).grantTest = ((s.put p (k.tried.enterAwaitSlot p s.settings)).grantTest).grantTest := by
  have mode : k.tried.port.mode ≠ .step := fun step => auto (h.course.mode.symm.trans step)
  rw [State.put_failedAttempt_of_early (h.attempts ▸ early), State.toAwaitSlot, State.put_port, if_neg mode,
    State.put_enterAwaitSlot_test]

theorem Local.Swept.retried_waits (early : (s.port p).attempts < 2) (auto : (s.port p).mode ≠ .step) {w : Sweep}
    (busy : s.esu.channels[c] = some w) (full : s.settings.sweepLimit < s.esu.busy) :
    ∃ t, (((s.put p k).failedAttempt p .tuneFail).grantTest).done = .next t ∧ SweepRetried p c detail s t ∧ k.port.SameLine (t.port p) := by
  have esu := h.await_esu (g := s.settings)
  have freed := Esu.busy_free busy
  have rests : (k.tried.enterAwaitSlot p s.settings).esu.Resting s.settings.sweepLimit := by
    rw [esu]
    refine .inr (.inr ?_)
    show s.settings.sweepLimit ≤ (s.esu.free c).busy
    omega
  rw [h.requeues early auto, State.put_grantTest rests, State.put_grantTest rests]
  obtain ⟨t, runs, became⟩ := State.put_done s p (k.tried.enterAwaitSlot p s.settings)
  have arrives := k.tried.enterAwaitSlot_arrives p s.settings
  refine ⟨t, runs, { became.toOnlyPort with
    course := by rw [became.port]; exact h.tried_course.trans arrives.course
    attempts := by rw [became.port, arrives.attempts, h.tried_attempts]
    cycle := by rw [became.port, arrives.cycle]; exact h.cycle
    third := fun third => absurd third (Nat.not_le.2 early)
    paused := fun _ step => absurd step auto
    queued := fun _ _ => by rw [became.port]; exact h.await_counters
    waits := fun _ _ _ => ⟨by rw [became.port]; exact arrives.state, became.esu.trans esu⟩
    granted := fun _ _ few => absurd full (Nat.not_lt.2 few) }, ?_⟩
  rw [became.port]
  exact Local.enterAwaitSlot_sameLine (k := k.tried)

theorem Local.Swept.retried_granted (early : (s.port p).attempts < 2) (auto : (s.port p).mode ≠ .step) {w : Sweep}
    (busy : s.esu.channels[c] = some w) (few : s.esu.busy ≤ s.settings.sweepLimit) :
    ∃ t, (((s.put p k).failedAttempt p .tuneFail).grantTest).done = .next t ∧ SweepRetried p c detail s t ∧ k.port.SameLine (t.port p) := by
  have esu := h.await_esu (g := s.settings)
  have freed := Esu.busy_free busy
  have arrives := k.tried.enterAwaitSlot_arrives p s.settings
  have counters := h.await_counters (g := s.settings)
  have line : k.port.SameLine (k.tried.enterAwaitSlot p s.settings).port := Local.enterAwaitSlot_sameLine (k := k.tried)
  have again := h.requeues early auto
  generalize k.tried.enterAwaitSlot p s.settings = j at *
  obtain ⟨d, free⟩ := Esu.firstFree_of_free (e := j.esu) (c := c) (by rw [esu]; exact Vector.getElem_set_self c.isLt)
  have queue : j.esu.queue = [{ port := p, cycle := (s.port p).cycle }] := by rw [esu]
  have grants := State.put_grant_own (s := s) queue rfl (by
    rw [esu]
    show (s.esu.free c).busy < _
    omega) free
  have esu' := Local.granted_esu (p := p) (clock := s.time.clock) (g := s.settings) (c := d) queue nofun arrives.state
  have rests : (j.granted p s.time.clock s.settings d).esu.Resting s.settings.sweepLimit := by rw [esu']; exact .inl rfl
  have first : (s.put p j).grantTest = s.put p (j.granted p s.time.clock s.settings d) := by
    rw [State.grantTest, grants]
    simp only [State.grant_of_resting (s := s.put p (j.granted p s.time.clock s.settings d)) rests]
  rw [again, first, State.put_grantTest rests]
  obtain ⟨t, runs, became⟩ := State.put_done s p (j.granted p s.time.clock s.settings d)
  have course : j.port.keepsCourse (j.granted p s.time.clock s.settings d).port := Local.granted_course
  have whole : (s.port p).keepsCourse j.port := h.tried_course.trans arrives.course
  refine ⟨t, runs, { became.toOnlyPort with
    course := by rw [became.port]; exact whole.trans course
    attempts := by rw [became.port, Local.granted, Local.transition_attempts, Local.left_attempts, Local.setEsu_port, arrives.attempts, h.tried_attempts]
    cycle := by rw [became.port, Local.granted, Local.transition_cycle, Local.left_cycle, Local.setEsu_port, arrives.cycle]; exact h.cycle
    third := fun third => absurd third (Nat.not_le.2 early)
    paused := fun _ step => absurd step auto
    queued := fun _ _ => by
      rw [became.port, Local.granted, Local.transition_counters, Local.left_counters, Local.setEsu_port, counters]
    waits := fun _ _ full => absurd full (Nat.not_lt.2 few)
    granted := fun _ _ _ => ⟨by rw [became.port]; exact Local.transition_state, by rw [became.esu, esu'], d, j.sweep p s.time.clock d,
      by rw [became.port]; exact Local.transition_channel, by rw [became.esu, esu']; exact Vector.getElem_set_self d.isLt, rfl, ?_⟩ }, ?_⟩
  · show j.port.byLogical.map SweepLane.start = _
    rw [Port.byLogical_congr (x := s.port p) (y := j.port) whole.map]
  · rw [became.port]
    exact line.trans Local.granted_sameLine

/-- A sweep that has failed (R99, R121, R129). -/
theorem Local.Swept.retried (told : k.told = portReports p [detail]) {w : Sweep} (busy : s.esu.channels[c] = some w) :
    ∃ t, (((s.put p k).failedAttempt p .tuneFail).grantTest).done = .next t ∧ SweepRetried p c detail s t ∧ k.port.SameLine (t.port p) := by
  rcases Nat.lt_or_ge (s.port p).attempts 2 with early | third
  · by_cases step : (s.port p).mode = .step
    · exact h.retried_paused told early step
    · rcases Nat.lt_or_ge s.settings.sweepLimit s.esu.busy with full | few
      · exact h.retried_waits early step busy full
      · exact h.retried_granted early step busy few
  · exact h.retried_third third

end Failed

end Sys2Proof.Machine
end

section
/-! SUPPORT. The end of a sweep (R127 to R131): the best gains written, the channel freed, the report, and what its lanes' results come
to. -/

namespace Sys2Proof.Machine

variable {s t u v : State} {p : PortIx} {k j w : Local} {l m : LanePos} {c d : ChanIx} {x : Port} {g : Settings} {detail : Detail}
  {ds : List Detail} {ys : List SweepLane} {z : SweepLane}

/-! ### The best gains (R127) -/

/-- A lane's settings with its best gain, where it has one. -/
def Equalization.tuned (e : Equalization) : Option Best → Equalization
  | some b => { e with gain := b.point.gain }
  | none => e

/-- A port with the best gain of a swept lane written. -/
def Port.withGain (x : Port) (y : SweepLane) : Port := x.modLane y.pos fun z => { z with eq := z.eq.tuned y.best }

/-- A port with the best gains of its swept lanes written. -/
def Port.withGains (x : Port) (ys : List SweepLane) : Port := ys.foldl Port.withGain x

theorem Port.modLane_id (x : Port) (l : LanePos) : x.modLane l (fun y => y) = x := by
  have same : x.lanes.set l (x.lane l) = x.lanes := Vector.set_getElem_self l.isLt
  exact congrArg (fun lanes => ({ x with lanes := lanes } : Port)) same

theorem State.modPort_id (s : State) (p : PortIx) : s.modPort p (fun x => x) = s := by
  have same : s.ports.set p (s.port p) = s.ports := Vector.set_getElem_self p.isLt
  exact congrArg (fun ports => ({ s with ports := ports } : State)) same

theorem State.writeGains_eq (s : State) (w : Sweep) : s.writeGains w = w.lanes.foldl (fun t y => t.modPort w.port (·.withGain y)) s := by
  refine congrArg (fun f => w.lanes.foldl f s) (funext fun t => funext fun y => ?_)
  simp only [Port.withGain]
  cases y.best with
  | none =>
    show t = t.modPort w.port fun x => x.modLane y.pos fun z => z
    simp only [Port.modLane_id, State.modPort_id]
  | some b => rfl

theorem State.put_writeGains (s : State) (p : PortIx) (k : Local) {w : Sweep} (own : w.port = p) :
    (s.put p k).writeGains w = s.put p (k.modPort (·.withGains w.lanes)) := by
  rw [State.writeGains_eq, own, show (k.modPort (·.withGains w.lanes)) = { k with port := w.lanes.foldl Port.withGain k.port } from rfl]
  generalize w.lanes = ys
  induction ys generalizing k with
  | nil => rfl
  | cons y ys ih =>
    rw [List.foldl_cons, List.foldl_cons, State.put_modPort]
    exact ih _

/-- The gains leave the record, and of each lane all but its settings. -/
theorem Port.withGains_kept (x : Port) (ys : List SweepLane) : { x.withGains ys with lanes := x.lanes } = x ∧
    ∀ m, { (x.withGains ys).lane m with eq := (x.lane m).eq } = x.lane m := by
  induction ys generalizing x with
  | nil => exact ⟨rfl, fun _ => rfl⟩
  | cons y ys ih =>
    obtain ⟨record, lanes⟩ := ih (x.withGain y)
    refine ⟨congrArg (fun w : Port => { w with lanes := x.lanes }) record, fun m => ?_⟩
    have here : { (x.withGain y).lane m with eq := (x.lane m).eq } = x.lane m :=
      Port.modLane_all (P := fun m z => { z with eq := (x.lane m).eq } = x.lane m) rfl (fun _ _ => rfl) m
    exact (congrArg (fun z : Lane => { z with eq := (x.lane m).eq }) (lanes m)).trans here

/-- Every swept lane has its best gain, the others what they had. -/
theorem Port.withGains_eq (x : Port) (once : (ys.map SweepLane.pos).Nodup) (m : LanePos) :
    ((x.withGains ys).lane m).eq = (x.lane m).eq.tuned ((ys.find? fun y => decide (y.pos = m)).bind SweepLane.best) := by
  induction ys generalizing x with
  | nil => rfl
  | cons y ys ih =>
    obtain ⟨fresh, once⟩ := List.nodup_cons.1 once
    have later := ih (x.withGain y) once
    rw [show x.withGains (y :: ys) = (x.withGain y).withGains ys from rfl, later]
    by_cases here : y.pos = m
    · have gone : ys.find? (fun y => decide (y.pos = m)) = none :=
        List.find?_eq_none.2 fun z hz => by
          simpa using fun same => fresh (List.mem_map.2 ⟨z, hz, same.trans here.symm⟩)
      rw [gone, List.find?_cons_of_pos (by simpa using here), Port.withGain, ← here, Port.lane_modLane_self]
      rfl
    · rw [List.find?_cons_of_neg (by simpa using here), Port.withGain, Port.lane_modLane_of_ne _ _ (Ne.symm here)]

/-! ### On to QUALIFY, with what a state then holds -/

/-- A sweep that its port goes on from to QUALIFY (R129). -/
structure SweepProceeds (p : PortIx) (c : ChanIx) (newMap : Vector MapEntry 8) (newWidth : Option Width) (ds : List Detail) (s t : State) :
    Prop extends OnlyPort p s t where
  esu : t.esu = s.esu.free c
  channel : (t.port p).channel = none
  map : (t.port p).map = newMap
  width : (t.port p).width = newWidth
  attempts : (t.port p).attempts = (s.port p).attempts
  cycle : (t.port p).cycle = (s.port p).cycle
  counters : (t.port p).counters = (s.port p).counters
  moved : (t.port p).state ≠ .manual
  paused : (s.port p).mode = .step → (t.port p).state = .paused ∧ (t.port p).pending = some .qualify ∧ ((s.port p).Still →
    t.reports = s.reports.enterAll s.time.clock (portReports p (ds ++
      [.stagePause .qualify, .portState .tune .paused (some .qualify) none (s.port p).cycle (s.port p).attempts])))
  entered : (s.port p).mode ≠ .step → (∀ m f, (s.lane p m).rx.far = some f → f.stage = .disc ∨ f.stage = .wait) →
    (t.port p).state = .qualify ∧ (t.port p).stageTimer = secondsTimer s.settings.farEndWait ∧
    (t.port p).qualify = some { begun := false, entries := { s.port p with map := newMap }.byLogical.map QualEntry.start } ∧
    ((s.port p).Still → t.reports = s.reports.enterAll s.time.clock (portReports p (ds ++
      [.portState .tune .qualify none none (s.port p).cycle (s.port p).attempts])))

/-- A port on its way from a sweep to QUALIFY, at the width it had or at half of it. -/
structure Local.Going (s : State) (p : PortIx) (c : ChanIx) (w : Local) (ds : List Detail) : Prop where
  state : w.port.state = .tune
  undone : w.undoneEsu p = s.esu.free c
  queue : s.esu.queue = []
  mode : w.port.mode = (s.port p).mode
  attempts : w.port.attempts = (s.port p).attempts
  cycle : w.port.cycle = (s.port p).cycle
  counters : w.port.counters = (s.port p).counters
  kept : w.kept = []
  told : w.told = portReports p ds
  still : (s.port p).Still → w.port.Still
  far : ∀ m, (w.port.lane m).rx.far = (s.lane p m).rx.far

theorem Local.Swept.going (h : k.Swept s p c) (told : k.told = portReports p [detail]) : k.Going s p c [detail] :=
  ⟨h.state, h.undoneEsu, h.queue, h.course.mode, h.attempts, h.cycle, h.counters, h.kept, told, h.still, h.far⟩

/-- Half width on the way (R130). -/
theorem Local.Going.halved (h : w.Going s p c ds) :
    (w.reduceWidth p .sweep).Going s p c (ds ++ [.widthReduced .sweep w.port.dropped]) where
  state := h.state
  undone := h.undone
  queue := h.queue
  mode := h.mode
  attempts := h.attempts
  cycle := h.cycle
  counters := h.counters
  kept := h.kept
  told := by
    show w.told ++ portReports p [.widthReduced .sweep w.port.dropped] = _
    rw [h.told, portReports, portReports, portReports, List.map_append]
  still still := Local.reduceWidth_still (h.still still)
  far m := by
    obtain ⟨_, _, _, lane⟩ := w.reduceWidth_lane p .sweep m
    rw [lane]
    exact h.far m

theorem Local.Going.proceeds (h : w.Going s p c ds) : ∃ t, (((s.put p w).toQualify p).grantTest).done = .next t ∧
    SweepProceeds p c w.port.map w.port.width ds s t ∧ w.port.SameLine (t.port p) := by
  have goes := w.toQualify_proceeds p s.settings
  have esu : (w.toQualify p s.settings).esu = s.esu.free c := goes.esu.trans h.undone
  rw [State.put_toQualify, State.put_grantTest (by rw [esu]; exact .inl h.queue)]
  obtain ⟨t, runs, became⟩ := State.put_done s p (w.toQualify p s.settings)
  have reports : ∀ es : List Detail, (w.toQualify p s.settings).told = w.told ++ portReports p es →
      t.reports = s.reports.enterAll s.time.clock (portReports p (ds ++ es)) := fun es spoken => by
    rw [became.reports, spoken, goes.kept, h.kept, h.told, List.append_nil, portReports, portReports, portReports, List.map_append]
  refine ⟨t, runs, { became.toOnlyPort with
    esu := became.esu.trans esu
    channel := by rw [became.port, goes.channel]
    map := by rw [became.port, goes.map]
    width := by rw [became.port, goes.width]
    attempts := by rw [became.port, goes.attempts, h.attempts]
    cycle := by rw [became.port, goes.cycle, h.cycle]
    counters := by rw [became.port, goes.counters, h.counters]
    moved := by rw [became.port]; exact goes.moved
    paused := fun step => ?_
    entered := fun auto behind => ?_ }, by rw [became.port]; exact goes.line⟩
  · obtain ⟨state, pending, told⟩ := goes.paused (h.mode.trans step)
    refine ⟨by rw [became.port, state], by rw [became.port, pending], fun still => reports _ ?_⟩
    rw [told (h.still still), h.state, h.cycle, h.attempts]
  · have behind' : w.port.farBehind [.disc, .wait] := .inl fun m f far => by
      simpa using behind m f ((h.far m).symm.trans far)
    obtain ⟨state, timer, record, told⟩ := goes.entered (by rw [h.mode]; exact auto) behind'
    refine ⟨by rw [became.port, state], by rw [became.port, timer], ?_, fun still => reports _ ?_⟩
    · rw [became.port, record, Port.byLogical_congr (x := w.port) (y := { s.port p with map := w.port.map }) rfl]
    · rw [told (h.still still), h.state, h.cycle, h.attempts]

/-! ### The outcome (R129) -/

/-- A swept lane without a usable point. -/
theorem SweepLane.failed_iff (z : SweepLane) : z.failed = true ↔ z.result ≠ some .converged ∧ z.result ≠ some .edge := by
  rw [SweepLane.failed, decide_eq_true_iff]
  rcases z.result with _ | (_ | _ | _) <;> decide

theorem SweepLane.not_all_converge (failed : ∃ z ∈ ys, z.failed = true) : ¬(ys.all fun y => !y.failed) = true := by
  obtain ⟨z, hz, fails⟩ := failed
  intro all
  have := List.all_eq_true.1 all z hz
  rw [fails] at this
  cases this

/-- Half width saves a sweep: failed lanes of the upper half alone, FULL now, and the policy allows it (R129). -/
def State.sweepHalves (s : State) (p : PortIx) (ys : List SweepLane) : Prop :=
  (s.port p).width = some .full ∧ (∃ n, (s.port p).snapshot = some n ∧ n.entry.width = .halfOk) ∧
    ∀ z ∈ ys, z.failed = true → (if (s.port p).L = 4 then 2 else 4) ≤ z.logical.val

/-- A failed attempt keeps its port out of MANUAL. -/
theorem SweepRetried.moved (h : SweepRetried p c detail s t) : (t.port p).state ≠ .manual := by
  rcases Nat.lt_or_ge (s.port p).attempts 2 with early | third
  · by_cases step : (s.port p).mode = .step
    · rw [(h.paused early step).1]; decide
    · rcases Nat.lt_or_ge s.settings.sweepLimit s.esu.busy with full | few
      · rw [(h.waits early step full).1]; decide
      · rw [(h.granted early step few).1]; decide
  · rw [(h.third third).1]; decide

section Outcome

variable (h : k.Swept s p c) (told : k.told = portReports p [detail])
include h told

theorem Local.Swept.converges (all : ∀ z ∈ ys, ¬z.failed = true) : ∃ t, (((s.put p k).sweepOutcome p ys).grantTest).done = .next t ∧
    SweepProceeds p c (s.port p).map (s.port p).width [detail] s t ∧ k.port.SameLine (t.port p) := by
  have outcome : (s.put p k).sweepOutcome p ys = (s.put p k).toQualify p :=
    if_pos (List.all_eq_true.2 fun z hz => by simpa using all z hz)
  rw [outcome, ← h.course.map, ← h.course.width]
  exact (h.going told).proceeds

omit told in
theorem Local.Swept.L : k.port.L = (s.port p).L := by
  rw [Port.L, Port.L, Port.laneCount, Port.laneCount, h.course.snapshot, h.state, h.was]

omit told in
theorem Local.Swept.halves_iff : (k.port.mayHalve = true ∧ (ys.all fun y => !y.failed || y.spared k.port.L) = true) ↔ s.sweepHalves p ys := by
  rw [Port.mayHalve_iff, h.course.width, h.course.snapshot, List.all_eq_true, State.sweepHalves, and_assoc, h.L]
  refine and_congr_right fun _ => and_congr_right fun _ => forall₂_congr fun z _ => ?_
  rw [SweepLane.spared, Port.half_eq]
  cases z.failed <;> simp

theorem Local.Swept.halves (failed : ∃ z ∈ ys, z.failed = true) (may : s.sweepHalves p ys) :
    ∃ t, (((s.put p k).sweepOutcome p ys).grantTest).done = .next t ∧ SweepProceeds p c
      (Vector.ofFn fun m : LanePos => if (∃ i, (s.port p).map[m].logical = some i ∧ (if (s.port p).L = 4 then 2 else 4) ≤ i.val)
        then { (s.port p).map[m] with logical := none } else (s.port p).map[m]) (some .half)
      [detail, .widthReduced .sweep (allLanes.filter fun m =>
        decide (∃ i, (s.port p).map[m].logical = some i ∧ (if (s.port p).L = 4 then 2 else 4) ≤ i.val))] s t ∧
      k.port.SameLine (t.port p) := by
  have outcome : (s.put p k).sweepOutcome p ys = ((s.put p k).reduceWidth p .sweep).toQualify p := by
    rw [State.sweepOutcome, if_neg (SweepLane.not_all_converge failed), State.put_port, if_pos (h.halves_iff.2 may)]
  have map : (k.reduceWidth p .sweep).port.map = _ := k.port.halve_map
  have dropped := k.port.dropped_eq
  rw [h.L, h.course.map] at map dropped
  obtain ⟨t, runs, goes, line⟩ := (h.going told).halved.proceeds
  rw [map, dropped] at goes
  rw [outcome, State.put_reduceWidth]
  exact ⟨t, runs, goes, Local.reduceWidth_sameLine.trans line⟩

theorem Local.Swept.fails (failed : ∃ z ∈ ys, z.failed = true) (mayNot : ¬s.sweepHalves p ys) {w : Sweep}
    (busy : s.esu.channels[c] = some w) : ∃ t, (((s.put p k).sweepOutcome p ys).grantTest).done = .next t ∧
      SweepRetried p c detail s t ∧ k.port.SameLine (t.port p) := by
  have outcome : (s.put p k).sweepOutcome p ys = (s.put p k).failedAttempt p .tuneFail := by
    rw [State.sweepOutcome, if_neg (SweepLane.not_all_converge failed), State.put_port, if_neg fun both => mayNot (h.halves_iff.1 both)]
  rw [outcome]
  exact h.retried told busy

end Outcome

end Sys2Proof.Machine
end

section
/-! SUPPORT. Sweep events: the statement settled (R35, R99, R121, R123 to R131). -/

namespace Sys2Proof.Machine

variable {s t u : State} {p : PortIx} {k : Local} {l m : LanePos} {c : ChanIx} {w : Sweep} {x : Port} {detail : Detail}
  {ys : List SweepLane} {z : SweepLane} {v : Byte} {me : LocalId}

/-! ### The walk after a figure (R123 to R125) -/

section Figure

variable (phase : z.phase = .measure)
include phase

theorem SweepLane.figureArrived_gain (h : z.point.gain.val + 1 < 16) : z.figureArrived v =
    { z with measured := z.measured + 1, best := some (bestAfter z.best z.point v)
             point := { z.point with gain := ⟨z.point.gain.val + 1, h⟩ } } := by
  rw [SweepLane.figureArrived_of_measure phase, SweepLane.advance_gain (y := z.noted v) _ h]
  rfl

theorem SweepLane.figureArrived_post (last : z.point.gain = 15) (h : z.point.post.val + 1 < 16) : z.figureArrived v =
    { z with measured := z.measured + 1, best := some (bestAfter z.best z.point v), phase := .settle
             point := { z.point with post := ⟨z.point.post.val + 1, h⟩ } } := by
  have top : ¬(z.noted v).point.gain.val + 1 < 16 := by show ¬z.point.gain.val + 1 < 16; rw [last]; decide
  rw [SweepLane.figureArrived_of_measure phase, SweepLane.advance_far _ top (Point.nextFar_post h)]
  rfl

theorem SweepLane.figureArrived_pre (last : z.point.gain = 15) (full : z.point.post = 15) (h : z.point.pre.val + 1 < 8) :
    z.figureArrived v = { z with measured := z.measured + 1, best := some (bestAfter z.best z.point v), phase := .settle
                                 point := { z.point with pre := ⟨z.point.pre.val + 1, h⟩, post := 0 } } := by
  have top : ¬(z.noted v).point.gain.val + 1 < 16 := by show ¬z.point.gain.val + 1 < 16; rw [last]; decide
  rw [SweepLane.figureArrived_of_measure phase, SweepLane.advance_far _ top (Point.nextFar_pre full h)]
  rfl

theorem SweepLane.figureArrived_last (last : z.point.gain = 15) (full : z.point.post = 15) (all : z.point.pre = 7) :
    z.figureArrived v = { z with measured := z.measured + 1, best := some (bestAfter z.best z.point v), phase := .closing
                                 point := (bestAfter z.best z.point v).point } := by
  have top : ¬(z.noted v).point.gain.val + 1 < 16 := by show ¬z.point.gain.val + 1 < 16; rw [last]; decide
  rw [SweepLane.figureArrived_of_measure phase, SweepLane.advance_last _ top (Point.nextFar_last full all)]
  rfl

end Figure

theorem Fin.eq_last_or_lt {n : Nat} (a b : Fin n) (h : b.val + 1 = n) : a = b ∨ a.val + 1 < n := by
  have := a.isLt
  rcases Nat.lt_or_ge (a.val + 1) n with low | high
  · exact .inr low
  · exact .inl (Fin.ext (by omega))

/-! ### The end of a sweep -/

theorem State.put_endSweep (s : State) (p : PortIx) (k : Local) (c : ChanIx) (own : w.port = p) (detail : Detail) :
    (s.put p k).endSweep c w detail =
      ((s.put p ((k.setEsu (k.esu.free c)).tell (portReports p [detail]))).sweepOutcome p w.lanes).grantTest := by
  rw [State.endSweep, own, State.put_esu, State.put_setEsu, State.put_postPort]

/-- A port of which no more than its lanes differ, its channel freed and the sweep's report posted. -/
theorem Local.swept_of {y : Port} (tune : (s.port p).state = .tune) (channel : (s.port p).channel = some c) (queue : s.esu.queue = [])
    (record : { y with lanes := (s.port p).lanes } = s.port p)
    (lanes : ∀ m, (y.lane m).autoLoop = (s.lane p m).autoLoop ∧ (y.lane m).rx = (s.lane p m).rx) (detail : Detail) :
    Local.Swept s p c { port := y, esu := s.esu.free c, told := portReports p [detail], kept := [] } := by
  have field : ∀ {α : Type} (f : Port → α), f { y with lanes := (s.port p).lanes } = f (s.port p) := fun f => congrArg f record
  exact
    { was := tune
      state := (field Port.state).trans tune
      channel := (field Port.channel).trans channel
      esu := rfl
      queue := queue
      course := ⟨field Port.mode, field Port.snapshot, field Port.neighbour, field Port.verdict,
        field Port.accepted, field Port.map, field Port.mapClass, field Port.width, field Port.unstable⟩
      attempts := field Port.attempts
      cycle := field Port.cycle
      counters := field Port.counters
      kept := rfl
      still still m := (lanes m).1.trans (still m)
      far m := congrArg Receiver.far (lanes m).2 }

/-- What the results of a sweep come to (R129). -/
structure SweepEnded (p : PortIx) (c : ChanIx) (detail : Detail) (ys : List SweepLane) (s t : State) : Prop where
  moved : (t.port p).state ≠ .manual
  converges : (∀ z ∈ ys, ¬z.failed = true) → SweepProceeds p c (s.port p).map (s.port p).width [detail] s t
  halves : (∃ z ∈ ys, z.failed = true) → s.sweepHalves p ys → SweepProceeds p c
    (Vector.ofFn fun m : LanePos => if (∃ i, (s.port p).map[m].logical = some i ∧ (if (s.port p).L = 4 then 2 else 4) ≤ i.val)
      then { (s.port p).map[m] with logical := none } else (s.port p).map[m]) (some .half)
    [detail, .widthReduced .sweep (allLanes.filter fun m =>
      decide (∃ i, (s.port p).map[m].logical = some i ∧ (if (s.port p).L = 4 then 2 else 4) ≤ i.val))] s t
  fails : (∃ z ∈ ys, z.failed = true) → ¬s.sweepHalves p ys → SweepRetried p c detail s t

theorem Local.Swept.ended (h : k.Swept s p c) (told : k.told = portReports p [detail]) (busy : s.esu.channels[c] = some w)
    (ys : List SweepLane) : ∃ t, (((s.put p k).sweepOutcome p ys).grantTest).done = .next t ∧ SweepEnded p c detail ys s t ∧
      k.port.SameLine (t.port p) := by
  by_cases failed : ∃ z ∈ ys, z.failed = true
  · by_cases may : s.sweepHalves p ys
    · obtain ⟨t, runs, goes, line⟩ := h.halves told failed may
      exact ⟨t, runs, ⟨goes.moved, fun all => absurd failed fun ⟨z, hz, fails⟩ => all z hz fails, fun _ _ => goes,
        fun _ mayNot => absurd may mayNot⟩, line⟩
    · obtain ⟨t, runs, goes, line⟩ := h.fails told failed may busy
      exact ⟨t, runs, ⟨goes.moved, fun all => absurd failed fun ⟨z, hz, fails⟩ => all z hz fails, fun _ yes => absurd yes may,
        fun _ _ => goes⟩, line⟩
  · have all : ∀ z ∈ ys, ¬z.failed = true := fun z hz fails => failed ⟨z, hz, fails⟩
    obtain ⟨t, runs, goes, line⟩ := h.converges told all
    exact ⟨t, runs, ⟨goes.moved, fun _ => goes, fun yes => absurd yes failed, fun yes => absurd yes failed⟩, line⟩

/-! ### The watchdog (R128) -/

theorem exec_watchdogExpiry_of_sweep (tune : (s.port p).state = .tune) (channel : (s.port p).channel = some c)
    (busy : s.esu.channels[c] = some w) (own : w.port = p) (queue : s.esu.queue = []) :
    ∃ t, exec (.watchdogExpiry c) s = .next t ∧
      SweepEnded p c (.sweepTimeout c (w.lanes.map SweepLane.timedOut)) (w.lanes.map SweepLane.timedOut) s t ∧
      (s.port p).SameLine (t.port p) := by
  have expires : s.opened.watchdog c =
      s.opened.endSweep c { w with lanes := w.lanes.map SweepLane.timedOut } (.sweepTimeout c (w.lanes.map SweepLane.timedOut)) := by
    rw [State.watchdog, show s.opened.esu.channels[c] = some w from busy]
  rw [State.opened_eq_put s p, State.put_endSweep (w := { w with lanes := w.lanes.map SweepLane.timedOut }) s p (s.held p) c own] at expires
  have swept := Local.swept_of (y := s.port p) tune channel queue rfl (fun _ => ⟨rfl, rfl⟩)
    (.sweepTimeout c (w.lanes.map SweepLane.timedOut))
  obtain ⟨t, runs, ended⟩ := swept.ended rfl busy (w.lanes.map SweepLane.timedOut)
  refine ⟨t, ?_, ended⟩
  show execWatchdogExpiry c s = _
  rw [execWatchdogExpiry, State.opened_eq_put s p, expires]
  exact runs

/-! ### The last beacon of a sweep (R125, R127) -/

theorem State.done_port (runs : u.done = .next t) (q : PortIx) : t.port q = u.port q := by
  obtain ⟨t', same, ends⟩ := u.done_ends
  cases runs.symm.trans same
  exact ends.ports q

theorem State.hearOwn_of_moved (runs : u.done = .next t) (moved : (t.port p).state ≠ .manual) (bytes : List Byte) :
    (u.hearOwn p l bytes).done = .next t := by
  rw [State.hearOwn_of_not (Port.nearEnd_of_not_manual (by rw [← State.done_port runs p]; exact moved) l), runs]

theorem exec_beaconTransmit_of_last (tune : (s.port p).state = .tune) (channel : (s.port p).channel = some c)
    (busy : s.esu.channels[c] = some w) (own : w.port = p) (queue : s.esu.queue = []) (identity : s.identity = some me)
    (content : (s.port p).content l = .prbs) (idle : (s.lane p l).injection = none)
    (last : (w.modLane l SweepLane.beaconSent).complete = true) :
    ∃ t, exec (.beaconTransmit p l) s = .next t ∧
      SweepEnded p c (.sweepDone c (s.time.clock - w.start).toNat (w.modLane l SweepLane.beaconSent).lanes)
        (w.modLane l SweepLane.beaconSent).lanes s t ∧
      (((s.port p).modLane l fun y => { y with sent := some ((s.beaconOf p l me).bytes false) }).withGains
        (w.modLane l SweepLane.beaconSent).lanes).SameLine (t.port p) := by
  have runs := exec_beaconTransmit_of_tune tune identity content idle
  generalize (s.beaconOf p l me).bytes false = bytes at *
  generalize hv : w.modLane l SweepLane.beaconSent = v at *
  have own' : v.port = p := by rw [← hv]; exact own
  have start : v.start = w.start := by rw [← hv]; rfl
  have sweep : (s.put p ((s.held p).modPort (·.modLane l fun y => { y with sent := some bytes }))).sweepOf p = some (c, w) :=
    State.sweepOf_of (by rw [State.put_port]; exact channel) busy
  rw [State.opened_eq_put s p, State.put_modLane, State.sweepBeacon_ends sweep (by rw [hv]; exact last), hv, State.completeSweep,
    State.put_writeGains _ _ _ own', State.put_endSweep _ _ _ _ own'] at runs
  obtain ⟨record, lanes⟩ := ((s.port p).modLane l fun y => { y with sent := some bytes }).withGains_kept v.lanes
  have sent : ∀ m, (((s.port p).modLane l fun y => { y with sent := some bytes }).lane m).autoLoop = (s.lane p m).autoLoop ∧
      (((s.port p).modLane l fun y => { y with sent := some bytes }).lane m).rx = (s.lane p m).rx :=
    Port.modLane_all (P := fun m z => z.autoLoop = (s.lane p m).autoLoop ∧ z.rx = (s.lane p m).rx) ⟨rfl, rfl⟩ fun _ _ => ⟨rfl, rfl⟩
  have swept := Local.swept_of (s := s) (p := p) (c := c) tune channel queue
    (congrArg (fun z : Port => { z with lanes := (s.port p).lanes }) record)
    (fun m => ⟨(congrArg Lane.autoLoop (lanes m)).trans (sent m).1, (congrArg Lane.rx (lanes m)).trans (sent m).2⟩)
    (.sweepDone c (s.time.clock - w.start).toNat v.lanes)
  obtain ⟨t, goes, ended, line⟩ := swept.ended rfl busy v.lanes
  refine ⟨t, runs.trans (State.hearOwn_of_moved ?_ ended.moved bytes), ended, line⟩
  rw [State.since, start]
  exact goes

end Sys2Proof.Machine
end

section
/-! SUPPORT. Sweep events: the statement settled. -/

namespace Sys2Proof.Machine

variable {s t : State} {p : PortIx} {l m : LanePos} {c : ChanIx} {w : Sweep} {z : SweepLane} {me : LocalId} {ys : List SweepLane}
  {f : SweepLane → SweepLane} {g : SweepLane → SweepLane} {v : Byte}

theorem exec_beaconTransmit_settles (tune : (s.port p).state = .tune) (sweep : s.sweepOf p = some (c, w)) (identity : s.identity = some me)
    (content : (s.port p).content l = .prbs) (idle : (s.lane p l).injection = none)
    (found : w.lanes.find? (fun y => decide (y.pos = l)) = some z) (phase : z.phase = .settle) :
    exec (.beaconTransmit p l) s = .next ({ s with esu := { s.esu with channels := s.esu.channels.set c (some (w.modLane l SweepLane.beaconSent)) } }.modLane p l fun y =>
        { y with sent := some ((s.beaconOf p l me).bytes false) }).settled := by
  have here : z.pos = l := by simpa using List.find?_some found
  have unfinished : (w.modLane l SweepLane.beaconSent).complete = false := Bool.eq_false_iff.2 fun all => by
    have member : z.beaconSent ∈ (w.modLane l SweepLane.beaconSent).lanes :=
      List.mem_map.2 ⟨z, List.mem_of_find?_eq_some found, if_pos here⟩
    have := of_decide_eq_true (List.all_eq_true.1 all _ member)
    rw [SweepLane.beaconSent_settle phase] at this
    cases this
  have runs := exec_beaconTransmit_of_tune tune identity content idle
  generalize (s.beaconOf p l me).bytes false = bytes at *
  have port := State.modLane_here s.opened p l fun y => { y with sent := some bytes }
  have sweep' : (s.opened.modLane p l fun y => { y with sent := some bytes }).sweepOf p = some (c, w) := by
    rw [State.sweepOf, port]
    exact sweep
  rw [runs, State.sweepBeacon_goes_on sweep' unfinished, State.hearOwn_of_not (Port.nearEnd_of_not_manual (by
    show ((s.opened.modLane p l fun y => { y with sent := some bytes }).port p).state ≠ _
    rw [port]
    show (s.port p).state ≠ _
    rw [tune]
    decide) l)]
  exact State.done_of_none rfl

/-- A lane of a record and what a closing beacon makes of it. -/
theorem Sweep.closed_lanes (phases : ∀ z ∈ w.lanes, if z.pos = l then z.phase = .closing else z.phase = .finished) :
    (w.modLane l SweepLane.beaconSent).lanes = w.lanes.map (fun z => if z.pos = l then
      { z with phase := .finished, result := some (resultOf z.best) } else z) ∧
    (w.modLane l SweepLane.beaconSent).complete = true := by
  have lanes : (w.modLane l SweepLane.beaconSent).lanes = w.lanes.map (fun z => if z.pos = l then
      { z with phase := .finished, result := some (resultOf z.best) } else z) := List.map_congr_left fun z hz => by
    have phase := phases z hz
    split
    · next here => rw [if_pos here] at phase; exact SweepLane.beaconSent_closing phase
    · rfl
  refine ⟨lanes, ?_⟩
  rw [Sweep.complete, lanes]
  refine List.all_eq_true.2 fun y hy => decide_eq_true ?_
  obtain ⟨z, hz, rfl⟩ := List.mem_map.1 hy
  have phase := phases z hz
  by_cases here : z.pos = l
  · rw [if_pos here]
  · rw [if_neg here] at phase ⊢
    exact phase

theorem Port.withGains_sent (x : Port) (ys : List SweepLane) (m : LanePos) : ((x.withGains ys).lane m).sent = (x.lane m).sent := by
  have sent := congrArg Lane.sent ((x.withGains_kept ys).2 m)
  exact sent

/-- Lanes that keep their places and best points are found with them. -/
theorem find?_best (places : ∀ z, (f z).pos = z.pos) (best : ∀ z, (f z).best = z.best) (ys : List SweepLane) (m : LanePos) :
    ((ys.map f).find? fun z => decide (z.pos = m)).bind SweepLane.best = (ys.find? fun z => decide (z.pos = m)).bind SweepLane.best := by
  rw [List.find?_map]
  have same : ((fun z : SweepLane => decide (z.pos = m)) ∘ f) = fun z => decide (z.pos = m) := funext fun z => by
    rw [Function.comp_apply, places]
  rw [same]
  cases ys.find? fun z => decide (z.pos = m) with
  | none => rfl
  | some z => exact best z

/-- Settles O52: the walk's events, and the ends of a sweep with what its lanes' results come to. -/
theorem sweepEventsAdvanceAndEnd : Obligations.SweepEventsAdvanceAndEnd := by
  intro p l c w s tune channel busy own x put half failed halves retried proceeds halved
  have sweep := State.sweepOf_of channel busy
  have goes : ∀ {d : Detail} {m : Vector MapEntry 8} {v : Option Width} {ds : List Detail} {t : State},
      SweepProceeds p c m v (d :: ds) s t → proceeds d m v ds t := fun h =>
    ⟨h.toOnlyPort, h.esu, h.channel, h.map, h.width, h.attempts, h.cycle, h.counters, h.paused, h.entered⟩
  have retries : ∀ {d : Detail} {t : State}, SweepRetried p c d s t → retried d t := fun h =>
    ⟨h.toOnlyPort, h.course, h.attempts, h.cycle, fun third => h.third third.ge, h.paused,
      fun early auto => ⟨h.queued early auto, h.waits early auto, h.granted early auto⟩⟩
  have halves_iff : ∀ ys, halves ys ↔ s.sweepHalves p ys := fun ys => by
    refine and_congr_right fun _ => and_congr_right fun _ => forall₂_congr fun z _ => ?_
    rw [SweepLane.failed_iff]
  have some_failed : ∀ {ys : List SweepLane}, (∃ z ∈ ys, failed z) → ∃ z ∈ ys, z.failed = true := fun ⟨z, hz, fails⟩ =>
    ⟨z, hz, z.failed_iff.2 fails⟩
  refine ⟨fun z found => ?_, fun v g idle step => ?_, fun me z identity content found phase idle =>
    ⟨⟨s.beaconOf p l me, ?_, rfl, ?_, rfl, exec_beaconTransmit_settles tune sweep identity content idle found phase⟩,
      SweepLane.beaconSent_settle phase⟩, fun me slots queue identity content idle once here phases => ?_,
    fun slots queue unfinished => ?_⟩
  · rw [State.gainInUse, State.sweepLane_of sweep, found]
  · rw [exec_figureOfMerit_of_sweep tune sweep, Sweep.modLane_congr (g := g)]
    · rfl
    · intro z hz _
      by_cases phase : z.phase = .measure
      · obtain ⟨gains, far⟩ := step z hz phase
        rcases Fin.eq_last_or_lt z.point.gain 15 rfl with last | more
        · rcases Fin.eq_last_or_lt z.point.post 15 rfl with full | next
          · rcases Fin.eq_last_or_lt z.point.pre 7 rfl with all | next
            · rw [((far last).2 full).2 all, SweepLane.figureArrived_last phase last full all, bestAfter_eq] <;> rfl
            · rw [((far last).2 full).1 next, SweepLane.figureArrived_pre phase last full next, bestAfter_eq] <;> rfl
          · rw [(far last).1 next, SweepLane.figureArrived_post phase last next, bestAfter_eq] <;> rfl
        · rw [gains more, SweepLane.figureArrived_gain phase more, bestAfter_eq] <;> rfl
      · rw [SweepLane.figureArrived_of_idle phase, idle z hz phase]
  · show s.sentTap p l = _
    rw [State.sentTap, State.sweepLane_of sweep, found]
    rfl
  · show (s.port p).sentStage = _
    rw [Port.sentStage_eq, tune]
    rfl
  · obtain ⟨lanes, complete⟩ := Sweep.closed_lanes phases
    obtain ⟨t, runs, ended, line⟩ := exec_beaconTransmit_of_last tune channel busy own queue identity content idle complete
    rw [lanes] at ended line
    have positions : ((w.lanes.map fun z => if z.pos = l then
        { z with phase := .finished, result := some (resultOf z.best) } else z).map SweepLane.pos).Nodup := by
      rw [List.map_map]
      refine Eq.subst (motive := List.Nodup) (List.map_congr_left fun z _ => ?_) once
      rw [Function.comp_apply]
      split <;> rfl
    refine ⟨t, runs, ?_, fun k => ?_, fun all => goes (ended.converges fun z hz => by rw [z.failed_iff]; exact all z hz),
      fun some may => goes (ended.halves (some_failed some) ((halves_iff _).1 may)),
      fun some mayNot => retries (ended.fails (some_failed some) fun may => mayNot ((halves_iff _).2 may))⟩
    · have sent := ((line l).2.trans (Port.withGains_sent ..)).trans
        (congrArg Lane.sent (Port.lane_modLane_self ..))
      exact fun none_sent => Option.some_ne_none _ (sent.symm.trans none_sent)
    · have before : (((s.port p).modLane l fun y => { y with sent := some ((s.beaconOf p l me).bytes false) }).lane k).eq =
          (s.lane p k).eq := Port.modLane_all (P := fun m z => z.eq = (s.lane p m).eq) rfl (fun _ _ => rfl) k
      refine (line k).1.trans ?_
      rw [Port.withGains_eq _ positions, before, find?_best (fun z => by split <;> rfl) (fun z => by split <;> rfl)] <;> rfl
  · obtain ⟨t, runs, ended, line⟩ := exec_watchdogExpiry_of_sweep tune channel busy own queue
    obtain ⟨z, hz, on⟩ := unfinished
    have lost : ∃ z ∈ w.lanes.map SweepLane.timedOut, z.failed = true :=
      ⟨z.timedOut, List.mem_map_of_mem hz, by rw [SweepLane.timedOut, if_neg on]; rfl⟩
    exact ⟨t, runs, fun k => (line k).1, fun may => goes (ended.halves lost ((halves_iff _).1 may)),
      fun mayNot => retries (ended.fails lost fun may => mayNot ((halves_iff _).2 may))⟩

end Sys2Proof.Machine
end

section
/-! SUPPORT. The end of a monitor period (R149 to R152): the millisecond, and the judging of every monitored lane. -/

namespace Sys2Proof.Machine

variable {s t u v : State} {p q : PortIx} {k j : Local} {l m : LanePos} {x : Port} {y : Lane} {n : Nat} {ks : List (PortIx × LanePos)}
  {a : PortIx × LanePos}

/-! ### The millisecond (log entry 3) -/

theorem State.tick_port (s : State) (p : PortIx) : s.tick.port p = (s.port p).tick := by
  show (Vector.ofFn fun p : PortIx => (s.port p).tick)[p] = _
  exact Vector.getElem_ofFn p.isLt

theorem Port.tick_lane (x : Port) (l : LanePos) : x.tick.lane l = (x.lane l).tick := Port.mapLanes_lane ..

theorem State.tick_lane (s : State) (p : PortIx) (l : LanePos) : s.tick.lane p l = (s.lane p l).tick := by
  rw [State.lane, State.tick_port, Port.tick_lane]
  rfl

theorem Esu.tick_channels (e : Esu) : e.tick.channels = e.channels.map fun o => o.map fun w => { w with watchdog := w.watchdog - 1 } := by
  refine Vector.ext fun i hi => ?_
  rw [Esu.tick, Vector.getElem_ofFn hi, Vector.getElem_map]
  rfl

/-! ### One lane judges its period (R150) -/

/-- A lane whose period has ended, where it is monitored. -/
def Lane.judged (y : Lane) (watched : Bool) (threshold : Nat) : Lane :=
  if watched then
    if y.monitor.errored threshold then Lane.bumped { y with monitor := y.monitor.endPeriod threshold } ctrErrPeriods 1
    else { y with monitor := y.monitor.endPeriod threshold }
  else y

theorem Lane.judged_idle (y : Lane) (threshold : Nat) : y.judged false threshold = y := rfl

theorem Lane.judged_of_errored {threshold : Nat} (h : y.monitor.errored threshold = true) : y.judged true threshold =
    Lane.bumped { y with monitor := y.monitor.endPeriod threshold } ctrErrPeriods 1 := by
  rw [Lane.judged, if_pos rfl, if_pos h]

theorem Lane.judged_of_fine {threshold : Nat} (h : ¬y.monitor.errored threshold = true) : y.judged true threshold =
    { y with monitor := y.monitor.endPeriod threshold } := by
  rw [Lane.judged, if_pos rfl, if_neg h]

/-- The judging writes the monitor record and the counter of errored periods. -/
theorem Lane.judged_kept (y : Lane) (watched : Bool) (threshold : Nat) :
    { y.judged watched threshold with monitor := y.monitor, counters := y.counters } = y := by
  unfold Lane.judged
  split_ifs <;> rfl

theorem Lane.judged_hunt (y : Lane) (watched : Bool) (threshold : Nat) : (y.judged watched threshold).monitor.hunt = y.monitor.hunt := by
  unfold Lane.judged
  split_ifs <;> rfl

theorem Lane.judged_watched (y : Lane) (threshold : Nat) : (y.judged true threshold).monitor = y.monitor.endPeriod threshold ∧
    (y.judged true threshold).counters = (if y.monitor.errored threshold then y.counters.set ctrErrPeriods
      (y.counters[ctrErrPeriods].bump 65535 1) else y.counters) := by
  rw [Lane.judged, if_pos rfl]
  split <;> exact ⟨rfl, rfl⟩

/-- One port with a lane's period judged. -/
def Local.judge (k : Local) (p : PortIx) (l : LanePos) (threshold : Nat) : Local :=
  if (k.port.lane l).monitor.errored threshold then
    (k.modPort (·.modLane l fun y => { y with monitor := (k.port.lane l).monitor.endPeriod threshold })).countLane p l ctrErrPeriods 1
  else k.modPort (·.modLane l fun y => { y with monitor := (k.port.lane l).monitor.endPeriod threshold })

theorem State.put_judgePeriod (s : State) (p : PortIx) (k : Local) (l : LanePos) (watched : (s.put p k).monitored p l = true) :
    (s.put p k).judgePeriod p l = s.put p (k.judge p l s.settings.errThreshold) := by
  rw [State.judgePeriod, if_pos watched, Local.judge]
  simp only [State.put_lane, State.put_modLane, State.put_countLane, State.put_settings]
  split <;> rfl

theorem Local.judge_port (k : Local) (p : PortIx) (l : LanePos) (threshold : Nat) :
    (k.judge p l threshold).port = k.port.modLane l (·.judged true threshold) := by
  unfold Local.judge
  split
  · next errored =>
    show (k.port.modLane l fun y => { y with monitor := (k.port.lane l).monitor.endPeriod threshold }).modLane l (·.bumped ctrErrPeriods 1) = _
    rw [Port.modLane_modLane]
    refine Port.modLane_congr ?_
    exact (Lane.judged_of_errored errored).symm
  · next fine =>
    show (k.port.modLane l fun y => { y with monitor := (k.port.lane l).monitor.endPeriod threshold }) = _
    refine Port.modLane_congr ?_
    exact (Lane.judged_of_fine fine).symm

theorem Local.judge_kept (k : Local) (p : PortIx) (l : LanePos) (threshold : Nat)
    (below : (k.port.lane l).counters[ctrErrPeriods].saturates 65535 1 = false) : (k.judge p l threshold).kept = k.kept := by
  unfold Local.judge
  split
  · have quiet : ((k.modPort (·.modLane l fun y => { y with monitor := (k.port.lane l).monitor.endPeriod threshold })).port.lane
        l).saturation p l ctrErrPeriods 1 = [] := by
      rw [Local.modPort_port, Port.lane_modLane_self]
      exact Lane.saturation_of_not below
    show k.kept ++ _ = k.kept
    rw [quiet, List.append_nil]
  · rfl

/-! ### Every lane judges its period -/

/-- Some lanes have judged their periods. -/
structure Judged (ks : List (PortIx × LanePos)) (s t : State) : Prop where
  same : { t with ports := s.ports, deferred := s.deferred } = s
  record : ∀ p, { t.port p with lanes := (s.port p).lanes } = s.port p
  lane : ∀ p l, t.lane p l = if (p, l) ∈ ks then (s.lane p l).judged (s.monitored p l) s.settings.errThreshold else s.lane p l
  kept : (∀ p l, (p, l) ∈ ks → (s.lane p l).counters[ctrErrPeriods].saturates 65535 1 = false) → t.deferred = s.deferred

theorem Judged.refl (s : State) : Judged [] s s :=
  ⟨rfl, fun _ => rfl, fun _ _ => (if_neg List.not_mem_nil).symm, fun _ => rfl⟩

theorem State.judgePeriod_judged (s : State) (p : PortIx) (l : LanePos) : Judged [(p, l)] s (s.judgePeriod p l) := by
  cases watched : s.monitored p l with
  | false =>
    have idle : s.judgePeriod p l = s := if_neg (Bool.eq_false_iff.1 watched)
    rw [idle]
    refine ⟨rfl, fun _ => rfl, fun q m => ?_, fun _ => rfl⟩
    split
    · next here =>
      obtain ⟨rfl, rfl⟩ := Prod.mk.inj (List.mem_singleton.1 here)
      rw [watched, Lane.judged_idle]
    · rfl
  | true =>
    have judges := State.put_judgePeriod s p (s.whole p) l (by rw [State.put_whole]; exact watched)
    rw [State.put_whole] at judges
    have port := (s.whole p).judge_port p l s.settings.errThreshold
    have told : ((s.whole p).judge p l s.settings.errThreshold).told = [] := by unfold Local.judge; split <;> rfl
    have esu : ((s.whole p).judge p l s.settings.errThreshold).esu = s.esu := by unfold Local.judge; split <;> rfl
    have kept := (s.whole p).judge_kept p l s.settings.errThreshold
    rw [judges]
    generalize (s.whole p).judge p l s.settings.errThreshold = j at *
    refine ⟨?_, fun q => ?_, fun q m => ?_, fun below => kept (below p l (by simp))⟩
    · rw [State.put, told, esu]
      rfl
    · by_cases same : q = p
      · rw [same, State.put_port, port]
        rfl
      · rw [State.put_port_of_ne same]
    · by_cases same : q = p
      · rw [same, State.put_lane, port]
        by_cases here : m = l
        · rw [here, if_pos (by simp), Port.lane_modLane_self, watched]
          rfl
        · rw [if_neg (by simp [here]), Port.lane_modLane_of_ne _ _ here]
          rfl
      · rw [if_neg (by simp [same]), State.lane, State.put_port_of_ne same]
        rfl

theorem Judged.field (h : Judged ks s t) {α : Type} (f : Port → α) (p : PortIx) :
    f { t.port p with lanes := (s.port p).lanes } = f (s.port p) := congrArg f (h.record p)

theorem Judged.shared (h : Judged ks s t) {α : Type} (f : State → α) : f { t with ports := s.ports, deferred := s.deferred } = f s :=
  congrArg f h.same

theorem Judged.monitored (h : Judged ks s t) (other : (p, l) ∉ ks) : t.monitored p l = s.monitored p l := by
  have state : (t.port p).state = (s.port p).state := h.field Port.state p
  rw [State.monitored, State.monitored, state, h.lane, if_neg other]

theorem Judged.settings (h : Judged ks s t) : t.settings = s.settings := h.shared State.settings

/-- A lane judges its period after others have. -/
theorem Judged.next (h : Judged [a] s t) (h' : Judged ks t u) (fresh : a ∉ ks) : Judged (a :: ks) s u where
  same := (congrArg (fun v : State => { v with ports := s.ports, deferred := s.deferred }) h'.same).trans h.same
  record p := (congrArg (fun x : Port => { x with lanes := (s.port p).lanes }) (h'.record p)).trans (h.record p)
  lane p l := by
    rw [h'.lane, h.lane, h.settings]
    by_cases here : (p, l) = a
    · subst here
      rw [if_neg fresh, if_pos (by simp), if_pos (by simp)]
    · have other : (p, l) ∉ [a] := by simpa using here
      rw [h.monitored other, if_neg other]
      simp only [List.mem_cons, here, false_or]
  kept below := by
    rw [h'.kept fun p l later => ?_, h.kept fun p l here => below p l (by simp_all)]
    have other : (p, l) ∉ [a] := fun here => fresh (List.mem_singleton.1 here ▸ later)
    rw [h.lane, if_neg other]
    exact below p l (List.mem_cons_of_mem _ later)

theorem State.judge_all (s : State) (once : ks.Nodup) : Judged ks s (ks.foldl (fun t k => t.judgePeriod k.1 k.2) s) := by
  induction ks generalizing s with
  | nil => exact .refl s
  | cons a ks ih =>
    obtain ⟨fresh, once⟩ := List.nodup_cons.1 once
    exact (s.judgePeriod_judged a.1 a.2).next (ih _ once) fresh

theorem allLanes_nodup : allLanes.Nodup := by decide

theorem everyLane_nodup : everyLane.Nodup := List.Nodup.product allPorts_nodup allLanes_nodup

theorem mem_everyLane (p : PortIx) (l : LanePos) : (p, l) ∈ everyLane :=
  List.mem_flatMap.2 ⟨p, mem_allPorts p, List.mem_map.2 ⟨l, mem_allLanes l, rfl⟩⟩

/-- A period ends: every lane judges it a millisecond later, and the triggers are taken. -/
theorem State.periodEnd_judged (s : State) :
    ∃ t, Judged everyLane s.tick t ∧ s.periodEnd = State.takeTriggers t.triggered.length t.triggered t :=
  ⟨_, s.tick.judge_all everyLane_nodup, rfl⟩

end Sys2Proof.Machine
end

section
/-! SUPPORT. The triggers of a period's end, and the statement settled (R150 to R152). -/

namespace Sys2Proof.Machine

variable {s t u v : State} {p q : PortIx} {k j : Local} {l m : LanePos} {x : Port} {y : Lane} {n : Nat} {a : PortIx × LanePos}

/-! ### The state in which every lane has judged its period -/

/-- A millisecond later, every lane's period judged. -/
structure PeriodJudged (s t : State) : Prop where
  same : { t with ports := s.ports, deferred := s.deferred } =
    { s with esu := s.esu.tick, mpt := s.mpt.tick, time := { s.time with clock := s.time.clock + 1 } }
  record : ∀ p, { t.port p with lanes := (s.port p).lanes } =
    { s.port p with stageTimer := (s.port p).stageTimer.map StageTimer.tick, cleanRun := (s.port p).cleanRun.map (· - 1) }
  lane : ∀ p l, t.lane p l = (s.lane p l).tick.judged (s.monitored p l) s.settings.errThreshold
  kept : (∀ p l, (s.lane p l).counters[ctrErrPeriods].saturates 65535 1 = false) → t.deferred = s.deferred

theorem State.tick_monitored (s : State) (p : PortIx) (l : LanePos) : s.tick.monitored p l = s.monitored p l := by
  rw [State.monitored, State.tick_port, State.tick_lane]
  rfl

theorem State.tick_same (s : State) : { s.tick with ports := s.ports, deferred := s.deferred } =
    { s with esu := s.esu.tick, mpt := s.mpt.tick, time := { s.time with clock := s.time.clock + 1 } } := by cases s; rfl

theorem State.tick_deferred (s : State) : s.tick.deferred = s.deferred := by cases s; rfl

theorem Judged.period_same (h : Judged everyLane s.tick t) : { t with ports := s.ports, deferred := s.deferred } =
    { s with esu := s.esu.tick, mpt := s.mpt.tick, time := { s.time with clock := s.time.clock + 1 } } := by
  rw [← s.tick_same]
  exact h.shared fun v => { v with ports := s.ports, deferred := s.deferred }

theorem Judged.period_record (h : Judged everyLane s.tick t) (p : PortIx) : { t.port p with lanes := (s.port p).lanes } =
    { s.port p with stageTimer := (s.port p).stageTimer.map StageTimer.tick, cleanRun := (s.port p).cleanRun.map (· - 1) } := by
  have record := h.field (fun x => { x with lanes := (s.port p).lanes }) p
  rw [State.tick_port] at record
  exact record

theorem Judged.period_lane (h : Judged everyLane s.tick t) (p : PortIx) (l : LanePos) :
    t.lane p l = (s.lane p l).tick.judged (s.monitored p l) s.settings.errThreshold := by
  rw [h.lane, if_pos (mem_everyLane p l), State.tick_lane, State.tick_monitored]
  rfl

theorem Judged.period (h : Judged everyLane s.tick t) : PeriodJudged s t where
  same := h.period_same
  record := h.period_record
  lane := h.period_lane
  kept below := (h.kept fun p l _ => by rw [State.tick_lane]; exact below p l).trans s.tick_deferred

namespace PeriodJudged

variable (h : PeriodJudged s t)
include h

theorem shared {α : Type} (f : State → α) : f { t with ports := s.ports, deferred := s.deferred } =
    f { s with esu := s.esu.tick, mpt := s.mpt.tick, time := { s.time with clock := s.time.clock + 1 } } := congrArg f h.same

theorem field (p : PortIx) {α : Type} (f : Port → α) : f { t.port p with lanes := (s.port p).lanes } =
    f { s.port p with stageTimer := (s.port p).stageTimer.map StageTimer.tick, cleanRun := (s.port p).cleanRun.map (· - 1) } :=
  congrArg f (h.record p)

/-- All of a lane but its monitor record and its counters. -/
theorem laneField (p : PortIx) (l : LanePos) {α : Type} (f : Lane → α) :
    f { t.lane p l with monitor := (s.lane p l).monitor, counters := (s.lane p l).counters } =
      f { (s.lane p l).tick with monitor := (s.lane p l).monitor } := by
  rw [h.lane]
  exact congrArg (fun z : Lane => f { z with monitor := (s.lane p l).monitor })
    ((s.lane p l).tick.judged_kept (s.monitored p l) s.settings.errThreshold)

theorem settings : t.settings = s.settings := h.shared State.settings

theorem monitored (p : PortIx) (l : LanePos) : t.monitored p l = s.monitored p l := by
  rw [State.monitored, State.monitored, show (t.port p).state = (s.port p).state from h.field p Port.state,
    show (t.lane p l).owner = (s.lane p l).owner from h.laneField p l Lane.owner]

end PeriodJudged

theorem State.monitored_iff (s : State) (p : PortIx) (l : LanePos) :
    s.monitored p l = true ↔ (s.port p).state = .active ∧ (s.lane p l).owner = .switch := by
  rw [State.monitored, Bool.and_eq_true, decide_eq_true_iff, decide_eq_true_iff]

/-! ### The triggers (R151) -/

/-- A lane's history with the period that ends at its front. -/
def State.periodHistory (s : State) (p : PortIx) (l : LanePos) : List Bool :=
  (decide (s.settings.errThreshold ≤ (s.lane p l).monitor.errors) :: (s.lane p l).monitor.history).take 6

/-- A monitored lane whose retrain window holds two errored periods. -/
def State.raises (s : State) (p : PortIx) (l : LanePos) : Prop :=
  s.monitored p l = true ∧ 2 ≤ ((s.periodHistory p l).take s.settings.retrain.toNat).count true

theorem Monitor.triggers_iff (r : Monitor) (w : RetrainWindow) : r.triggers w = true ↔ 2 ≤ (r.history.take w.toNat).count true := by
  have count : ((r.history.take w.toNat).filter id).length = (r.history.take w.toNat).count true := by
    rw [List.count, List.countP_eq_length_filter]
    exact congrArg List.length (List.filter_congr fun b _ => by cases b <;> rfl)
  rw [Monitor.triggers, count, Bool.and_eq_true, decide_eq_true_iff, decide_eq_true_iff]
  refine and_iff_right_of_imp fun two off => ?_
  rw [off] at two
  exact absurd two (by simp [RetrainWindow.toNat])

namespace PeriodJudged

variable (h : PeriodJudged s t)
include h

/-- What a monitored lane holds of its periods (R150). -/
theorem watched (watched : s.monitored p l = true) : (t.lane p l).monitor.errors = 0 ∧
    (t.lane p l).monitor.history = s.periodHistory p l ∧
    (t.lane p l).counters = (if decide (s.settings.errThreshold ≤ (s.lane p l).monitor.errors) = true then
      (s.lane p l).counters.set ctrErrPeriods ((s.lane p l).counters[ctrErrPeriods].bump 65535 1) else (s.lane p l).counters) := by
  obtain ⟨monitor, counters⟩ := (s.lane p l).tick.judged_watched s.settings.errThreshold
  rw [h.lane, watched, monitor, counters]
  exact ⟨rfl, rfl, rfl⟩

theorem mem_triggered : (p, l) ∈ t.triggered ↔ s.raises p l := by
  rw [State.triggered, List.mem_filter, and_iff_right (mem_everyLane p l), Bool.and_eq_true, Monitor.triggers_iff, h.monitored, State.raises,
    h.settings]
  refine and_congr_right fun watched => ?_
  obtain ⟨_, history, _⟩ := h.watched watched
  rw [history]

theorem triggered_of_none (none_raises : ∀ p l, ¬s.raises p l) : t.triggered = [] :=
  List.eq_nil_iff_forall_not_mem.2 fun ⟨p, l⟩ here => none_raises p l (h.mem_triggered.1 here)

theorem triggered_of_one (here : s.raises p l) (alone : ∀ q m, s.raises q m → q = p ∧ m = l) : t.triggered = [(p, l)] := by
  have once : t.triggered.Nodup := everyLane_nodup.filter _
  refine List.perm_singleton.1 ((List.perm_ext_iff_of_nodup once (List.nodup_singleton _)).2 fun ⟨q, m⟩ => ?_)
  rw [h.mem_triggered, List.mem_singleton, Prod.mk.injEq]
  refine ⟨alone q m, ?_⟩
  rintro ⟨rfl, rfl⟩
  exact here

end PeriodJudged

theorem exec_monitorPeriodEnd_of_none (none_raises : ∀ p l, ¬s.raises p l) :
    ∃ t, PeriodJudged s.opened t ∧ exec .monitorPeriodEnd s = t.done := by
  obtain ⟨t, judged, ends⟩ := s.opened.periodEnd_judged
  refine ⟨t, judged.period, ?_⟩
  show s.opened.periodEnd.done = _
  rw [ends, judged.period.triggered_of_none none_raises]
  rfl

theorem exec_monitorPeriodEnd_of_one (here : s.raises p l) (alone : ∀ q m, s.raises q m → q = p ∧ m = l) :
    ∃ t, PeriodJudged s.opened t ∧ exec .monitorPeriodEnd s = (t.takeTrigger p l).done := by
  obtain ⟨t, judged, ends⟩ := s.opened.periodEnd_judged
  refine ⟨t, judged.period, ?_⟩
  show s.opened.periodEnd.done = _
  rw [ends, judged.period.triggered_of_one here alone]
  rfl

end Sys2Proof.Machine
end

section
/-! SUPPORT. The end of a monitor period: the statement settled. -/

namespace Sys2Proof.Machine

variable {s t u : State} {p : PortIx} {l : LanePos} {c : ChanIx}

theorem StageTimer.tick_eq (t : StageTimer) : t.tick = { t with remaining := if t.halted then t.remaining else t.remaining - 1 } := by
  obtain ⟨remaining, halted⟩ := t
  cases halted <;> rfl

theorem Esu.tick_channel (e : Esu) (c : ChanIx) : e.tick.channels[c] = e.channels[c].map fun w => { w with watchdog := w.watchdog - 1 } := by
  show e.tick.channels[c.val] = _
  rw [Esu.tick, Vector.getElem_ofFn c.isLt]
  rfl

theorem Esu.tick_eq (e : Esu) :
    e.tick = { e with channels := e.channels.map fun o => o.map fun w => { w with watchdog := w.watchdog - 1 } } :=
  congrArg (fun channels => ({ e with channels := channels } : Esu)) e.tick_channels

/-- A millisecond frees no channel and takes none. -/
theorem Esu.tick_busy (e : Esu) : e.tick.busy = e.busy := by
  rw [Esu.busy_eq, Esu.busy_eq, Esu.tick_channels, Vector.toList_map, List.countP_map]
  refine List.countP_congr fun o _ => ?_
  cases o <;> simp

namespace PeriodJudged

variable (h : PeriodJudged s t)
include h

theorem esu : t.esu = s.esu.tick := h.shared State.esu

/-- A port whose lanes have judged their periods, before its trigger is taken. -/
theorem carries (port : u.port p = s.port p) (esu : u.esu = s.esu.tick) : (t.whole p).Carries u p where
  course := by
    rw [port]
    exact ⟨h.field p Port.mode, h.field p Port.snapshot, h.field p Port.neighbour, h.field p Port.verdict, h.field p Port.accepted,
      h.field p Port.map, h.field p Port.mapClass, h.field p Port.width, h.field p Port.unstable⟩
  attempts := by rw [port]; exact h.field p Port.attempts
  cycle := by rw [port]; exact h.field p Port.cycle
  counters := by rw [port]; exact h.field p Port.counters
  esu := h.esu.trans esu.symm

theorem unwatched (idle : s.monitored p l = false) : t.lane p l = (s.lane p l).tick := by rw [h.lane, idle]; rfl

theorem hunt (p : PortIx) (l : LanePos) :
    (t.lane p l).monitor.hunt = (s.lane p l).monitor.hunt.map fun o => { o with remaining := o.remaining - 1 } := by
  rw [h.lane, Lane.judged_hunt]
  rfl

/-- The one trigger of a period end, taken (R152). -/
theorem takes (state : (s.port p).state = .active) (room : (s.port p).mode = .step ∨ 3 ≤ (s.port p).unstable ∨ s.noGrant) :
    t.takeTrigger p l = t.put p ((t.whole p).takeRetrain p t.settings l .errorWindow
      (some (t.settings.retrain, (t.lane p l).monitor.history))) := by
  have active : (t.port p).state = .active := (h.field p Port.state).trans state
  have mode : (t.port p).mode = (s.port p).mode := h.field p Port.mode
  have unstable : (t.port p).unstable = (s.port p).unstable := h.field p Port.unstable
  have full : s.noGrant → t.settings.sweepLimit ≤ t.esu.busy := fun full => by
    rw [h.settings, h.esu, Esu.tick_busy]
    exact full
  have takes := State.put_takeRetrain (s := t) (p := p) (k := t.whole p) (l := l) (cause := .errorWindow)
    (window := some (t.settings.retrain, (t.lane p l).monitor.history)) active
    (room.imp mode.trans (.imp (fun many => Nat.le_trans many unstable.ge) full))
  rw [State.put_whole] at takes
  rw [State.takeTrigger, if_pos active, takes]

end PeriodJudged

/-- Settles O56: every monitored lane judges its period, and the one that raises a trigger retrains its port. -/
theorem monitorPeriodJudgesAndRetrains : Obligations.MonitorPeriodJudgesAndRetrains := by
  intro s watched errored history window raises
  have raises_iff : ∀ p l, raises p l ↔ s.raises p l := fun p l => and_congr (s.monitored_iff p l).symm Iff.rfl
  refine ⟨fun none_raises => ?_, ?_⟩
  · obtain ⟨u, judged, runs⟩ := exec_monitorPeriodEnd_of_none fun p l yes => none_raises p l ((raises_iff p l).2 yes)
    obtain ⟨t, done, ends⟩ := u.done_ends
    have lane : ∀ p l, t.lane p l = u.lane p l := fun p l => congrArg (Port.lane · l) (ends.ports p)
    have esu : t.esu = s.esu.tick := ends.esu.trans judged.esu
    refine ⟨t, runs.trans done, ends.time.trans (judged.shared State.time), ends.plan.trans (judged.shared State.plan),
      ends.settings.trans judged.settings, ends.identity.trans (judged.shared State.identity), by rw [esu]; rfl,
      fun c => by rw [esu, Esu.tick_channel], fun p => ?_, fun p l => ⟨fun on => ?_, fun off => ?_, ?_, ?_, ?_, ?_⟩⟩
    · have record : { u.port p with lanes := (s.port p).lanes } = _ := judged.record p
      rw [ends.ports, record]
      exact congrArg (fun timer => ({ s.port p with stageTimer := timer, cleanRun := (s.port p).cleanRun.map (· - 1) } : Port))
        (congrArg (Option.map · (s.port p).stageTimer) (funext StageTimer.tick_eq))
    · rw [lane]
      exact judged.watched ((s.monitored_iff p l).2 on)
    · rw [lane, judged.unwatched (Bool.eq_false_iff.2 fun on => off ((s.monitored_iff p l).1 on))]
      exact ⟨rfl, rfl, rfl⟩
    · rw [lane]
      exact judged.hunt p l
    · rw [lane]
      exact judged.laneField p l Lane.rx
    · rw [lane]
      exact judged.laneField p l Lane.eq
    · rw [lane]
      exact judged.laneField p l Lane.control
  · intro p l here alone x ticked room
    obtain ⟨u, judged, runs⟩ := exec_monitorPeriodEnd_of_one ((raises_iff p l).1 here) fun q m yes => alone q m ((raises_iff q m).2 yes)
    obtain ⟨⟨state, owner⟩, _⟩ := here
    obtain ⟨_, front, _⟩ := judged.watched ((s.monitored_iff p l).2 ⟨state, owner⟩)
    obtain ⟨t, done, became⟩ := became_of_put runs (judged.takes state room)
    have carries : (u.whole p).Carries { s with esu := ticked } p := judged.carries rfl s.esu.tick_eq.symm
    have active : (u.whole p).port.state = .active := (judged.field p Port.state).trans state
    have retrained := Local.takeRetrain_retrained carries active (fun m => judged.laneField p m Lane.eq) became.port became.esu
    have cleanRun : (t.port p).cleanRun = none := by
      obtain ⟨_, _, _, _, _, _, cleanRun, _⟩ := retrained
      exact cleanRun
    refine ⟨t, done, cleanRun, retrained, fun few step still below retrains => ?_⟩
    have unstable : (u.whole p).port.unstable = x.unstable := judged.field p Port.unstable
    have map : (u.whole p).port.map = x.map := judged.field p Port.map
    have width : (u.whole p).port.width = x.width := judged.field p Port.width
    have counters : (u.whole p).port.counters = x.counters := judged.field p Port.counters
    have reports : u.reports = s.reports := judged.shared State.reports
    have time : u.time = { s.time with clock := s.time.clock + 1 } := judged.shared State.time
    have kept : (u.whole p).kept = [] := judged.kept below
    obtain ⟨told, keeps⟩ := Local.takeRetrain_told (p := p) (g := u.settings) (l := l) (cause := .errorWindow)
      (window := some (u.settings.retrain, (u.lane p l).monitor.history)) active (by rw [unstable]; exact few)
      ((judged.field p Port.mode).trans step) (fun m => (judged.laneField p m Lane.autoLoop).trans (still m))
      (by rw [counters]; exact retrains)
    rw [became.reports, told, keeps, kept, unstable, map, width, reports, time, judged.settings, front, List.append_nil]
    rfl

end Sys2Proof.Machine
end
